-- ==== Sys2Proof/Word.lean ====
section
/-! DEFINITION. The word types of the Ulandoft K4 and their plainest arithmetic (spec 00 R5, R6). -/
namespace Sys2Proof

abbrev Byte := BitVec 8
abbrev W16 := BitVec 16
abbrev W32 := BitVec 32
abbrev W64 := BitVec 64
/-- Sixteen 32-bit lanes side by side, lane i at bits [32i+31:32i] (R11, R45). -/
abbrev Lanes := BitVec 512

/-- bits(x, hi, lo) of R9: the field x[hi:lo] as an unsigned integer. -/
abbrev bitsOf (x hi lo : Nat) : Nat := (x >>> lo) % 2 ^ (hi + 1 - lo)

end Sys2Proof
end

