-- ==== Sys2Proof/Syntax.lean ====
section
/-! DEFINITION. The steps of the K4: one constructor per row of spec/opcode_table.json. Element, sequencer and graph words
carry their fields (03 R67, R74, R76); Tumbler commands their function (21 R431); host packets their 64 bytes (10 R272);
register writes the access (24 R467); events the unit they concern. -/
namespace Sys2Proof

/-- Fields 2 to 8 of an element word (R67); the opcode is the constructor. -/
structure EWord where
  d : BitVec 6 := 0
  a : BitVec 6 := 0
  b : BitVec 6 := 0
  c : BitVec 6 := 0
  fwd : BitVec 4 := 0
  vm : BitVec 2 := 0
  ty : BitVec 3 := 0
  deriving DecidableEq, Repr

/-- Fields 2 to 6 of a sequencer word (R74). -/
structure SWord where
  xd : BitVec 5 := 0
  xa : BitVec 5 := 0
  xb : BitVec 5 := 0
  mod : BitVec 9 := 0
  imm : BitVec 32 := 0
  deriving DecidableEq, Repr

/-- Fields 2 to 6 of a graph word (R76). -/
structure GWord where
  gd : BitVec 4 := 0
  ga : BitVec 4 := 0
  gb : BitVec 4 := 0
  mod : BitVec 14 := 0
  imm : BitVec 32 := 0
  deriving DecidableEq, Repr

/-- A host packet: the channel it stands in and its 64 bytes as one little-endian number (R272). -/
structure HostPacket where
  part : Nat := 0
  chan : Nat := 0
  bits : BitVec 512 := 0
  deriving DecidableEq, Repr

/-- A host register access (R467): function (0 PF0, n VFn), BAR0 offset, size in bytes, value. -/
structure RegWr where
  fn : Nat := 0
  off : Nat := 0
  size : Nat := 8
  val : W64 := 0
  deriving DecidableEq, Repr

/-- What a flit from another device carries after the link layer has accepted it (R394, R398, R401, R402). -/
inductive FlitBody where
  /-- read of n bytes at the resolved virtual address under a context tag -/
  | read (ctag : Nat) (va : W64) (n : Nat)
  /-- bytes that a superstep of a member set of the other device writes under a writer index; they wait for its boundary (R307, R394, R400) -/
  | write (ctag set w : Nat) (va : W64) (data : List Byte)
  /-- the boundary of that set commits what it has written here (R400) -/
  | commitSet (ctag set : Nat)
  /-- its superstep is given up -/
  | dropSet (ctag set : Nat)
  /-- commit of bytes written by a task of the other device (R400) -/
  | commit (ctag : Nat) (va : W64) (data : List Byte)
  /-- reduction addend: to a 32-bit word, or to a cell of an element type (R402, R329) -/
  | reduce (ctag : Nat) (va : W64) (cell : Bool) (ty : Nat) (addend : W32)
  /-- immediate atomic: 0 add, 1 compare and swap, 2 swap; width in bytes (R402) -/
  | atomic (ctag : Nat) (va : W64) (kind width : Nat) (x y : W64)
  /-- event signal after a commit (R401) -/
  | signal (part ev inc : Nat)
  /-- data that answers this device's own request, or bytes committed there, as the context tag sees them (R394) -/
  | remoteBytes (ctag : Nat) (va : W64) (data : List Byte)
  /-- refusal of this device's own requests under a context tag to the page of an address, by trap class and code (R395) -/
  | refusal (ctag : Nat) (va : W64) (write : Bool) (cls code : Nat)
  /-- a request that an owning die forwards: its addresses are domain physical ones; wr: translation permits a write (R394) -/
  | forwarded (wr : Bool) (b : FlitBody)
  /-- a session that a pod peer exports: context, id, keys and counter of the enc direction (R460, R462) -/
  | session (part tenant id : Nat) (ktx stx : List Byte) (ctx : W64)
  /-- the package header and the key of an image that a pod peer exports (R460) -/
  | image (part : Nat) (header key : List Byte)
  deriving DecidableEq, Repr

/-- A flit: whether its CRC and tag hold (R398), and its body. -/
structure Flit where
  good : Bool := true
  body : FlitBody
  deriving DecidableEq, Repr

/-- A reliable datagram (R399): queue pair, its partition, sequence number, payload address and bytes, check value holds (R478). -/
structure Datagram where
  qp : Nat := 0
  part : Nat := 0
  seq : Nat := 0
  addr : W64 := 0
  data : List Byte := []
  good : Bool := true
  deriving DecidableEq, Repr

/-- A storage site for errors, scrubbing and debug reads (R390, R443, R479). -/
inductive HwSite where
  | hbm (die pa : Nat)
  | l2 (die pa : Nat)
  | scratch (page core off : Nat)
  | version (die pa : Nat)
  deriving DecidableEq, Repr

/-- A new clock of a die with the temperature and power that caused it (R477, R479). -/
structure ClockSet where
  khz : Nat
  temp : BitVec 8
  pwr : BitVec 16
  reduced : Bool
  deriving DecidableEq, Repr

/-- A walk for one 64 KiB page (R396): partition, tenant, VA[47:16]. -/
structure WalkReq where
  part : Nat
  tenant : Nat
  vpn : Nat
  deriving DecidableEq, Repr

/-- The unit whose memory access returns (R331). -/
inductive UnitRef where
  | page (p : Nat)
  | graph (die slot : Nat)
  deriving DecidableEq, Repr

/-- An event with the operands of the unit it concerns: one constructor per event row of the table. The event rows of Instr carry
no operands of their own: they act on the event in the focus of the state (log 3). -/
inductive Ev where
  /-- VF_FLR (R426): PCIe function-level reset of a virtual function. -/
  | vfFlr (part : Nat)
  /-- PF0_FLR (R476): PCIe function-level reset of PF0, resetting every partition and the device registers. -/
  | pf0Flr
  /-- COLD_RESET (R476): Power-on, PERST# or hot reset returning everything to reset values. -/
  | coldReset
  /-- INVALIDATION_ACK (R419): An invalidation completes and done is set to tkt. -/
  | invalidationAck (die part stage : Nat)
  /-- MIGRATION_ROUND (R405): A pre-copy round of a page migration completes. -/
  | migrationRound (die n : Nat)
  /-- MIGRATION_FINAL_ROUND (R406): Final round of a page migration switches the page to its destination. -/
  | migrationFinalRound (die n : Nat)
  /-- FW_HEARTBEAT (R438): Switched-in firmware writes hbt, completing the switch. -/
  | fwHeartbeat
  /-- FW_SWITCH_DEADLINE (R438): Heartbeat deadline expires and the switch rolls back. -/
  | fwSwitchDeadline
  /-- INTERVAL_DECIDE (R23): Deciding cycle of a kernel interval: live or void entry, reservations, schedule latch. -/
  | intervalDecide (tid : Nat)
  /-- KERNEL_END (R158): The last interval's results become readable and KRUN completes. -/
  | kernelEnd (tid rp : Nat)
  /-- MACRO_ELEMENT (R185): One element of a tile macro copy completes. -/
  | macroElement (page core : Nat)
  /-- ENGINE_ELEMENT (R361): One element of an engine command completes. -/
  | engineElement (page slot : Nat)
  /-- COLL_CONTRIBUTION (R364): A collective contribution from another member arrives. -/
  | collContribution (page slot : Nat)
  /-- COLL_TIMEOUT (R365): A held collective element exceeds colltmo. -/
  | collTimeout (page slot : Nat)
  /-- PORT_FETCH (R134): An input port fetches one window entry into its FIFO. -/
  | portFetch (page port : Nat)
  /-- PORT_WRITEOUT (R134): An output port writes its oldest pushed entry to scratchpad. -/
  | portWriteout (page port : Nat)
  /-- DRAIN_RECORD_WRITE (R220): A matrix column's drain record goes to the sp7 window. -/
  | drainRecordWrite (page : Nat)
  /-- WEIGHT_PORT_BEAT (R222): The weight port delivers one beat into an inactive weight bank. -/
  | weightPortBeat (page : Nat)
  /-- REDUCTION_SEND (R329): A reduction queue sends one entry to its home slice. -/
  | reductionSend (page core : Nat)
  /-- STEER_ARRIVAL (R215): A STEER condition reaches the lead's next-schedule latch. -/
  | steerArrival (tid cond : Nat)
  /-- EVENT_GRANT (R169): An event's home grants the head wait request. -/
  | eventGrant (part ev : Nat)
  /-- LOCAL_BOUNDARY (R310): A region's local boundary applies remote scratchpad writes. -/
  | localBoundary (tid : Nat)
  /-- GROUP_BOUNDARY (R311): A barrier group's boundary commits versions and reductions and advances sstep. -/
  | groupBoundary (part bg : Nat)
  /-- TRAP_FREEZE (R372): A trap freezes every page of the task and produces a trap record. -/
  | trapFreeze (tid : Nat)
  /-- FAULT_DEADLINE (R374): A queued trap record's decision deadline expires. -/
  | faultDeadline (tid : Nat)
  /-- TASK_SELECT (R238): The scheduler selects a task by priority and weighted deficit round-robin. -/
  | taskSelect (die part : Nat)
  /-- TASK_AGING (R237): A queued task's effective level drops after 2^20 cycles. -/
  | taskAging (tid : Nat)
  /-- DEFICIT_CHARGE (R238): A running task's tenant deficit is charged every 2^16 cycles. -/
  | deficitCharge (tid : Nat)
  /-- PRIORITY_PREEMPT (R240): An unplaceable head task raises preq on higher-level tasks after 2^14 cycles. -/
  | priorityPreempt (tid : Nat)
  /-- LEASE_RESIDENT (R235): A task's lease becomes resident after walks. -/
  | leaseResident (tid : Nat)
  /-- IMAGE_CHECK (R482): The configuration image is read and checked before the task takes pages. -/
  | imageCheck (tid : Nat)
  /-- REGION_PLACE (R243): The allocator places the region's pages, padding link delays. -/
  | regionPlace (tid : Nat)
  /-- CONFIG_LOAD (R236): The loader writes pages, fills weights, applies windows and starts all pages. -/
  | configLoad (tid : Nat)
  /-- TASK_END (R246): A task's end conditions hold; its version commits and resources are freed. -/
  | taskEnd (tid : Nat)
  /-- PREEMPT_REQUEST (R380): The Pintle sets preq.req on every page of a task. -/
  | preemptRequest (tid cause : Nat)
  /-- COOPERATIVE_SAVE (R380): Every page has yielded and the task is saved. -/
  | cooperativeSave (tid : Nat)
  /-- FORCED_SAVE (R380): The pdl deadline expires and unyielded pages are frozen and saved. -/
  | forcedSave (tid : Nat)
  /-- SLICE_END_RESTART (R381): At slice end an idempotent restartable task restarts instead of saving. -/
  | sliceEndRestart (tid : Nat)
  /-- TASK_RESTORE (R384): A saved task is reloaded and resumed. -/
  | taskRestore (tid : Nat)
  /-- L2_FILL (R288): A line fill completes in an L2 slice, choosing a victim. -/
  | l2Fill (die slice : Nat)
  /-- EXPANDER_DELIVER (R296): A slice's expander delivers a decompressed line. -/
  | expanderDeliver (die slice : Nat)
  /-- LINK_FAIL (R398): A link fails and traffic is rerouted. -/
  | linkFail (link : Nat) (lost : List Nat)
  /-- DOMAIN_LINK_TIMEOUT (R398): An unroutable request exceeds domlto and traps. -/
  | domainLinkTimeout (dev : Nat)
  /-- FLIT_RECEIVE (R398): A hinge-link flit arrives, replayed on CRC or tag failure. -/
  | flitReceive (link : Nat) (f : Flit)
  /-- LINK_KEY_UPDATE (R458): Link keys are updated every 2^32 flits. -/
  | linkKeyUpdate (link : Nat)
  /-- ETHERNET_DATAGRAM (R399): A reliable datagram arrives on an Ethernet queue pair. -/
  | ethernetDatagram (port : Nat) (d : Datagram)
  /-- PATROL_SCRUB (R479): The patrol scrubber reads, corrects and rewrites a line or word. -/
  | patrolScrub (t : HwSite)
  /-- CLOCK_CHANGE (R477): A die changes its clock against temperature and droop. -/
  | clockChange (die : Nat) (c : ClockSet)
  /-- REMOTE_WALK_COMPLETE (R396): A TLB walk at the owning die completes and its merged requests proceed. -/
  | remoteWalkComplete (die : Nat) (q : WalkReq)
  /-- DATA_RETURN (R331): The data or acknowledgement of a sequencer or graph memory access (XLD, XST, immediate atomic, XCELL, CELLINIT, GLD, GST) returns and ends the word's hold. -/
  | dataReturn (u : UnitRef)
  /-- ROUTE_COMES_BACK (R398): A failed route to a device comes back within domlto, and the held requests proceed unchanged. -/
  | routeComesBack (dev : Nat)
  /-- SOFT_ERROR (R479): A soft error corrupts an SRAM word, an HBM line or a sector, to be corrected by SECDED or scrub or trapped at consumption. -/
  | softError (t : HwSite) (correctable : Bool)
  /-- DEBUG_PORT_READ (R443): An access arrives on the debug port and reads state only when debug was unlocked at the last cold reset. -/
  | debugPortRead (t : HwSite)
  /-- PCIE_SECTOR_ENTRY (R478): A sector written by the host enters device memory from PCIe and is given its CRC-32C check value. -/
  | pcieSectorEntry (fn : Nat) (addr : W64) (data : List Byte)
  deriving DecidableEq, Repr

/-- One constructor per row of the table of operations and events. Register-write rows act on the access in the focus of the state
and event rows on its event (log 3). -/
inductive Instr where
  /-- NOP (R102): Element word that does nothing and writes nothing. -/
  | eNop (w : EWord)
  /-- MOV (R103): Copies each lane of a wide-plane source to a wide-plane destination. -/
  | eMov (w : EWord)
  /-- ADD (R98): Lane-wise integer add modulo 2^32, or per byte for i8x4. -/
  | eAdd (w : EWord)
  /-- SUB (R98): Lane-wise integer subtract modulo 2^32, or per byte for i8x4. -/
  | eSub (w : EWord)
  /-- MUL (R98): Lane-wise low 32 bits of the signed product. -/
  | eMul (w : EWord)
  /-- MULH (R98): Lane-wise high 32 bits of the signed 64-bit product. -/
  | eMulh (w : EWord)
  /-- MULHU (R98): Lane-wise high 32 bits of the unsigned 64-bit product. -/
  | eMulhu (w : EWord)
  /-- MAD (R98): Lane-wise multiply-add modulo 2^32. -/
  | eMad (w : EWord)
  /-- AND (R100): Lane-wise bitwise and. -/
  | eAnd (w : EWord)
  /-- OR (R100): Lane-wise bitwise or. -/
  | eOr (w : EWord)
  /-- XOR (R100): Lane-wise bitwise exclusive or. -/
  | eXor (w : EWord)
  /-- ANDN (R100): Lane-wise a AND NOT b. -/
  | eAndn (w : EWord)
  /-- NOT (R100): Lane-wise bitwise complement. -/
  | eNot (w : EWord)
  /-- SHL (R100): Lane-wise shift left by b[4:0]. -/
  | eShl (w : EWord)
  /-- SHR (R100): Lane-wise logical shift right. -/
  | eShr (w : EWord)
  /-- SRA (R100): Lane-wise arithmetic shift right. -/
  | eSra (w : EWord)
  /-- ROTL (R100): Lane-wise rotate left. -/
  | eRotl (w : EWord)
  /-- MIN (R98): Lane-wise signed minimum. -/
  | eMin (w : EWord)
  /-- MAX (R98): Lane-wise signed maximum. -/
  | eMax (w : EWord)
  /-- MINU (R98): Lane-wise unsigned minimum. -/
  | eMinu (w : EWord)
  /-- MAXU (R98): Lane-wise unsigned maximum. -/
  | eMaxu (w : EWord)
  /-- ABS (R98): Lane-wise absolute value modulo 2^32. -/
  | eAbs (w : EWord)
  /-- NEG (R98): Lane-wise negation modulo 2^32. -/
  | eNeg (w : EWord)
  /-- CLZ (R100): Lane-wise count of leading zero bits. -/
  | eClz (w : EWord)
  /-- POPC (R100): Lane-wise count of one bits. -/
  | ePopc (w : EWord)
  /-- CMPEQ (R101): Lane-wise integer equality compare giving 1 or 0. -/
  | eCmpeq (w : EWord)
  /-- CMPNE (R101): Lane-wise integer inequality compare. -/
  | eCmpne (w : EWord)
  /-- CMPLT (R101): Lane-wise signed less-than compare. -/
  | eCmplt (w : EWord)
  /-- CMPLE (R101): Lane-wise signed less-or-equal compare. -/
  | eCmple (w : EWord)
  /-- CMPLTU (R101): Lane-wise unsigned less-than compare. -/
  | eCmpltu (w : EWord)
  /-- CMPLEU (R101): Lane-wise unsigned less-or-equal compare. -/
  | eCmpleu (w : EWord)
  /-- SEL (R104): Chooses a or b for the whole word by lane 0 of c. -/
  | eSel (w : EWord)
  /-- VSEL (R104): Chooses a or b per lane by the lanes of c. -/
  | eVsel (w : EWord)
  /-- VALID (R105): Delivers each lane's validity of a as data. -/
  | eValid (w : EWord)
  /-- SETV (R105): Copies a's lanes and marks them valid. -/
  | eSetv (w : EWord)
  /-- CLRV (R105): Copies a's lanes and marks them invalid. -/
  | eClrv (w : EWord)
  /-- BCST (R103): Broadcasts lane 0 or a one-word source to all 16 lanes. -/
  | eBcst (w : EWord)
  /-- PERM (R106): Permutes the lanes of a by the indices in b. -/
  | ePerm (w : EWord)
  /-- SLIDEUP (R107): Moves lanes up by one and fills lane 0 from lane 15 of b. -/
  | eSlideup (w : EWord)
  /-- SLIDEDN (R107): Moves lanes down by one and fills lane 15 from lane 0 of b. -/
  | eSlidedn (w : EWord)
  /-- RSUM (R110): Cross-lane integer sum modulo 2^32 in the fixed tree. -/
  | eRsum (w : EWord)
  /-- RMAX (R110): Cross-lane signed maximum. -/
  | eRmax (w : EWord)
  /-- RMIN (R110): Cross-lane signed minimum. -/
  | eRmin (w : EWord)
  /-- LANEX (R108): Extracts one lane of a chosen by b. -/
  | eLanex (w : EWord)
  /-- LANEI (R109): Inserts one word into one lane of the destination register. -/
  | eLanei (w : EWord)
  /-- STEER (R112): Sends a schedule condition to the lead sequencer's next-schedule latch. -/
  | eSteer (w : EWord)
  /-- TRAPIF (R114): Raises a program trap when a taking-part lane of a is nonzero. -/
  | eTrapif (w : EWord)
  /-- MOVQ (R103): Moves lane 0 or a one-word source onto the narrow plane or a scalar register. -/
  | eMovq (w : EWord)
  /-- FADD (R118): Lane-wise floating add rounded once. -/
  | eFadd (w : EWord)
  /-- FSUB (R118): Lane-wise floating subtract rounded once. -/
  | eFsub (w : EWord)
  /-- FMUL (R118): Lane-wise floating multiply rounded once. -/
  | eFmul (w : EWord)
  /-- FMA (R118): Fused multiply-add with one rounding. -/
  | eFma (w : EWord)
  /-- FMS (R118): Fused multiply-subtract with one rounding. -/
  | eFms (w : EWord)
  /-- FNMA (R118): Fused c minus a times b with one rounding. -/
  | eFnma (w : EWord)
  /-- FMIN (R118): Lane-wise floating minimum. -/
  | eFmin (w : EWord)
  /-- FMAX (R118): Lane-wise floating maximum. -/
  | eFmax (w : EWord)
  /-- FMAXM (R118): Lane-wise operand of larger magnitude. -/
  | eFmaxm (w : EWord)
  /-- FABS (R118): Clears the sign of each element. -/
  | eFabs (w : EWord)
  /-- FNEG (R118): Flips the sign of each element. -/
  | eFneg (w : EWord)
  /-- FCOPYS (R118): Magnitude of a with the sign of b. -/
  | eFcopys (w : EWord)
  /-- FSCALE (R118): Multiplies each element by 2^n and rounds. -/
  | eFscale (w : EWord)
  /-- FROUND (R118): Rounds each element to an integral value in its format. -/
  | eFround (w : EWord)
  /-- FCVTI (R118): Converts f32 to i32 in the plain form. -/
  | eFcvti (w : EWord)
  /-- ICVTF (R118): Converts i32 to f32. -/
  | eIcvtf (w : EWord)
  /-- FCMPEQ (R119): Floating equality compare. -/
  | eFcmpeq (w : EWord)
  /-- FCMPLT (R119): Floating less-than compare, raising nv on NaN. -/
  | eFcmplt (w : EWord)
  /-- FCMPLE (R119): Floating less-or-equal compare, raising nv on NaN. -/
  | eFcmple (w : EWord)
  /-- FCMPUN (R119): Floating unordered compare. -/
  | eFcmpun (w : EWord)
  /-- FCLASS (R120): Delivers a one-hot class mask per element. -/
  | eFclass (w : EWord)
  /-- FRCP (R121): Reciprocal rounded once. -/
  | eFrcp (w : EWord)
  /-- FRSQ (R121): Reciprocal square root rounded once. -/
  | eFrsq (w : EWord)
  /-- FSQRT (R121): Square root rounded once. -/
  | eFsqrt (w : EWord)
  /-- FDIV (R121): Division rounded once. -/
  | eFdiv (w : EWord)
  /-- FEXP2 (R121): Base-2 exponential rounded once. -/
  | eFexp2 (w : EWord)
  /-- FLOG2 (R121): Base-2 logarithm rounded once. -/
  | eFlog2 (w : EWord)
  /-- FRSUM (R122): Cross-lane f32 sum rounded at each tree node. -/
  | eFrsum (w : EWord)
  /-- FRMAX (R122): Cross-lane f32 maximum. -/
  | eFrmax (w : EWord)
  /-- FRMIN (R122): Cross-lane f32 minimum. -/
  | eFrmin (w : EWord)
  /-- DOT (R123): Per-lane dot product of packed elements rounded once. -/
  | eDot (w : EWord)
  /-- DOTA (R123): Per-lane dot product plus accumulator rounded once. -/
  | eDota (w : EWord)
  /-- CVT (R124): Converts element 0 of each lane between formats, plain form. -/
  | eCvt (w : EWord)
  /-- CVTS (R124): Converts element 0 of each lane between formats, S form. -/
  | eCvts (w : EWord)
  /-- PACK (R125): Builds narrow elements from two sources. -/
  | ePack (w : EWord)
  /-- UNPKL (R126): Widens the low half of each lane. -/
  | eUnpkl (w : EWord)
  /-- UNPKH (R126): Widens the high half of each lane. -/
  | eUnpkh (w : EWord)
  /-- QMX (R129): Quantizes 32 values into an mx4 qblock. -/
  | eQmx (w : EWord)
  /-- QBX (R129): Quantizes 32 values into a bx4 qblock. -/
  | eQbx (w : EWord)
  /-- DQ (R131): Decodes one fp4 block to a floating type. -/
  | eDq (w : EWord)
  /-- SCLX (R130): Delivers the E8M0 scale a quantizer would choose. -/
  | eSclx (w : EWord)
  /-- NARW (R127): Converts to a narrower type, packing lanes together. -/
  | eNarw (w : EWord)
  /-- WIDN (R127): Converts to a wider type, spreading elements over lanes. -/
  | eWidn (w : EWord)
  /-- LD (R132): Loads 32 bits per lane from the core's own scratchpad. -/
  | eLd (w : EWord)
  /-- ST (R132): Stores lanes of c to the core's own scratchpad. -/
  | eSt (w : EWord)
  /-- LDC (R327): Reads the core's constant cache per lane. -/
  | eLdc (w : EWord)
  /-- SRD (R135): Pops one entry from an input stream port. -/
  | eSrd (w : EWord)
  /-- SWR (R136): Pushes one entry onto an output stream port. -/
  | eSwr (w : EWord)
  /-- SSKIP (R137): Advances a stream port by n entries. -/
  | eSskip (w : EWord)
  /-- SCOUNT (R138): Reads a port's FIFO level and ended bit. -/
  | eScount (w : EWord)
  /-- AREDF (R328): Queues lane addends into fx128 cells in translated memory. -/
  | eAredf (w : EWord)
  /-- AREDI (R328): Queues lane addends into i32 words in translated memory. -/
  | eAredi (w : EWord)
  /-- WLD (R142): Writes a's 16 lanes into a weight register and forwards them with their K flag. -/
  | eWld (w : EWord)
  /-- WSEL (R143): Flips the weight-bank select and sets the core's ready flag. -/
  | eWsel (w : EWord)
  /-- SMAC (R145): Weight-stationary cell operation of a matrix page. -/
  | eSmac (w : EWord)
  /-- SDRN (R146): Passes a through and pushes it onto the drain port. -/
  | eSdrn (w : EWord)
  /-- FEED (R147): Pushes one feed segment to a matrix page's feed row. -/
  | eFeed (w : EWord)
  /-- RDCTL (R140): Reads a control register by index. -/
  | eRdctl (w : EWord)
  /-- WRCTL (R140): Writes a control register by index. -/
  | eWrctl (w : EWord)
  /-- XLI (R154): Loads a sign-extended immediate into xd. -/
  | sXli (w : SWord)
  /-- XLIH (R154): Sets the upper 32 bits of xd from imm. -/
  | sXlih (w : SWord)
  /-- XADD (R154): 64-bit scalar add. -/
  | sXadd (w : SWord)
  /-- XSUB (R154): 64-bit scalar subtract. -/
  | sXsub (w : SWord)
  /-- XMUL (R154): 64-bit scalar multiply, low bits. -/
  | sXmul (w : SWord)
  /-- XAND (R154): Scalar bitwise and. -/
  | sXand (w : SWord)
  /-- XIOR (R154): Scalar bitwise or. -/
  | sXior (w : SWord)
  /-- XXOR (R154): Scalar bitwise exclusive or. -/
  | sXxor (w : SWord)
  /-- XSHL (R154): Scalar shift left. -/
  | sXshl (w : SWord)
  /-- XSHR (R154): Scalar logical shift right. -/
  | sXshr (w : SWord)
  /-- XSRA (R154): Scalar arithmetic shift right. -/
  | sXsra (w : SWord)
  /-- XMIN (R154): Scalar minimum, signed or unsigned. -/
  | sXmin (w : SWord)
  /-- XMAX (R154): Scalar maximum, signed or unsigned. -/
  | sXmax (w : SWord)
  /-- XSLT (R154): Scalar set-less-than. -/
  | sXslt (w : SWord)
  /-- XSEL (R154): Scalar select by xc. -/
  | sXsel (w : SWord)
  /-- XLD (R155): Sequencer load of 8 to 64 bits from a virtual address. -/
  | sXld (w : SWord)
  /-- XST (R155): Sequencer store of 8 to 64 bits to a virtual address. -/
  | sXst (w : SWord)
  /-- REP (R156): Starts a counted repeat of the following L words. -/
  | sRep (w : SWord)
  /-- KRUN (R158): Runs the page's control tables as a loop kernel. -/
  | sKrun (w : SWord)
  /-- KSW (R161): Writes a wave immediate table entry. -/
  | sKsw (w : SWord)
  /-- YIELD (R162): Yields the task when preq.req is set. -/
  | sYield (w : SWord)
  /-- HALT (R163): Ends this page's sequencer program. -/
  | sHalt (w : SWord)
  /-- TRAP (R164): Raises a user program trap with a code. -/
  | sTrap (w : SWord)
  /-- NOPQ (R165): Holds for max(1, n) cycles. -/
  | sNopq (w : SWord)
  /-- SSEND (R167): Arrives at a barrier group and holds until its boundary completes. -/
  | sSsend (w : SWord)
  /-- LSYNC (R168): Arrives at the region's local boundary and holds until it completes. -/
  | sLsync (w : SWord)
  /-- SIGE (R169): Signals an event counter with an increment. -/
  | sSige (w : SWord)
  /-- WAITE (R169): Queues a wait on an event counter and holds until granted. -/
  | sWaite (w : SWord)
  /-- TLD (R192): Tile macro loading memory rows into a tile register. -/
  | sTld (w : SWord)
  /-- TST (R192): Tile macro storing tile rows to memory. -/
  | sTst (w : SWord)
  /-- TKLD (R194): Tile macro moving keyed beats through the Keyway to a link or keyed bank. -/
  | sTkld (w : SWord)
  /-- TWLD (R195): Tile macro loading weight registers through the Keyway. -/
  | sTwld (w : SWord)
  /-- TMMA (R196): Tile matrix multiply-accumulate under plus-times. -/
  | sTmma (w : SWord)
  /-- TMMS (R196): Tile matrix product under a named semiring. -/
  | sTmms (w : SWord)
  /-- TGATH (R192): Tile macro gathering indexed memory rows. -/
  | sTgath (w : SWord)
  /-- TSCAT (R192): Tile macro scattering rows to indexed memory. -/
  | sTscat (w : SWord)
  /-- TXP (R197): Tile transpose. -/
  | sTxp (w : SWord)
  /-- TCVT (R198): Tile element conversion between types. -/
  | sTcvt (w : SWord)
  /-- TQNT (R199): Tile quantization to mx4 or bx4. -/
  | sTqnt (w : SWord)
  /-- TRED (R202): Tile row reduction: sum, max or min. -/
  | sTred (w : SWord)
  /-- TEW (R203): Tile element-wise arithmetic. -/
  | sTew (w : SWord)
  /-- TFILL (R200): Fills a tile register with a value. -/
  | sTfill (w : SWord)
  /-- TSMX (R204): Row-wise softmax of a tile. -/
  | sTsmx (w : SWord)
  /-- TNRM (R205): Row-wise RMS normalization of a tile. -/
  | sTnrm (w : SWord)
  /-- MSHP (R171): Writes a tile shape on all cores of the page. -/
  | sMshp (w : SWord)
  /-- MSHR (R171): Reads a tile shape into xd. -/
  | sMshr (w : SWord)
  /-- SPSET (R172): Sets a stream port's direction and enable and restarts it. -/
  | sSpset (w : SWord)
  /-- WIN (R172): Reads a stream pattern record and installs it as a port window. -/
  | sWin (w : SWord)
  /-- CSET (R171): Writes all 64 bits of a core scalar register. -/
  | sCset (w : SWord)
  /-- CGET (R171): Reads all 64 bits of a core scalar register. -/
  | sCget (w : SWord)
  /-- ECOPY (R361): Engine command copying source pattern elements to a destination pattern. -/
  | sEcopy (w : SWord)
  /-- EGATH (R361): Engine gather by an index pattern. -/
  | sEgath (w : SWord)
  /-- ESCAT (R361): Engine scatter by an index pattern. -/
  | sEscat (w : SWord)
  /-- EFILL (R361): Engine fill of a destination pattern with a value. -/
  | sEfill (w : SWord)
  /-- ECOLL_SUM (R364): Collective sum over a barrier group's members. -/
  | sEcollSum (w : SWord)
  /-- ECOLL_GATHER (R364): Collective gather over a barrier group's members. -/
  | sEcollGather (w : SWord)
  /-- ECOLL_BCAST (R364): Collective broadcast from member 0. -/
  | sEcollBcast (w : SWord)
  /-- ECRYPT_ENC (R362): Engine AES-256-GCM encryption under a session. -/
  | sEcryptEnc (w : SWord)
  /-- ECRYPT_DEC (R362): Engine AES-256-GCM decryption under a session. -/
  | sEcryptDec (w : SWord)
  /-- EQRY (R363): Reads a command slot's eprog into xd. -/
  | sEqry (w : SWord)
  /-- EWAIT (R363): Holds until the masked engine slots are not busy. -/
  | sEwait (w : SWord)
  /-- ECANCEL (R363): Stops the masked engine commands after their current element. -/
  | sEcancel (w : SWord)
  /-- SEAL (R337): Requests that a range be sealed from the next group boundary. -/
  | sSeal (w : SWord)
  /-- UNSEAL (R337): Requests that a sealed range be unsealed. -/
  | sUnseal (w : SWord)
  /-- RETAIN (R338): Claims a retention register owning L2 ways for a range. -/
  | sRetain (w : SWord)
  /-- UNPIN (R339): Releases a claimed retention register. -/
  | sUnpin (w : SWord)
  /-- EVHINT (R338): Claims a register marking a range evict-first. -/
  | sEvhint (w : SWord)
  /-- FENCE (R341): Holds until the masked page conditions hold. -/
  | sFence (w : SWord)
  /-- CFILL (R336): Copies lines into one or all cores' constant caches. -/
  | sCfill (w : SWord)
  /-- CELLINIT (R334): Initialises n fx128 cells with a scale. -/
  | sCellinit (w : SWord)
  /-- XCELL (R335): Reads a fixed-point cell into xd. -/
  | sXcell (w : SWord)
  /-- XAADD (R332): Immediate atomic add at the home L2. -/
  | sXaadd (w : SWord)
  /-- XACAS (R332): Immediate atomic compare-and-swap at the home L2. -/
  | sXacas (w : SWord)
  /-- XASWP (R332): Immediate atomic swap at the home L2. -/
  | sXaswp (w : SWord)
  /-- RDSR (R173): Reads a sequencer special register. -/
  | sRdsr (w : SWord)
  /-- WRSR (R173): Writes the user field of seqst. -/
  | sWrsr (w : SWord)
  /-- END (R268): Closes a graph instance. -/
  | gEnd (w : GWord)
  /-- TASK (R256): Launches a task record from the graph. -/
  | gTask (w : GWord)
  /-- TASKD (R256): Launches a task record with trips from a register. -/
  | gTaskd (w : GWord)
  /-- STEP (R258): Opens a graph step. -/
  | gStep (w : GWord)
  /-- ENDSTEP (R258): Closes a graph step and queues its launches as one member set. -/
  | gEndstep (w : GWord)
  /-- WAIT_EVENT (R259): Graph wait on an event counter. -/
  | gWaitEvent (w : GWord)
  /-- WAIT_LAUNCH (R259): Graph wait until every instance of a launch has ended. -/
  | gWaitLaunch (w : GWord)
  /-- SIG (R259): Graph signal of an event counter. -/
  | gSig (w : GWord)
  /-- GLD (R254): Graph load of committed memory. -/
  | gGld (w : GWord)
  /-- GST (R254): Graph committed store at the home L2. -/
  | gGst (w : GWord)
  /-- GLI (R257): Loads an immediate into a graph register. -/
  | gGli (w : GWord)
  /-- GADD (R257): Graph register add. -/
  | gGadd (w : GWord)
  /-- GSUB (R257): Graph register subtract. -/
  | gGsub (w : GWord)
  /-- GAND (R257): Graph register and. -/
  | gGand (w : GWord)
  /-- GCMP (R257): Graph register compare. -/
  | gGcmp (w : GWord)
  /-- GCELL (R260): Reads and optionally clears a committed fixed-point cell. -/
  | gGcell (w : GWord)
  /-- BR (R261): Graph branch. -/
  | gBr (w : GWord)
  /-- BRC (R261): Graph conditional branch. -/
  | gBrc (w : GWord)
  /-- LOOP (R261): Opens a counted graph loop. -/
  | gLoop (w : GWord)
  /-- ENDL (R261): Ends a pass of a graph loop. -/
  | gEndl (w : GWord)
  /-- CALLG (R263): Runs another graph object as a child instance. -/
  | gCallg (w : GWord)
  /-- PATCH (R264): Applies queued patch messages to the parameter block. -/
  | gPatch (w : GWord)
  /-- MSG (R265): Sends a message packet to the host. -/
  | gMsg (w : GWord)
  /-- RCV (R265): Holds until a host data packet arrives and takes it. -/
  | gRcv (w : GWord)
  /-- LEASE (R266): Makes a range resident as a graph lease. -/
  | gLease (w : GWord)
  /-- FREE (R266): Releases a graph-lease slot. -/
  | gFree (w : GWord)
  /-- RECEIPT (R267): Asks the Tumbler for a signed usage receipt. -/
  | gReceipt (w : GWord)
  /-- FAULTRD (R376): Reads the oldest unread trap record of the instance. -/
  | gFaultrd (w : GWord)
  /-- FAULTACK_END (R377): Ends a trapped task. -/
  | gFaultackEnd (w : GWord)
  /-- FAULTACK_RESUME (R377): Resumes a trapped task in place. -/
  | gFaultackResume (w : GWord)
  /-- RETRY (R377): Restarts a trapped task's superstep from its checkpoint. -/
  | gRetry (w : GWord)
  /-- IDENT (R428): Tumbler command returning both certificate chains. -/
  | cIdent (fn : Nat)
  /-- ATTEST (R435): Tumbler command producing a signed attestation report. -/
  | cAttest (fn : Nat)
  /-- FWSTAGE (R438): Writes and checks a firmware image in the inactive slot. -/
  | cFwstage (fn : Nat)
  /-- FWSWITCH (R438): Switches Pintle and management firmware live to the staged slot. -/
  | cFwswitch (fn : Nat)
  /-- LIBADD (R444): Adds signed manifest entries to the partition's library. -/
  | cLibadd (fn : Nat)
  /-- LIBREVOKE (R82): Removes a library entry. -/
  | cLibrevoke (fn : Nat)
  /-- PAGESET (R441): Changes POT entries of a page range along an allowed transition. -/
  | cPageset (fn : Nat)
  /-- MODELOPEN (R447): Checks a model package header and unwraps its key into a new image index. -/
  | cModelopen (fn : Nat)
  /-- MODELFILL (R448): Decrypts staged chunks and re-encrypts them into O pages. -/
  | cModelfill (fn : Nat)
  /-- MODELCLOSE (R449): Scrubs an image's O pages and frees its index. -/
  | cModelclose (fn : Nat)
  /-- SESSOPEN (R450): Opens a session bound to a context tag. -/
  | cSessopen (fn : Nat)
  /-- SESSCLOSE (R453): Returns a session's pages to G and destroys its keys. -/
  | cSessclose (fn : Nat)
  /-- REPLYCLOSE (R454): Encrypts a Y range to the requester and scrubs it. -/
  | cReplyclose (fn : Nat)
  /-- OWNRECEIPT (R457): Writes a signed owner receipt for one image. -/
  | cOwnreceipt (fn : Nat)
  /-- LINKUP (R458): Runs SPDM key exchange to secure a link. -/
  | cLinkup (fn : Nat)
  /-- EXPORT (R460): Sends a session's or image's keys to a pod peer. -/
  | cExport (fn : Nat)
  /-- HOST_INSTALL_PACKET (R273): Host packet installing a graph image into an object. -/
  | hHostInstallPacket (p : HostPacket)
  /-- HOST_LAUNCH_PACKET (R273): Host packet launching a graph instance. -/
  | hHostLaunchPacket (p : HostPacket)
  /-- HOST_PATCH_PACKET (R273): Host packet queuing patch entries for an instance. -/
  | hHostPatchPacket (p : HostPacket)
  /-- HOST_DATA_PACKET (R273): Host data packet queued to an instance. -/
  | hHostDataPacket (p : HostPacket)
  /-- UNKNOWN_PACKET_TYPE (R273): Accepted host packet of unknown type, answered with status 0x4C. -/
  | hUnknownPacketType (p : HostPacket)
  /-- CHANNEL_CREATE (R472): Writing chanK.en from 0 to 1 creates a message channel. -/
  | rChannelCreate
  /-- CHANNEL_CLOSE (R472): Writing chanK.en from 1 to 0 closes a channel. -/
  | rChannelClose
  /-- RSYNC (R473): Host request for a resync packet carrying hexp and dlast. -/
  | rRsync
  /-- REGISTER_WRITE (R467): Host write to a register with no behaviour of its own. -/
  | rRegisterWrite
  /-- PARTITION_DISABLE (R426): Writing partN.en from 1 to 0 performs the function-level reset. -/
  | rPartitionDisable
  /-- VF_FLR (R426): PCIe function-level reset of a virtual function. -/
  | vVfFlr
  /-- PF0_FLR (R476): PCIe function-level reset of PF0, resetting every partition and the device registers. -/
  | vPf0Flr
  /-- COLD_RESET (R476): Power-on, PERST# or hot reset returning everything to reset values. -/
  | vColdReset
  /-- S1INV (R418): Starts a stage-1 translation invalidation. -/
  | rS1inv
  /-- S2INV (R418): Starts a stage-2 translation invalidation. -/
  | rS2inv
  /-- INVALIDATION_ACK (R419): An invalidation completes and done is set to tkt. -/
  | vInvalidationAck
  /-- LFACK (R417): Answers a waiting lease fault: walk again or end the task. -/
  | rLfack
  /-- MIGRATION_START (R404): Writing migN.state 001 starts a page migration. -/
  | rMigrationStart
  /-- MIGRATION_ROUND (R405): A pre-copy round of a page migration completes. -/
  | vMigrationRound
  /-- MIGRATION_FINAL_ROUND (R406): Final round of a page migration switches the page to its destination. -/
  | vMigrationFinalRound
  /-- LM_FLIP (R424): Starts a new dirty-log epoch. -/
  | rLmFlip
  /-- LM_QUIESCE (R425): Quiesces a partition for its final live-migration round. -/
  | rLmQuiesce
  /-- RETENTION_REG_WRITE (R340): Operator write to a retention register re-takes ways and evicts outside lines. -/
  | rRetentionRegWrite
  /-- COMPRESSION_RANGE_WRITE (R293): Operator write to a compression range register, ignored with err when lines are resident. -/
  | rCompressionRangeWrite
  /-- VSPILL_WRITE (R316): Write to a partition's spill area register. -/
  | rVspillWrite
  /-- SAVEAREA_WRITE (R382): Write to a partition's save area register. -/
  | rSaveareaWrite
  /-- FW_HEARTBEAT (R438): Switched-in firmware writes hbt, completing the switch. -/
  | vFwHeartbeat
  /-- FW_SWITCH_DEADLINE (R438): Heartbeat deadline expires and the switch rolls back. -/
  | vFwSwitchDeadline
  /-- INTERVAL_DECIDE (R23): Deciding cycle of a kernel interval: live or void entry, reservations, schedule latch. -/
  | vIntervalDecide
  /-- KERNEL_END (R158): The last interval's results become readable and KRUN completes. -/
  | vKernelEnd
  /-- MACRO_ELEMENT (R185): One element of a tile macro copy completes. -/
  | vMacroElement
  /-- ENGINE_ELEMENT (R361): One element of an engine command completes. -/
  | vEngineElement
  /-- COLL_CONTRIBUTION (R364): A collective contribution from another member arrives. -/
  | vCollContribution
  /-- COLL_TIMEOUT (R365): A held collective element exceeds colltmo. -/
  | vCollTimeout
  /-- PORT_FETCH (R134): An input port fetches one window entry into its FIFO. -/
  | vPortFetch
  /-- PORT_WRITEOUT (R134): An output port writes its oldest pushed entry to scratchpad. -/
  | vPortWriteout
  /-- DRAIN_RECORD_WRITE (R220): A matrix column's drain record goes to the sp7 window. -/
  | vDrainRecordWrite
  /-- WEIGHT_PORT_BEAT (R222): The weight port delivers one beat into an inactive weight bank. -/
  | vWeightPortBeat
  /-- REDUCTION_SEND (R329): A reduction queue sends one entry to its home slice. -/
  | vReductionSend
  /-- STEER_ARRIVAL (R215): A STEER condition reaches the lead's next-schedule latch. -/
  | vSteerArrival
  /-- EVENT_GRANT (R169): An event's home grants the head wait request. -/
  | vEventGrant
  /-- LOCAL_BOUNDARY (R310): A region's local boundary applies remote scratchpad writes. -/
  | vLocalBoundary
  /-- GROUP_BOUNDARY (R311): A barrier group's boundary commits versions and reductions and advances sstep. -/
  | vGroupBoundary
  /-- TRAP_FREEZE (R372): A trap freezes every page of the task and produces a trap record. -/
  | vTrapFreeze
  /-- FAULT_DEADLINE (R374): A queued trap record's decision deadline expires. -/
  | vFaultDeadline
  /-- TASK_SELECT (R238): The scheduler selects a task by priority and weighted deficit round-robin. -/
  | vTaskSelect
  /-- TASK_AGING (R237): A queued task's effective level drops after 2^20 cycles. -/
  | vTaskAging
  /-- DEFICIT_CHARGE (R238): A running task's tenant deficit is charged every 2^16 cycles. -/
  | vDeficitCharge
  /-- PRIORITY_PREEMPT (R240): An unplaceable head task raises preq on higher-level tasks after 2^14 cycles. -/
  | vPriorityPreempt
  /-- LEASE_RESIDENT (R235): A task's lease becomes resident after walks. -/
  | vLeaseResident
  /-- IMAGE_CHECK (R482): The configuration image is read and checked before the task takes pages. -/
  | vImageCheck
  /-- REGION_PLACE (R243): The allocator places the region's pages, padding link delays. -/
  | vRegionPlace
  /-- CONFIG_LOAD (R236): The loader writes pages, fills weights, applies windows and starts all pages. -/
  | vConfigLoad
  /-- TASK_END (R246): A task's end conditions hold; its version commits and resources are freed. -/
  | vTaskEnd
  /-- PREEMPT_REQUEST (R380): The Pintle sets preq.req on every page of a task. -/
  | vPreemptRequest
  /-- COOPERATIVE_SAVE (R380): Every page has yielded and the task is saved. -/
  | vCooperativeSave
  /-- FORCED_SAVE (R380): The pdl deadline expires and unyielded pages are frozen and saved. -/
  | vForcedSave
  /-- SLICE_END_RESTART (R381): At slice end an idempotent restartable task restarts instead of saving. -/
  | vSliceEndRestart
  /-- TASK_RESTORE (R384): A saved task is reloaded and resumed. -/
  | vTaskRestore
  /-- L2_FILL (R288): A line fill completes in an L2 slice, choosing a victim. -/
  | vL2Fill
  /-- EXPANDER_DELIVER (R296): A slice's expander delivers a decompressed line. -/
  | vExpanderDeliver
  /-- LINK_FAIL (R398): A link fails and traffic is rerouted. -/
  | vLinkFail
  /-- DOMAIN_LINK_TIMEOUT (R398): An unroutable request exceeds domlto and traps. -/
  | vDomainLinkTimeout
  /-- FLIT_RECEIVE (R398): A hinge-link flit arrives, replayed on CRC or tag failure. -/
  | vFlitReceive
  /-- LINK_KEY_UPDATE (R458): Link keys are updated every 2^32 flits. -/
  | vLinkKeyUpdate
  /-- ETHERNET_DATAGRAM (R399): A reliable datagram arrives on an Ethernet queue pair. -/
  | vEthernetDatagram
  /-- PATROL_SCRUB (R479): The patrol scrubber reads, corrects and rewrites a line or word. -/
  | vPatrolScrub
  /-- CLOCK_CHANGE (R477): A die changes its clock against temperature and droop. -/
  | vClockChange
  /-- REMOTE_WALK_COMPLETE (R396): A TLB walk at the owning die completes and its merged requests proceed. -/
  | vRemoteWalkComplete
  /-- CLUSTER_REVOCATION (R412): An operator write that clears partN.cl bits revokes clusters; running tasks there receive preq with cause 11. -/
  | rClusterRevocation
  /-- CHANNEL_DHEAD_WRITE (R472): The host writes chanK.dhead, freeing device-to-host ring slots so that a held MSG or status packet can proceed. -/
  | rChannelDheadWrite
  /-- DATA_RETURN (R331): The data or acknowledgement of a sequencer or graph memory access (XLD, XST, immediate atomic, XCELL, CELLINIT, GLD, GST) returns and ends the word's hold. -/
  | vDataReturn
  /-- ROUTE_COMES_BACK (R398): A failed route to a device comes back within domlto, and the held requests proceed unchanged. -/
  | vRouteComesBack
  /-- SOFT_ERROR (R479): A soft error corrupts an SRAM word, an HBM line or a sector, to be corrected by SECDED or scrub or trapped at consumption. -/
  | vSoftError
  /-- DEBUG_PORT_READ (R443): An access arrives on the debug port and reads state only when debug was unlocked at the last cold reset. -/
  | vDebugPortRead
  /-- PCIE_SECTOR_ENTRY (R478): A sector written by the host enters device memory from PCIe and is given its CRC-32C check value. -/
  | vPcieSectorEntry
  deriving DecidableEq, Repr

/-- The row of an event. -/
def Ev.instr : Ev → Instr
  | .vfFlr _ => .vVfFlr
  | .pf0Flr => .vPf0Flr
  | .coldReset => .vColdReset
  | .invalidationAck _ _ _ => .vInvalidationAck
  | .migrationRound _ _ => .vMigrationRound
  | .migrationFinalRound _ _ => .vMigrationFinalRound
  | .fwHeartbeat => .vFwHeartbeat
  | .fwSwitchDeadline => .vFwSwitchDeadline
  | .intervalDecide _ => .vIntervalDecide
  | .kernelEnd _ _ => .vKernelEnd
  | .macroElement _ _ => .vMacroElement
  | .engineElement _ _ => .vEngineElement
  | .collContribution _ _ => .vCollContribution
  | .collTimeout _ _ => .vCollTimeout
  | .portFetch _ _ => .vPortFetch
  | .portWriteout _ _ => .vPortWriteout
  | .drainRecordWrite _ => .vDrainRecordWrite
  | .weightPortBeat _ => .vWeightPortBeat
  | .reductionSend _ _ => .vReductionSend
  | .steerArrival _ _ => .vSteerArrival
  | .eventGrant _ _ => .vEventGrant
  | .localBoundary _ => .vLocalBoundary
  | .groupBoundary _ _ => .vGroupBoundary
  | .trapFreeze _ => .vTrapFreeze
  | .faultDeadline _ => .vFaultDeadline
  | .taskSelect _ _ => .vTaskSelect
  | .taskAging _ => .vTaskAging
  | .deficitCharge _ => .vDeficitCharge
  | .priorityPreempt _ => .vPriorityPreempt
  | .leaseResident _ => .vLeaseResident
  | .imageCheck _ => .vImageCheck
  | .regionPlace _ => .vRegionPlace
  | .configLoad _ => .vConfigLoad
  | .taskEnd _ => .vTaskEnd
  | .preemptRequest _ _ => .vPreemptRequest
  | .cooperativeSave _ => .vCooperativeSave
  | .forcedSave _ => .vForcedSave
  | .sliceEndRestart _ => .vSliceEndRestart
  | .taskRestore _ => .vTaskRestore
  | .l2Fill _ _ => .vL2Fill
  | .expanderDeliver _ _ => .vExpanderDeliver
  | .linkFail _ _ => .vLinkFail
  | .domainLinkTimeout _ => .vDomainLinkTimeout
  | .flitReceive _ _ => .vFlitReceive
  | .linkKeyUpdate _ => .vLinkKeyUpdate
  | .ethernetDatagram _ _ => .vEthernetDatagram
  | .patrolScrub _ => .vPatrolScrub
  | .clockChange _ _ => .vClockChange
  | .remoteWalkComplete _ _ => .vRemoteWalkComplete
  | .dataReturn _ => .vDataReturn
  | .routeComesBack _ => .vRouteComesBack
  | .softError _ _ => .vSoftError
  | .debugPortRead _ => .vDebugPortRead
  | .pcieSectorEntry _ _ _ => .vPcieSectorEntry

end Sys2Proof
end

