-- ==== Sys2Proof/Machine/Fields.lean ====
section
/-! DEFINITION. The field rules of the three word formats (03 R67-R76, R87) with the values that each instruction's entry
admits (04 R96, 05 R116, 06 R153, 07 R181, 10 R255, 14 R326 R330, 16 R360, 18 R376): the loader's per-word checks. Each check
answers the list of (field number, reason code) that it finds at fault. -/
namespace Sys2Proof.Machine

/-- How an element opcode uses its fields (R72): d 0 unused, 1 destination, 2 weight register; a 0 unused, 1 operand, 2 port,
3 control index; b 0 unused, 1 operand, 2 type; c 0 unused, 1 validity source, 2 operand, 3 modifier. Then the admitted ty and
vm values as bit masks, and the latency (0 for none) (R96, R116, R326). -/
structure ElemForm where
  d : Nat
  a : Nat
  b : Nat
  c : Nat
  tys : Nat
  vms : Nat
  lat : Nat
  deriving DecidableEq, Repr

/-- The element opcode map with field use, admitted values and latency (R71, R72, R96, R116, R326); none for a reserved opcode. -/
def elemForm (op : Nat) : Option ElemForm :=
  if op = 0x00 then some ⟨0, 0, 0, 0, 1, 1, 0⟩                                   -- NOP
  else if op = 0x01 then some ⟨1, 1, 0, 1, 255, 15, 1⟩                           -- MOV
  else if op ≤ 0x03 then some ⟨1, 1, 1, 1, 0x41, 15, 1⟩                          -- ADD SUB
  else if op ≤ 0x06 then some ⟨1, 1, 1, 1, 1, 15, 1⟩                             -- MUL MULH MULHU
  else if op = 0x07 then some ⟨1, 1, 1, 2, 1, 7, 1⟩                              -- MAD
  else if op ≤ 0x0B then some ⟨1, 1, 1, 1, 255, 15, 1⟩                           -- AND OR XOR ANDN
  else if op = 0x0C then some ⟨1, 1, 0, 1, 255, 15, 1⟩                           -- NOT
  else if op ≤ 0x10 then some ⟨1, 1, 1, 1, 1, 15, 1⟩                             -- SHL SHR SRA ROTL
  else if op ≤ 0x14 then some ⟨1, 1, 1, 1, 0x41, 15, 1⟩                          -- MIN MAX MINU MAXU
  else if op ≤ 0x16 then some ⟨1, 1, 0, 1, 0x41, 15, 1⟩                          -- ABS NEG
  else if op ≤ 0x18 then some ⟨1, 1, 0, 1, 1, 15, 1⟩                             -- CLZ POPC
  else if op ≤ 0x1E then some ⟨1, 1, 1, 1, 0x41, 15, 1⟩                          -- CMP*
  else if op ≤ 0x20 then some ⟨1, 1, 1, 2, 255, 7, 1⟩                            -- SEL VSEL
  else if op ≤ 0x23 then some ⟨1, 1, 0, 1, 255, 1, 1⟩                            -- VALID SETV CLRV
  else if op = 0x24 then some ⟨1, 1, 0, 1, 255, 15, 1⟩                           -- BCST
  else if op ≤ 0x27 then some ⟨1, 1, 1, 1, 255, 15, 1⟩                           -- PERM SLIDEUP SLIDEDN
  else if op ≤ 0x2A then some ⟨1, 1, 0, 1, 1, 15, 2⟩                             -- RSUM RMAX RMIN
  else if op ≤ 0x2C then some ⟨1, 1, 1, 1, 255, 15, 1⟩                           -- LANEX LANEI
  else if op ≤ 0x2E then some ⟨0, 1, 0, 1, 1, 0xB, 0⟩                            -- STEER TRAPIF
  else if op = 0x2F then some ⟨1, 1, 0, 1, 255, 15, 1⟩                           -- MOVQ
  else if op ≤ 0x32 then some ⟨1, 1, 1, 1, 0xE, 15, 3⟩                           -- FADD FSUB FMUL
  else if op ≤ 0x35 then some ⟨1, 1, 1, 2, 0xE, 7, 3⟩                            -- FMA FMS FNMA
  else if op ≤ 0x37 then some ⟨1, 1, 1, 1, 0xE, 15, 3⟩                           -- FMIN FMAX
  else if op ≤ 0x39 then some ⟨1, 1, 0, 1, 0xE, 15, 3⟩                           -- FABS FNEG
  else if op ≤ 0x3D then some ⟨1, 1, 1, 1, 0xE, 15, 3⟩                           -- FCMP*
  else if op = 0x3E then some ⟨1, 1, 0, 1, 0xE, 15, 3⟩                           -- FCLASS
  else if op ≤ 0x41 then some ⟨1, 1, 0, 1, 0xE, 15, 6⟩                           -- FRCP FRSQ FSQRT
  else if op = 0x42 then some ⟨1, 1, 1, 1, 0xE, 15, 10⟩                          -- FDIV
  else if op ≤ 0x44 then some ⟨1, 1, 0, 1, 0xE, 15, 8⟩                           -- FEXP2 FLOG2
  else if op = 0x45 then some ⟨1, 1, 0, 1, 2, 15, 8⟩                             -- FRSUM
  else if op ≤ 0x47 then some ⟨1, 1, 0, 1, 2, 15, 4⟩                             -- FRMAX FRMIN
  else if op = 0x48 then some ⟨1, 1, 1, 1, 0x7C, 15, 4⟩                          -- DOT
  else if op = 0x49 then some ⟨1, 1, 1, 2, 0x7C, 7, 4⟩                           -- DOTA
  else if op = 0x4A then some ⟨1, 1, 1, 1, 0xE, 15, 3⟩                           -- FSCALE
  else if op = 0x4B then some ⟨1, 1, 0, 1, 0xE, 15, 3⟩                           -- FROUND
  else if op ≤ 0x4D then some ⟨1, 1, 0, 1, 2, 15, 2⟩                             -- FCVTI ICVTF
  else if op ≤ 0x4F then some ⟨1, 1, 1, 1, 0xE, 15, 3⟩                           -- FCOPYS FMAXM
  else if op ≤ 0x51 then some ⟨1, 1, 2, 3, 0x7F, 7, 2⟩                           -- CVT CVTS
  else if op = 0x52 then some ⟨1, 1, 1, 3, 0x3C, 7, 2⟩                           -- PACK
  else if op ≤ 0x54 then some ⟨1, 1, 2, 3, 0xE, 7, 2⟩                            -- UNPKL UNPKH
  else if op ≤ 0x56 then some ⟨1, 1, 1, 3, 0x80, 7, 2⟩                           -- QMX QBX
  else if op = 0x57 then some ⟨1, 1, 1, 3, 0xE, 7, 2⟩                            -- DQ
  else if op = 0x58 then some ⟨1, 1, 1, 3, 1, 7, 2⟩                              -- SCLX
  else if op ≤ 0x5A then some ⟨1, 1, 2, 3, 0x7F, 7, 2⟩                           -- NARW WIDN
  else if op < 0x60 then none
  else if op = 0x60 then some ⟨1, 1, 1, 1, 255, 15, 3⟩                           -- LD
  else if op = 0x61 then some ⟨0, 1, 1, 2, 255, 7, 0⟩                            -- ST
  else if op = 0x62 then some ⟨1, 1, 1, 1, 255, 15, 2⟩                           -- LDC
  else if op = 0x63 then some ⟨1, 2, 0, 1, 255, 15, 1⟩                           -- SRD
  else if op = 0x64 then some ⟨0, 2, 1, 1, 255, 15, 0⟩                           -- SWR
  else if op = 0x65 then some ⟨0, 2, 1, 1, 1, 1, 0⟩                              -- SSKIP
  else if op = 0x66 then some ⟨1, 2, 0, 1, 1, 3, 1⟩                              -- SCOUNT
  else if op = 0x67 then some ⟨0, 1, 1, 1, 0xF, 0xB, 0⟩                          -- AREDF
  else if op = 0x68 then some ⟨0, 1, 1, 1, 1, 0xB, 0⟩                            -- AREDI
  else if op < 0x70 then none
  else if op = 0x70 then some ⟨2, 1, 0, 1, 255, 1, 1⟩                            -- WLD
  else if op = 0x71 then some ⟨0, 0, 0, 0, 1, 1, 0⟩                              -- WSEL
  else if op = 0x72 then some ⟨1, 1, 1, 1, 0xFC, 1, 4⟩                           -- SMAC
  else if op = 0x73 then some ⟨1, 1, 0, 1, 255, 1, 1⟩                            -- SDRN
  else if op = 0x74 then some ⟨0, 1, 0, 1, 0xFC, 3, 0⟩                           -- FEED
  else if op = 0x75 then some ⟨1, 3, 0, 1, 1, 1, 1⟩                              -- RDCTL
  else if op = 0x76 then some ⟨0, 3, 1, 1, 1, 9, 0⟩                              -- WRCTL
  else none

/-- When a condition holds, the fault (field, reason). -/
abbrev faultIf (c : Bool) (field reason : Nat) : List (Nat × Nat) := if c then [(field, reason)] else []

/-- Elements in a lane of a type (R45). -/
def laneCount (ty : Nat) : Nat := if ty ≤ 1 then 1 else if ty ≤ 3 then 2 else if ty ≤ 6 then 4 else 8

/-- Element width W(ty) in bits (R180). -/
def tyWidth (ty : Nat) : Nat := 32 / laneCount ty

/-- Rules that single opcodes add to R72 (R103, R109, R112, R114, R124-R131, R137, R145, R27). -/
def elemExtra (op : Nat) (w : EWord) : List (Nat × Nat) :=
  let d := w.d.toNat
  let a := w.a.toNat
  let b := w.b.toNat
  let c := w.c.toNat
  let ty := w.ty.toNat
  let scal := decide (44 ≤ d ∧ d ≤ 55)
  if op = 0x01 then faultIf scal 2 2 ++ faultIf (decide ((44 ≤ a ∧ a ≤ 56) ∨ a = 58)) 3 2
  else if op = 0x24 then faultIf scal 2 2
  else if op = 0x2F then faultIf (!scal) 2 2
  else if op = 0x2C then faultIf (decide (39 < d)) 2 2
  else if op = 0x50 ∨ op = 0x51 then
    faultIf (decide (6 < b ∨ b = ty)) 4 2 ++ faultIf (decide (c ≠ 0)) 5 2
  else if op = 0x52 then
    faultIf (decide (if ty ≤ 3 then 1 < c else 3 < c)) 5 2
  else if op = 0x53 ∨ op = 0x54 then
    faultIf (decide (¬(((b = 2 ∨ b = 3) ∧ ty = 1) ∨ (4 ≤ b ∧ b ≤ 6 ∧ (ty = 2 ∨ ty = 3))))) 4 2
      ++ faultIf (decide (c ≠ 0)) 5 2
  else if op = 0x55 ∨ op = 0x56 ∨ op = 0x58 then
    faultIf (decide ((c / 2) % 4 ≠ 0 ∧ (c / 2) % 4 ≠ 3 ∧ b ≠ 59)) 4 2
      ++ faultIf (decide ((c / 2) % 4 = 3 ∨ 8 ≤ c)) 5 2
  else if op = 0x57 then
    faultIf (decide ((ty ≠ 1 ∧ (c / 8) % 2 = 1) ∨ 32 ≤ c)) 5 2
  else if op = 0x59 then
    faultIf (decide (6 < b ∨ ¬(laneCount ty = 2 * laneCount b ∨ laneCount ty = 4 * laneCount b))) 4 2
      ++ faultIf (decide (1 < c)) 5 2
  else if op = 0x5A then
    faultIf (decide (6 < b ∨ ¬(laneCount b = 2 * laneCount ty ∨ laneCount b = 4 * laneCount ty))) 4 2
      ++ faultIf (decide (8 ≤ c ∨ laneCount b / laneCount ty ≤ (c / 2) % 4)) 5 2
  else if op = 0x65 then faultIf (decide (¬(b = 59 ∨ b = 56 ∨ (60 ≤ b ∧ b ≤ 63)))) 4 2
  else if op = 0x72 then faultIf (decide ((w.fwd.toNat / 4) % 2 = 1)) 6 2
  else if op = 0x75 then faultIf (decide (5 < a)) 3 5
  else if op = 0x76 then faultIf (decide (5 < a ∨ a = 1 ∨ a = 2 ∨ a = 4 ∨ a = 5)) 3 5
  else []

/-- Every per-word fault of an element word (R70-R73, R102); reason 0x01 stands for a reserved opcode at field 1. -/
def elemFaults (op : Nat) (w : EWord) : List (Nat × Nat) :=
  match elemForm op with
  | none => [(1, 1)]
  | some f =>
    let d := w.d.toNat
    let a := w.a.toNat
    let b := w.b.toNat
    let c := w.c.toNat
    if op = 0 then
      faultIf (decide (d ≠ 0)) 2 3 ++ faultIf (decide (a ≠ 0)) 3 3 ++ faultIf (decide (b ≠ 0)) 4 3
        ++ faultIf (decide (c ≠ 0)) 5 3 ++ faultIf (decide (w.fwd ≠ 0)) 6 3 ++ faultIf (decide (w.vm ≠ 0)) 7 3
        ++ faultIf (decide (w.ty ≠ 0)) 8 3
    else
      (if f.d = 0 then faultIf (decide (d ≠ 0)) 2 3 ++ faultIf (decide (w.fwd ≠ 0)) 6 2
        else if f.d = 2 then faultIf (decide (15 < d)) 2 2
        else faultIf (decide ((56 ≤ d ∧ d ≤ 58) ∨ 60 ≤ d)) 2 2)
      ++ (if f.a = 0 then faultIf (decide (a ≠ 0)) 3 3 else if f.a = 2 then faultIf (decide (7 < a)) 3 2 else [])
      ++ (if f.b = 0 then faultIf (decide (b ≠ 0)) 4 3 else if f.b = 2 then faultIf (decide (7 < b)) 4 2 else [])
      ++ (if f.c = 0 then faultIf (decide (c ≠ 0)) 5 3
          else if f.c = 1 then faultIf (decide (c ≠ 0 ∧ w.vm ≠ 3)) 5 3 else [])
      ++ (if w.vm = 3 ∧ 2 ≤ f.c then [(7, 4)] else faultIf (decide ((f.vms / 2 ^ w.vm.toNat) % 2 = 0)) 7 2)
      ++ faultIf (decide ((f.tys / 2 ^ w.ty.toNat) % 2 = 0)) 8 2
      ++ elemExtra op w

/-- Which x register fields a sequencer opcode uses, and the bits of mod and imm that may be nonzero (R75, R153). -/
structure SeqForm where
  xd : Bool
  xa : Bool
  xb : Bool
  mods : Nat
  imms : Nat
  deriving DecidableEq, Repr

/-- The form of a tile macro word (R176, R181, R191): x fields from its table row, all of mod and imm subject to macroFaults. -/
def macroForm (op : Nat) (w : SWord) : SeqForm :=
  let mx := w.imm.toNat / 2 ^ 21
  let addr := op = 0x40 ∨ op = 0x41 ∨ op = 0x42 ∨ op = 0x43 ∨ op = 0x46 ∨ op = 0x47
  let xa := addr ∨ op = 0x4D ∨ op = 0x4F ∨ (op = 0x4E ∧ mx % 2 = 1)
  let md := if op = 0x41 ∨ op = 0x42 ∨ op = 0x43 ∨ op = 0x47 then 0 else 0x1C0
  let ma := if op = 0x40 ∨ op = 0x42 ∨ op = 0x43 ∨ op = 0x4D then 0 else 0x038
  let mb := if op = 0x44 ∨ op = 0x45 ∨ op = 0x47 ∨ op = 0x4C ∨ (op = 0x4F ∧ mx % 2 = 1) then 0x007 else 0
  let mxs :=
    if op = 0x42 then 0x63F else if op = 0x43 then 0x0FF else if op = 0x44 then 1 else if op = 0x45 then 0xF
    else if op = 0x49 then 7 else if op = 0x4A then 0xF else if op = 0x4B then 3 else if op = 0x4C then 0xF
    else if op = 0x4E ∨ op = 0x4F then 1 else 0
  let s := if op = 0x49 ∨ op = 0x4A ∨ op = 0x4F then 8 else 0
  ⟨decide (op = 0x42 ∧ mx / 2 ^ 10 = 1), decide xa, decide addr, md + ma + mb, mxs * 2 ^ 21 + 0x1FFFF7 + s⟩

/-- The form of every sequencer opcode (R74, R154-R175, R330, R360); none for a reserved opcode. -/
def seqForm (op : Nat) (w : SWord) : Option SeqForm :=
  let i := w.mod.toNat % 2 = 1
  let all := 0xFFFFFFFF
  if op = 0x00 then some ⟨true, false, false, 1, all⟩
  else if op = 0x01 then some ⟨true, true, false, 1, all⟩
  else if op ≤ 0x0A then some (if i then ⟨true, true, false, 1, all⟩ else ⟨true, true, true, 1, 0⟩)
  else if op ≤ 0x0D then some (if i then ⟨true, true, false, 9, all⟩ else ⟨true, true, true, 9, 0⟩)
  else if op = 0x0E then some ⟨true, true, true, 0, 0x1F⟩
  else if op = 0x0F then some (if i then ⟨true, true, false, 15, all⟩ else ⟨true, true, true, 15, 0⟩)
  else if op = 0x10 then some (if i then ⟨true, true, false, 7, all⟩ else ⟨true, true, true, 7, 0⟩)
  else if op < 0x20 then none
  else if op = 0x20 then some (if i then ⟨false, false, false, 1, all⟩ else ⟨false, true, false, 1, 0x3FF⟩)
  else if op = 0x21 then some (if i then ⟨true, false, false, 7, all⟩ else ⟨true, true, false, 7, 0⟩)
  else if op = 0x22 then some ⟨false, true, false, 0, 0x3F⟩
  else if op = 0x23 then some ⟨false, false, false, 0, 0⟩
  else if op = 0x24 then some ⟨false, false, false, 0, all⟩
  else if op = 0x25 ∨ op = 0x26 then some ⟨false, false, false, 0, 0xFFFF⟩
  else if op < 0x30 then none
  else if op = 0x30 then some ⟨false, false, false, 0, 0x3F⟩
  else if op = 0x31 then some ⟨false, false, false, 0, 0⟩
  else if op = 0x32 then some ⟨false, false, false, 0, 0xFFFF00FF⟩
  else if op = 0x33 then some (if i then ⟨false, false, false, 1, 0xFFFF00FF⟩ else ⟨false, true, false, 1, 0xFF⟩)
  else if op < 0x40 then none
  else if op ≤ 0x4F then some (macroForm op w)
  else if op < 0x60 then none
  else if op = 0x60 then some (if i then ⟨false, false, false, 15, all⟩ else ⟨false, true, false, 15, 0⟩)
  else if op = 0x61 then some ⟨true, false, false, 14, 0⟩
  else if op = 0x62 then some ⟨false, false, false, 0, 0x1F⟩
  else if op = 0x63 then some ⟨false, true, false, 15, all⟩
  else if op = 0x64 then some ⟨false, true, false, 0x7F, 0⟩
  else if op = 0x65 then some ⟨true, false, false, 0x3F, 0⟩
  else if op < 0x70 then none
  else if op = 0x70 ∨ op = 0x73 then some ⟨false, true, true, 7, 0⟩
  else if op = 0x71 ∨ op = 0x72 then some ⟨true, true, true, 7, 0⟩
  else if op = 0x74 then some ⟨false, true, true, 0x3F, if w.mod.toNat / 8 = 0 then 0x1FFF else 0⟩
  else if op = 0x75 then some ⟨false, true, true, 15, 0xFFF⟩
  else if op = 0x76 then some ⟨true, false, false, 7, 0⟩
  else if op = 0x77 then some ⟨false, false, false, 0, 0xFF⟩
  else if op = 0x78 then some ⟨false, false, false, 1, 0xFF⟩
  else if op < 0x80 then none
  else if op = 0x80 ∨ op = 0x81 then some ⟨false, true, true, 0, 0⟩
  else if op = 0x82 then some ⟨true, true, true, 0, 15⟩
  else if op = 0x83 then some ⟨false, true, false, 0, 0⟩
  else if op = 0x84 then some ⟨true, true, true, 0, 0⟩
  else if op = 0x85 then some ⟨false, false, false, 0, 7⟩
  else if op = 0x86 then some ⟨false, true, false, 0, 0x3FFFF⟩
  else if op = 0x87 then some ⟨false, true, false, 0x1FF, 0x1FFF⟩
  else if op = 0x88 then some ⟨true, true, false, 0, 3⟩
  else if op ≤ 0x8B then some ⟨true, true, true, 6, all⟩
  else if op = 0x90 then some ⟨true, false, false, 0, 0x1F⟩
  else if op = 0x91 then some ⟨false, true, false, 0, 0x1F⟩
  else none

/-- Does semiring code r admit element type ty as an operand (R63)? -/
def ringAdmits (r ty : Nat) : Bool :=
  if r = 0 then decide (2 ≤ ty ∧ ty ≤ 7) else if r ≤ 3 then decide (2 ≤ ty ∧ ty ≤ 5) else decide (r = 4 ∧ ty = 6)

/-- The value rules of tile macro words beyond the masks (R181, R191, R195, R179). -/
def macroFaults (op : Nat) (w : SWord) : List (Nat × Nat) :=
  let imm := w.imm.toNat
  let ty := imm % 8
  let mx := imm / 2 ^ 21
  let md := w.mod.toNat / 64
  let ma := (w.mod.toNat / 8) % 8
  let mb := w.mod.toNat % 8
  let tys :=
    if op = 0x42 ∨ op = 0x43 then 1 else if op = 0x44 then 0xFC else if op = 0x45 then 0x7C
    else if op = 0x48 ∨ op = 0x49 then 0x7F else if op = 0x4A then 0x80 else if op = 0x4B then 3
    else if op = 0x4C then 0xF else if op = 0x4E ∨ op = 0x4F then 0xE else 0xFF
  let fp4 :=
    if ty = 7 then
      if op = 0x40 ∨ op = 0x46 ∨ op = 0x4A ∨ op = 0x4D then decide (3 < md)
      else if op = 0x41 ∨ op = 0x47 then decide (3 < ma)
      else if op = 0x44 then decide (3 < ma ∨ 3 < mb) else false
    else decide (op = 0x49 ∧ mx % 8 = 7 ∧ 3 < ma)
  faultIf fp4 5 0xE
    ++ faultIf (decide ((imm / 16) % 256 = 0)) 6 0xE
    ++ faultIf (decide ((imm / 4096) % 2 = 0 ∧ (imm / 8192) % 256 ≠ 0)) 6 0xE
    ++ faultIf (decide ((tys / 2 ^ ty) % 2 = 0)) 6 0xE
    ++ faultIf (decide (op = 0x43 ∧ 15 < mx % 16 + (mx / 16) % 16)) 6 0xE
    ++ faultIf (decide (op = 0x45 ∧ ringAdmits (mx / 2 % 8) ty = false)) 6 0xC
    ++ faultIf (decide (op = 0x45 ∧ mx / 2 % 8 = 0)) 6 0xC
    ++ faultIf (decide (op = 0x49 ∧ mx % 8 = ty)) 6 0xE
    ++ faultIf (decide (op = 0x4A ∧ ¬(1 ≤ mx % 8 ∧ mx % 8 ≤ 3))) 6 0xE
    ++ faultIf (decide (op = 0x4B ∧ mx = 3)) 6 0xE
    ++ faultIf (decide (op = 0x4C ∧ 5 < mx % 8)) 6 0xE

/-- The value rules of the other sequencer words beyond the masks (R153-R175, R330, R360). -/
def seqExtra (op : Nat) (w : SWord) : List (Nat × Nat) :=
  let imm := w.imm.toNat
  let m := w.mod.toNat
  if op ≤ 0x01 then faultIf (decide (m ≠ 1)) 5 0xE
  else if op = 0x20 then faultIf (decide (imm % 1024 = 0)) 6 0xE
  else if op = 0x32 then faultIf (decide (imm / 65536 = 0)) 6 0xE
  else if 0x40 ≤ op ∧ op ≤ 0x4F then macroFaults op w
  else if op = 0x64 then faultIf (decide (64 ≤ m ∧ (m / 8) % 8 ≠ 0)) 5 0xE
  else if op = 0x74 then faultIf (decide ((m / 8) % 4 = 3)) 5 0xE
  else if op = 0x77 then faultIf (decide (imm = 0)) 6 0xE
  else if op = 0x82 then faultIf (decide (imm = 0 ∨ 12 < imm)) 6 0xE
  else if op = 0x85 then faultIf (decide (imm = 0)) 6 0xE
  else if op = 0x86 then
    faultIf (decide (128 < imm % 128 + (imm / 128) % 128 + 1 ∨ (imm / 2 ^ 17 = 1 ∧ (imm / 2 ^ 14) % 8 ≠ 0))) 6 0xE
  else if op = 0x88 then faultIf (decide (imm = 3)) 6 0xE
  else if 0x89 ≤ op ∧ op ≤ 0x8B then faultIf (decide (m / 2 < 2)) 5 0xE
  else if op = 0x90 then faultIf (decide (9 < imm)) 6 0xE
  else if op = 0x91 then faultIf (decide (imm ≠ 5)) 6 0xE
  else []

/-- Every per-word fault of a sequencer word (R75, R153, R181); reason 0x0D for a reserved opcode. -/
def seqFaults (op : Nat) (w : SWord) : List (Nat × Nat) :=
  match seqForm op w with
  | none => [(1, 0xD)]
  | some f =>
    faultIf (!f.xd && decide (w.xd ≠ 0)) 2 0xE ++ faultIf (!f.xa && decide (w.xa ≠ 0)) 3 0xE
      ++ faultIf (!f.xb && decide (w.xb ≠ 0)) 4 0xE
      ++ faultIf (decide (w.mod.toNat &&& f.mods ≠ w.mod.toNat)) 5 0xE
      ++ faultIf (decide (w.imm.toNat &&& f.imms ≠ w.imm.toNat)) 6 0xE
      ++ seqExtra op w

/-- Which g register fields a graph opcode uses, and the bits of mod and imm that may be nonzero (R255, R376). -/
def graphForm (op : Nat) (w : GWord) : Option SeqForm :=
  let m := w.mod.toNat
  let i := m % 2 = 1
  let all := 0xFFFFFFFF
  if op = 0x00 then some ⟨false, false, false, 0, 0xFFFF⟩
  else if op = 0x01 then some ⟨true, true, false, 0, all⟩
  else if op = 0x02 then some ⟨true, true, true, 0, all⟩
  else if op = 0x03 then some ⟨false, false, false, 0, 0⟩
  else if op = 0x04 then some ⟨true, false, false, 0, 0⟩
  else if op = 0x05 then
    some (if i then ⟨true, true, false, 1, 0⟩
      else if (m / 2) % 2 = 1 then ⟨false, true, false, 2, 0xFF⟩ else ⟨false, false, false, 0, 0xFFFF00FF⟩)
  else if op = 0x06 then some ⟨false, false, false, 0, 0xFFFF00FF⟩
  else if op = 0x07 then none
  else if op = 0x08 then some ⟨true, true, false, 0, all⟩
  else if op = 0x09 then some ⟨false, true, true, 0, all⟩
  else if op = 0x0A then some ⟨true, false, false, 1, all⟩
  else if op ≤ 0x0D then some (if i then ⟨true, true, false, 1, all⟩ else ⟨true, true, true, 1, 0⟩)
  else if op = 0x0E then some (if i then ⟨true, true, false, 15, all⟩ else ⟨true, true, true, 15, 0⟩)
  else if op = 0x0F then some ⟨true, true, false, 3, all⟩
  else if op = 0x10 then some ⟨false, false, false, 0, all⟩
  else if op = 0x11 then some ⟨false, true, false, 1, all⟩
  else if op = 0x12 then some (if i then ⟨false, false, false, 1, all⟩ else ⟨false, true, false, 1, 0⟩)
  else if op = 0x13 then some ⟨false, false, false, 0, 0⟩
  else if op = 0x14 then some ⟨true, false, false, 0, 0xFF⟩
  else if op < 0x18 then none
  else if op = 0x18 then some ⟨true, false, false, 1, 0⟩
  else if op = 0x19 then some ⟨false, false, false, 0, 0xFFFF⟩
  else if op = 0x1A then some ⟨true, false, false, 0, 0⟩
  else if op = 0x1B then some ⟨true, true, true, 0, 0⟩
  else if op = 0x1C then some ⟨false, true, false, 0, 0⟩
  else if op = 0x1D then some ⟨true, true, false, 0, all⟩
  else if op < 0x20 then none
  else if op = 0x20 then some ⟨true, true, false, 1, all⟩
  else if op = 0x21 then some ⟨true, true, false, 1, 0⟩
  else if op = 0x22 then some ⟨true, true, false, 0, 0⟩
  else none

/-- Every per-word fault of a graph word (R76, R255, R265, R376); reason 0x20 for a reserved opcode. -/
def graphFaults (op : Nat) (w : GWord) : List (Nat × Nat) :=
  match graphForm op w with
  | none => [(1, 0x20)]
  | some f =>
    faultIf (!f.xd && decide (w.gd ≠ 0)) 2 0x21 ++ faultIf (!f.xa && decide (w.ga ≠ 0)) 3 0x21
      ++ faultIf (!f.xb && decide (w.gb ≠ 0)) 4 0x21
      ++ faultIf (decide (w.mod.toNat &&& f.mods ≠ w.mod.toNat)) 5 0x21
      ++ faultIf (decide (w.imm.toNat &&& f.imms ≠ w.imm.toNat)) 6 0x21
      ++ faultIf (decide (op = 0x0E ∧ 6 ≤ (w.mod.toNat / 2) % 8)) 5 0x21
      ++ faultIf (decide (op = 0x06 ∧ w.imm.toNat / 65536 = 0)) 6 0x21
      ++ faultIf (decide (op = 0x1A ∧ 7 < w.gd.toNat)) 2 0x21

/-- The fault a refusal record names: lowest field, then lowest reason (R79). -/
def firstFault : List (Nat × Nat) → Option (Nat × Nat)
  | [] => none
  | f :: fs =>
    match firstFault fs with
    | none => some f
    | some g => if f.1 < g.1 ∨ (f.1 = g.1 ∧ f.2 ≤ g.2) then some f else some g

end Sys2Proof.Machine
end

