-- ==== Sys2Proof/WellFormed.lean ====
section
/-! DEFINITION. Which instructions are well formed: every field of a word as its entry admits it (03 R72, R73, R75, R76), every
operand of a command, register access or event naming a unit the machine has. -/
namespace Sys2Proof
open Machine

/-- The function numbers: PF0 and VF1 to VF16 (R466). -/
abbrev fnOk (n : Nat) : Bool := decide (n ≤ 16)

/-- A register access of R467: a known function, 4 or 8 bytes, naturally aligned, inside BAR0, the value fitting the size. -/
def RegWr.ok (w : RegWr) : Bool :=
  fnOk w.fn && (decide (w.size = 8) || (decide (w.size = 4) && decide (w.val.toNat < 2 ^ 32)))
    && decide (w.off % w.size = 0) && decide (w.off < if w.fn = 0 then 0x200000 else 0x10000)

/-- The type byte of a packet (R272). -/
def HostPacket.kind (p : HostPacket) : Nat := bitsOf p.bits.toNat 23 16

/-- A packet in a channel that exists (R471). -/
def HostPacket.ok (p : HostPacket) : Bool := decide (p.part < 16) && decide (p.chan < 64)

/-- A page and one of its eight cores, ports or engine slots. -/
abbrev unitOk (page n : Nat) : Bool := decide (page < 160) && decide (n < 8)

/-- Site numbers in range (R289, R390). -/
def HwSite.ok : HwSite → Bool
  | .hbm d pa => decide (d < 4) && decide (pa < 2 ^ 37)
  | .l2 d pa => decide (d < 4) && decide (pa < 2 ^ 37)
  | .scratch p c o => unitOk p c && decide (o < 2 ^ 19)
  | .version d pa => decide (d < 4) && decide (pa < 2 ^ 37)

/-- Operands of an event in range. -/
def Ev.ok : Ev → Bool
  | .vfFlr part => decide (part < 16)
  | .pf0Flr => true
  | .coldReset => true
  | .invalidationAck die part stage => decide (die < 4) && decide (part < 16) && (decide (stage = 1) || decide (stage = 2))
  | .migrationRound die n => decide (die < 4) && decide (n < 4)
  | .migrationFinalRound die n => decide (die < 4) && decide (n < 4)
  | .fwHeartbeat => true
  | .fwSwitchDeadline => true
  | .intervalDecide tid => decide (tid < 2 ^ 32)
  | .kernelEnd tid rp => decide (tid < 2 ^ 32) && decide (rp < 16)
  | .macroElement page core => unitOk page core
  | .engineElement page slot => unitOk page slot
  | .collContribution page slot => unitOk page slot
  | .collTimeout page slot => unitOk page slot
  | .portFetch page port => unitOk page port
  | .portWriteout page port => unitOk page port
  | .drainRecordWrite page => decide (page < 160)
  | .weightPortBeat page => decide (page < 160)
  | .reductionSend page core => unitOk page core
  | .steerArrival tid cond => decide (tid < 2 ^ 32) && decide (cond < 2)
  | .eventGrant part ev => decide (part < 16) && decide (ev < 256)
  | .localBoundary tid => decide (tid < 2 ^ 32)
  | .groupBoundary part bg => decide (part < 16) && decide (bg < 64)
  | .trapFreeze tid => decide (tid < 2 ^ 32)
  | .faultDeadline tid => decide (tid < 2 ^ 32)
  | .taskSelect die part => decide (die < 4) && decide (part < 16)
  | .taskAging tid => decide (tid < 2 ^ 32)
  | .deficitCharge tid => decide (tid < 2 ^ 32)
  | .priorityPreempt tid => decide (tid < 2 ^ 32)
  | .leaseResident tid => decide (tid < 2 ^ 32)
  | .imageCheck tid => decide (tid < 2 ^ 32)
  | .regionPlace tid => decide (tid < 2 ^ 32)
  | .configLoad tid => decide (tid < 2 ^ 32)
  | .taskEnd tid => decide (tid < 2 ^ 32)
  | .preemptRequest tid cause => decide (tid < 2 ^ 32) && decide (cause < 16)
  | .cooperativeSave tid => decide (tid < 2 ^ 32)
  | .forcedSave tid => decide (tid < 2 ^ 32)
  | .sliceEndRestart tid => decide (tid < 2 ^ 32)
  | .taskRestore tid => decide (tid < 2 ^ 32)
  | .l2Fill die slice => decide (die < 4) && decide (slice < 10)
  | .expanderDeliver die slice => decide (die < 4) && decide (slice < 10)
  | .linkFail link lost => decide (link < 64) && lost.all (fun d => decide (d < 1024))
  | .domainLinkTimeout dev => decide (dev < 1024)
  | .flitReceive link _ => decide (link < 64)
  | .linkKeyUpdate link => decide (link < 64)
  | .ethernetDatagram port _ => decide (port < 8)
  | .patrolScrub t => t.ok
  | .clockChange die _ => decide (die < 4)
  | .remoteWalkComplete die _ => decide (die < 4)
  | .dataReturn u => match u with | .page p => decide (p < 160) | .graph d k => decide (d < 4) && decide (k < 64)
  | .routeComesBack dev => decide (dev < 1024)
  | .softError t _ => t.ok
  | .debugPortRead t => t.ok
  | .pcieSectorEntry fn _ _ => fnOk fn

/-- Every check of an instruction's form. -/
def Instr.wf : Instr → Bool
  | .eNop w => (elemFaults 0x00 w).isEmpty
  | .eMov w => (elemFaults 0x01 w).isEmpty
  | .eAdd w => (elemFaults 0x02 w).isEmpty
  | .eSub w => (elemFaults 0x03 w).isEmpty
  | .eMul w => (elemFaults 0x04 w).isEmpty
  | .eMulh w => (elemFaults 0x05 w).isEmpty
  | .eMulhu w => (elemFaults 0x06 w).isEmpty
  | .eMad w => (elemFaults 0x07 w).isEmpty
  | .eAnd w => (elemFaults 0x08 w).isEmpty
  | .eOr w => (elemFaults 0x09 w).isEmpty
  | .eXor w => (elemFaults 0x0A w).isEmpty
  | .eAndn w => (elemFaults 0x0B w).isEmpty
  | .eNot w => (elemFaults 0x0C w).isEmpty
  | .eShl w => (elemFaults 0x0D w).isEmpty
  | .eShr w => (elemFaults 0x0E w).isEmpty
  | .eSra w => (elemFaults 0x0F w).isEmpty
  | .eRotl w => (elemFaults 0x10 w).isEmpty
  | .eMin w => (elemFaults 0x11 w).isEmpty
  | .eMax w => (elemFaults 0x12 w).isEmpty
  | .eMinu w => (elemFaults 0x13 w).isEmpty
  | .eMaxu w => (elemFaults 0x14 w).isEmpty
  | .eAbs w => (elemFaults 0x15 w).isEmpty
  | .eNeg w => (elemFaults 0x16 w).isEmpty
  | .eClz w => (elemFaults 0x17 w).isEmpty
  | .ePopc w => (elemFaults 0x18 w).isEmpty
  | .eCmpeq w => (elemFaults 0x19 w).isEmpty
  | .eCmpne w => (elemFaults 0x1A w).isEmpty
  | .eCmplt w => (elemFaults 0x1B w).isEmpty
  | .eCmple w => (elemFaults 0x1C w).isEmpty
  | .eCmpltu w => (elemFaults 0x1D w).isEmpty
  | .eCmpleu w => (elemFaults 0x1E w).isEmpty
  | .eSel w => (elemFaults 0x1F w).isEmpty
  | .eVsel w => (elemFaults 0x20 w).isEmpty
  | .eValid w => (elemFaults 0x21 w).isEmpty
  | .eSetv w => (elemFaults 0x22 w).isEmpty
  | .eClrv w => (elemFaults 0x23 w).isEmpty
  | .eBcst w => (elemFaults 0x24 w).isEmpty
  | .ePerm w => (elemFaults 0x25 w).isEmpty
  | .eSlideup w => (elemFaults 0x26 w).isEmpty
  | .eSlidedn w => (elemFaults 0x27 w).isEmpty
  | .eRsum w => (elemFaults 0x28 w).isEmpty
  | .eRmax w => (elemFaults 0x29 w).isEmpty
  | .eRmin w => (elemFaults 0x2A w).isEmpty
  | .eLanex w => (elemFaults 0x2B w).isEmpty
  | .eLanei w => (elemFaults 0x2C w).isEmpty
  | .eSteer w => (elemFaults 0x2D w).isEmpty
  | .eTrapif w => (elemFaults 0x2E w).isEmpty
  | .eMovq w => (elemFaults 0x2F w).isEmpty
  | .eFadd w => (elemFaults 0x30 w).isEmpty
  | .eFsub w => (elemFaults 0x31 w).isEmpty
  | .eFmul w => (elemFaults 0x32 w).isEmpty
  | .eFma w => (elemFaults 0x33 w).isEmpty
  | .eFms w => (elemFaults 0x34 w).isEmpty
  | .eFnma w => (elemFaults 0x35 w).isEmpty
  | .eFmin w => (elemFaults 0x36 w).isEmpty
  | .eFmax w => (elemFaults 0x37 w).isEmpty
  | .eFmaxm w => (elemFaults 0x4F w).isEmpty
  | .eFabs w => (elemFaults 0x38 w).isEmpty
  | .eFneg w => (elemFaults 0x39 w).isEmpty
  | .eFcopys w => (elemFaults 0x4E w).isEmpty
  | .eFscale w => (elemFaults 0x4A w).isEmpty
  | .eFround w => (elemFaults 0x4B w).isEmpty
  | .eFcvti w => (elemFaults 0x4C w).isEmpty
  | .eIcvtf w => (elemFaults 0x4D w).isEmpty
  | .eFcmpeq w => (elemFaults 0x3A w).isEmpty
  | .eFcmplt w => (elemFaults 0x3B w).isEmpty
  | .eFcmple w => (elemFaults 0x3C w).isEmpty
  | .eFcmpun w => (elemFaults 0x3D w).isEmpty
  | .eFclass w => (elemFaults 0x3E w).isEmpty
  | .eFrcp w => (elemFaults 0x3F w).isEmpty
  | .eFrsq w => (elemFaults 0x40 w).isEmpty
  | .eFsqrt w => (elemFaults 0x41 w).isEmpty
  | .eFdiv w => (elemFaults 0x42 w).isEmpty
  | .eFexp2 w => (elemFaults 0x43 w).isEmpty
  | .eFlog2 w => (elemFaults 0x44 w).isEmpty
  | .eFrsum w => (elemFaults 0x45 w).isEmpty
  | .eFrmax w => (elemFaults 0x46 w).isEmpty
  | .eFrmin w => (elemFaults 0x47 w).isEmpty
  | .eDot w => (elemFaults 0x48 w).isEmpty
  | .eDota w => (elemFaults 0x49 w).isEmpty
  | .eCvt w => (elemFaults 0x50 w).isEmpty
  | .eCvts w => (elemFaults 0x51 w).isEmpty
  | .ePack w => (elemFaults 0x52 w).isEmpty
  | .eUnpkl w => (elemFaults 0x53 w).isEmpty
  | .eUnpkh w => (elemFaults 0x54 w).isEmpty
  | .eQmx w => (elemFaults 0x55 w).isEmpty
  | .eQbx w => (elemFaults 0x56 w).isEmpty
  | .eDq w => (elemFaults 0x57 w).isEmpty
  | .eSclx w => (elemFaults 0x58 w).isEmpty
  | .eNarw w => (elemFaults 0x59 w).isEmpty
  | .eWidn w => (elemFaults 0x5A w).isEmpty
  | .eLd w => (elemFaults 0x60 w).isEmpty
  | .eSt w => (elemFaults 0x61 w).isEmpty
  | .eLdc w => (elemFaults 0x62 w).isEmpty
  | .eSrd w => (elemFaults 0x63 w).isEmpty
  | .eSwr w => (elemFaults 0x64 w).isEmpty
  | .eSskip w => (elemFaults 0x65 w).isEmpty
  | .eScount w => (elemFaults 0x66 w).isEmpty
  | .eAredf w => (elemFaults 0x67 w).isEmpty
  | .eAredi w => (elemFaults 0x68 w).isEmpty
  | .eWld w => (elemFaults 0x70 w).isEmpty
  | .eWsel w => (elemFaults 0x71 w).isEmpty
  | .eSmac w => (elemFaults 0x72 w).isEmpty
  | .eSdrn w => (elemFaults 0x73 w).isEmpty
  | .eFeed w => (elemFaults 0x74 w).isEmpty
  | .eRdctl w => (elemFaults 0x75 w).isEmpty
  | .eWrctl w => (elemFaults 0x76 w).isEmpty
  | .sXli w => (seqFaults 0x00 w).isEmpty
  | .sXlih w => (seqFaults 0x01 w).isEmpty
  | .sXadd w => (seqFaults 0x02 w).isEmpty
  | .sXsub w => (seqFaults 0x03 w).isEmpty
  | .sXmul w => (seqFaults 0x04 w).isEmpty
  | .sXand w => (seqFaults 0x05 w).isEmpty
  | .sXior w => (seqFaults 0x06 w).isEmpty
  | .sXxor w => (seqFaults 0x07 w).isEmpty
  | .sXshl w => (seqFaults 0x08 w).isEmpty
  | .sXshr w => (seqFaults 0x09 w).isEmpty
  | .sXsra w => (seqFaults 0x0A w).isEmpty
  | .sXmin w => (seqFaults 0x0B w).isEmpty
  | .sXmax w => (seqFaults 0x0C w).isEmpty
  | .sXslt w => (seqFaults 0x0D w).isEmpty
  | .sXsel w => (seqFaults 0x0E w).isEmpty
  | .sXld w => (seqFaults 0x0F w).isEmpty
  | .sXst w => (seqFaults 0x10 w).isEmpty
  | .sRep w => (seqFaults 0x20 w).isEmpty
  | .sKrun w => (seqFaults 0x21 w).isEmpty
  | .sKsw w => (seqFaults 0x22 w).isEmpty
  | .sYield w => (seqFaults 0x23 w).isEmpty
  | .sHalt w => (seqFaults 0x24 w).isEmpty
  | .sTrap w => (seqFaults 0x25 w).isEmpty
  | .sNopq w => (seqFaults 0x26 w).isEmpty
  | .sSsend w => (seqFaults 0x30 w).isEmpty
  | .sLsync w => (seqFaults 0x31 w).isEmpty
  | .sSige w => (seqFaults 0x32 w).isEmpty
  | .sWaite w => (seqFaults 0x33 w).isEmpty
  | .sTld w => (seqFaults 0x40 w).isEmpty
  | .sTst w => (seqFaults 0x41 w).isEmpty
  | .sTkld w => (seqFaults 0x42 w).isEmpty
  | .sTwld w => (seqFaults 0x43 w).isEmpty
  | .sTmma w => (seqFaults 0x44 w).isEmpty
  | .sTmms w => (seqFaults 0x45 w).isEmpty
  | .sTgath w => (seqFaults 0x46 w).isEmpty
  | .sTscat w => (seqFaults 0x47 w).isEmpty
  | .sTxp w => (seqFaults 0x48 w).isEmpty
  | .sTcvt w => (seqFaults 0x49 w).isEmpty
  | .sTqnt w => (seqFaults 0x4A w).isEmpty
  | .sTred w => (seqFaults 0x4B w).isEmpty
  | .sTew w => (seqFaults 0x4C w).isEmpty
  | .sTfill w => (seqFaults 0x4D w).isEmpty
  | .sTsmx w => (seqFaults 0x4E w).isEmpty
  | .sTnrm w => (seqFaults 0x4F w).isEmpty
  | .sMshp w => (seqFaults 0x60 w).isEmpty
  | .sMshr w => (seqFaults 0x61 w).isEmpty
  | .sSpset w => (seqFaults 0x62 w).isEmpty
  | .sWin w => (seqFaults 0x63 w).isEmpty
  | .sCset w => (seqFaults 0x64 w).isEmpty
  | .sCget w => (seqFaults 0x65 w).isEmpty
  | .sEcopy w => (seqFaults 0x70 w).isEmpty
  | .sEgath w => (seqFaults 0x71 w).isEmpty
  | .sEscat w => (seqFaults 0x72 w).isEmpty
  | .sEfill w => (seqFaults 0x73 w).isEmpty
  | .sEcollSum w => (seqFaults 0x74 w).isEmpty && decide ((w.mod.toNat / 8) % 4 = 0)
  | .sEcollGather w => (seqFaults 0x74 w).isEmpty && decide ((w.mod.toNat / 8) % 4 = 1)
  | .sEcollBcast w => (seqFaults 0x74 w).isEmpty && decide ((w.mod.toNat / 8) % 4 = 2)
  | .sEcryptEnc w => (seqFaults 0x75 w).isEmpty && decide ((w.mod.toNat / 8) % 2 = 0)
  | .sEcryptDec w => (seqFaults 0x75 w).isEmpty && decide ((w.mod.toNat / 8) % 2 = 1)
  | .sEqry w => (seqFaults 0x76 w).isEmpty
  | .sEwait w => (seqFaults 0x77 w).isEmpty
  | .sEcancel w => (seqFaults 0x78 w).isEmpty
  | .sSeal w => (seqFaults 0x80 w).isEmpty
  | .sUnseal w => (seqFaults 0x81 w).isEmpty
  | .sRetain w => (seqFaults 0x82 w).isEmpty
  | .sUnpin w => (seqFaults 0x83 w).isEmpty
  | .sEvhint w => (seqFaults 0x84 w).isEmpty
  | .sFence w => (seqFaults 0x85 w).isEmpty
  | .sCfill w => (seqFaults 0x86 w).isEmpty
  | .sCellinit w => (seqFaults 0x87 w).isEmpty
  | .sXcell w => (seqFaults 0x88 w).isEmpty
  | .sXaadd w => (seqFaults 0x89 w).isEmpty
  | .sXacas w => (seqFaults 0x8A w).isEmpty
  | .sXaswp w => (seqFaults 0x8B w).isEmpty
  | .sRdsr w => (seqFaults 0x90 w).isEmpty
  | .sWrsr w => (seqFaults 0x91 w).isEmpty
  | .gEnd w => (graphFaults 0x00 w).isEmpty
  | .gTask w => (graphFaults 0x01 w).isEmpty
  | .gTaskd w => (graphFaults 0x02 w).isEmpty
  | .gStep w => (graphFaults 0x03 w).isEmpty
  | .gEndstep w => (graphFaults 0x04 w).isEmpty
  | .gWaitEvent w => (graphFaults 0x05 w).isEmpty && decide (w.mod.toNat % 2 = 0)
  | .gWaitLaunch w => (graphFaults 0x05 w).isEmpty && decide (w.mod.toNat % 2 = 1)
  | .gSig w => (graphFaults 0x06 w).isEmpty
  | .gGld w => (graphFaults 0x08 w).isEmpty
  | .gGst w => (graphFaults 0x09 w).isEmpty
  | .gGli w => (graphFaults 0x0A w).isEmpty
  | .gGadd w => (graphFaults 0x0B w).isEmpty
  | .gGsub w => (graphFaults 0x0C w).isEmpty
  | .gGand w => (graphFaults 0x0D w).isEmpty
  | .gGcmp w => (graphFaults 0x0E w).isEmpty
  | .gGcell w => (graphFaults 0x0F w).isEmpty
  | .gBr w => (graphFaults 0x10 w).isEmpty
  | .gBrc w => (graphFaults 0x11 w).isEmpty
  | .gLoop w => (graphFaults 0x12 w).isEmpty
  | .gEndl w => (graphFaults 0x13 w).isEmpty
  | .gCallg w => (graphFaults 0x14 w).isEmpty
  | .gPatch w => (graphFaults 0x18 w).isEmpty
  | .gMsg w => (graphFaults 0x19 w).isEmpty
  | .gRcv w => (graphFaults 0x1A w).isEmpty
  | .gLease w => (graphFaults 0x1B w).isEmpty
  | .gFree w => (graphFaults 0x1C w).isEmpty
  | .gReceipt w => (graphFaults 0x1D w).isEmpty
  | .gFaultrd w => (graphFaults 0x20 w).isEmpty
  | .gFaultackEnd w => (graphFaults 0x21 w).isEmpty && decide (w.mod.toNat % 2 = 0)
  | .gFaultackResume w => (graphFaults 0x21 w).isEmpty && decide (w.mod.toNat % 2 = 1)
  | .gRetry w => (graphFaults 0x22 w).isEmpty
  | .cIdent fn => fnOk fn
  | .cAttest fn => fnOk fn
  | .cFwstage fn => fnOk fn
  | .cFwswitch fn => fnOk fn
  | .cLibadd fn => fnOk fn
  | .cLibrevoke fn => fnOk fn
  | .cPageset fn => fnOk fn
  | .cModelopen fn => fnOk fn
  | .cModelfill fn => fnOk fn
  | .cModelclose fn => fnOk fn
  | .cSessopen fn => fnOk fn
  | .cSessclose fn => fnOk fn
  | .cReplyclose fn => fnOk fn
  | .cOwnreceipt fn => fnOk fn
  | .cLinkup fn => fnOk fn
  | .cExport fn => fnOk fn
  | .hHostInstallPacket p => p.ok && decide (p.kind = 1)
  | .hHostLaunchPacket p => p.ok && decide (p.kind = 2)
  | .hHostPatchPacket p => p.ok && decide (p.kind = 3)
  | .hHostDataPacket p => p.ok && decide (p.kind = 4)
  | .hUnknownPacketType p => p.ok && decide (¬(1 ≤ p.kind ∧ p.kind ≤ 4))
  | .rChannelCreate => true
  | .rChannelClose => true
  | .rRsync => true
  | .rRegisterWrite => true
  | .rPartitionDisable => true
  | .vVfFlr => true
  | .vPf0Flr => true
  | .vColdReset => true
  | .rS1inv => true
  | .rS2inv => true
  | .vInvalidationAck => true
  | .rLfack => true
  | .rMigrationStart => true
  | .vMigrationRound => true
  | .vMigrationFinalRound => true
  | .rLmFlip => true
  | .rLmQuiesce => true
  | .rRetentionRegWrite => true
  | .rCompressionRangeWrite => true
  | .rVspillWrite => true
  | .rSaveareaWrite => true
  | .vFwHeartbeat => true
  | .vFwSwitchDeadline => true
  | .vIntervalDecide => true
  | .vKernelEnd => true
  | .vMacroElement => true
  | .vEngineElement => true
  | .vCollContribution => true
  | .vCollTimeout => true
  | .vPortFetch => true
  | .vPortWriteout => true
  | .vDrainRecordWrite => true
  | .vWeightPortBeat => true
  | .vReductionSend => true
  | .vSteerArrival => true
  | .vEventGrant => true
  | .vLocalBoundary => true
  | .vGroupBoundary => true
  | .vTrapFreeze => true
  | .vFaultDeadline => true
  | .vTaskSelect => true
  | .vTaskAging => true
  | .vDeficitCharge => true
  | .vPriorityPreempt => true
  | .vLeaseResident => true
  | .vImageCheck => true
  | .vRegionPlace => true
  | .vConfigLoad => true
  | .vTaskEnd => true
  | .vPreemptRequest => true
  | .vCooperativeSave => true
  | .vForcedSave => true
  | .vSliceEndRestart => true
  | .vTaskRestore => true
  | .vL2Fill => true
  | .vExpanderDeliver => true
  | .vLinkFail => true
  | .vDomainLinkTimeout => true
  | .vFlitReceive => true
  | .vLinkKeyUpdate => true
  | .vEthernetDatagram => true
  | .vPatrolScrub => true
  | .vClockChange => true
  | .vRemoteWalkComplete => true
  | .rClusterRevocation => true
  | .rChannelDheadWrite => true
  | .vDataReturn => true
  | .vRouteComesBack => true
  | .vSoftError => true
  | .vDebugPortRead => true
  | .vPcieSectorEntry => true

end Sys2Proof
end

