-- ==== Sys2Proof/Decode.lean ====
section
/-! DEFINITION. The decoder of every word the K4 reads, and the encoder (03 R67, R71, R74, R76; 10 R272, R273; 21 R432). A word that
is no instruction is rejected by name. Register accesses and events have no word. -/
namespace Sys2Proof
open Machine

/-- Why a word is no instruction: its plane and the field and reason of R81, or a command code that R432 does not list. -/
inductive Reject where
  | badWord (plane field reason : Nat)
  | badCommand (code : Nat)
  | badLength
  deriving DecidableEq, Repr

/-- A coded instruction: an element word (R67), a sequencer word (R74), a graph word (R76), a command code with its calling
function (R432), a packet in its channel (R272). -/
inductive Code where
  | elem (b : BitVec 40)
  | seq (b : BitVec 64)
  | graph (b : BitVec 64)
  | command (c : BitVec 8) (fn : Nat)
  | packet (p : HostPacket)
  deriving DecidableEq, Repr

/-- Element word from its fields (R67). -/
def packElem (op : BitVec 7) (w : EWord) : BitVec 40 := op ++ w.d ++ w.a ++ w.b ++ w.c ++ w.fwd ++ w.vm ++ w.ty

/-- Fields of an element word (R67). -/
def elemFields (b : BitVec 40) : EWord :=
  { d := b.extractLsb' 27 6, a := b.extractLsb' 21 6, b := b.extractLsb' 15 6, c := b.extractLsb' 9 6,
    fwd := b.extractLsb' 5 4, vm := b.extractLsb' 3 2, ty := b.extractLsb' 0 3 }

/-- Sequencer word from its fields (R74). -/
def packSeq (op : BitVec 8) (w : SWord) : BitVec 64 := op ++ w.xd ++ w.xa ++ w.xb ++ w.mod ++ w.imm

/-- Fields of a sequencer word (R74). -/
def seqFields (b : BitVec 64) : SWord :=
  { xd := b.extractLsb' 51 5, xa := b.extractLsb' 46 5, xb := b.extractLsb' 41 5, mod := b.extractLsb' 32 9,
    imm := b.extractLsb' 0 32 }

/-- Graph word from its fields (R76). -/
def packGraph (op : BitVec 6) (w : GWord) : BitVec 64 := op ++ w.gd ++ w.ga ++ w.gb ++ w.mod ++ w.imm

/-- Fields of a graph word (R76). -/
def graphFields (b : BitVec 64) : GWord :=
  { gd := b.extractLsb' 54 4, ga := b.extractLsb' 50 4, gb := b.extractLsb' 46 4, mod := b.extractLsb' 32 14,
    imm := b.extractLsb' 0 32 }

/-- The element opcode map (R71). -/
def elemInstr (op : Nat) (w : EWord) : Option Instr :=
  match op with
  | 0x00 => some (.eNop w)
  | 0x01 => some (.eMov w)
  | 0x02 => some (.eAdd w)
  | 0x03 => some (.eSub w)
  | 0x04 => some (.eMul w)
  | 0x05 => some (.eMulh w)
  | 0x06 => some (.eMulhu w)
  | 0x07 => some (.eMad w)
  | 0x08 => some (.eAnd w)
  | 0x09 => some (.eOr w)
  | 0x0A => some (.eXor w)
  | 0x0B => some (.eAndn w)
  | 0x0C => some (.eNot w)
  | 0x0D => some (.eShl w)
  | 0x0E => some (.eShr w)
  | 0x0F => some (.eSra w)
  | 0x10 => some (.eRotl w)
  | 0x11 => some (.eMin w)
  | 0x12 => some (.eMax w)
  | 0x13 => some (.eMinu w)
  | 0x14 => some (.eMaxu w)
  | 0x15 => some (.eAbs w)
  | 0x16 => some (.eNeg w)
  | 0x17 => some (.eClz w)
  | 0x18 => some (.ePopc w)
  | 0x19 => some (.eCmpeq w)
  | 0x1A => some (.eCmpne w)
  | 0x1B => some (.eCmplt w)
  | 0x1C => some (.eCmple w)
  | 0x1D => some (.eCmpltu w)
  | 0x1E => some (.eCmpleu w)
  | 0x1F => some (.eSel w)
  | 0x20 => some (.eVsel w)
  | 0x21 => some (.eValid w)
  | 0x22 => some (.eSetv w)
  | 0x23 => some (.eClrv w)
  | 0x24 => some (.eBcst w)
  | 0x25 => some (.ePerm w)
  | 0x26 => some (.eSlideup w)
  | 0x27 => some (.eSlidedn w)
  | 0x28 => some (.eRsum w)
  | 0x29 => some (.eRmax w)
  | 0x2A => some (.eRmin w)
  | 0x2B => some (.eLanex w)
  | 0x2C => some (.eLanei w)
  | 0x2D => some (.eSteer w)
  | 0x2E => some (.eTrapif w)
  | 0x2F => some (.eMovq w)
  | 0x30 => some (.eFadd w)
  | 0x31 => some (.eFsub w)
  | 0x32 => some (.eFmul w)
  | 0x33 => some (.eFma w)
  | 0x34 => some (.eFms w)
  | 0x35 => some (.eFnma w)
  | 0x36 => some (.eFmin w)
  | 0x37 => some (.eFmax w)
  | 0x38 => some (.eFabs w)
  | 0x39 => some (.eFneg w)
  | 0x3A => some (.eFcmpeq w)
  | 0x3B => some (.eFcmplt w)
  | 0x3C => some (.eFcmple w)
  | 0x3D => some (.eFcmpun w)
  | 0x3E => some (.eFclass w)
  | 0x3F => some (.eFrcp w)
  | 0x40 => some (.eFrsq w)
  | 0x41 => some (.eFsqrt w)
  | 0x42 => some (.eFdiv w)
  | 0x43 => some (.eFexp2 w)
  | 0x44 => some (.eFlog2 w)
  | 0x45 => some (.eFrsum w)
  | 0x46 => some (.eFrmax w)
  | 0x47 => some (.eFrmin w)
  | 0x48 => some (.eDot w)
  | 0x49 => some (.eDota w)
  | 0x4A => some (.eFscale w)
  | 0x4B => some (.eFround w)
  | 0x4C => some (.eFcvti w)
  | 0x4D => some (.eIcvtf w)
  | 0x4E => some (.eFcopys w)
  | 0x4F => some (.eFmaxm w)
  | 0x50 => some (.eCvt w)
  | 0x51 => some (.eCvts w)
  | 0x52 => some (.ePack w)
  | 0x53 => some (.eUnpkl w)
  | 0x54 => some (.eUnpkh w)
  | 0x55 => some (.eQmx w)
  | 0x56 => some (.eQbx w)
  | 0x57 => some (.eDq w)
  | 0x58 => some (.eSclx w)
  | 0x59 => some (.eNarw w)
  | 0x5A => some (.eWidn w)
  | 0x60 => some (.eLd w)
  | 0x61 => some (.eSt w)
  | 0x62 => some (.eLdc w)
  | 0x63 => some (.eSrd w)
  | 0x64 => some (.eSwr w)
  | 0x65 => some (.eSskip w)
  | 0x66 => some (.eScount w)
  | 0x67 => some (.eAredf w)
  | 0x68 => some (.eAredi w)
  | 0x70 => some (.eWld w)
  | 0x71 => some (.eWsel w)
  | 0x72 => some (.eSmac w)
  | 0x73 => some (.eSdrn w)
  | 0x74 => some (.eFeed w)
  | 0x75 => some (.eRdctl w)
  | 0x76 => some (.eWrctl w)
  | _ => none

/-- The sequencer opcode map (R74); the sub-operations of ECOLL and ECRYPT by mod (R362, R364). -/
def seqInstr (op : Nat) (w : SWord) : Option Instr :=
  match op with
  | 0x00 => some (.sXli w)
  | 0x01 => some (.sXlih w)
  | 0x02 => some (.sXadd w)
  | 0x03 => some (.sXsub w)
  | 0x04 => some (.sXmul w)
  | 0x05 => some (.sXand w)
  | 0x06 => some (.sXior w)
  | 0x07 => some (.sXxor w)
  | 0x08 => some (.sXshl w)
  | 0x09 => some (.sXshr w)
  | 0x0A => some (.sXsra w)
  | 0x0B => some (.sXmin w)
  | 0x0C => some (.sXmax w)
  | 0x0D => some (.sXslt w)
  | 0x0E => some (.sXsel w)
  | 0x0F => some (.sXld w)
  | 0x10 => some (.sXst w)
  | 0x20 => some (.sRep w)
  | 0x21 => some (.sKrun w)
  | 0x22 => some (.sKsw w)
  | 0x23 => some (.sYield w)
  | 0x24 => some (.sHalt w)
  | 0x25 => some (.sTrap w)
  | 0x26 => some (.sNopq w)
  | 0x30 => some (.sSsend w)
  | 0x31 => some (.sLsync w)
  | 0x32 => some (.sSige w)
  | 0x33 => some (.sWaite w)
  | 0x40 => some (.sTld w)
  | 0x41 => some (.sTst w)
  | 0x42 => some (.sTkld w)
  | 0x43 => some (.sTwld w)
  | 0x44 => some (.sTmma w)
  | 0x45 => some (.sTmms w)
  | 0x46 => some (.sTgath w)
  | 0x47 => some (.sTscat w)
  | 0x48 => some (.sTxp w)
  | 0x49 => some (.sTcvt w)
  | 0x4A => some (.sTqnt w)
  | 0x4B => some (.sTred w)
  | 0x4C => some (.sTew w)
  | 0x4D => some (.sTfill w)
  | 0x4E => some (.sTsmx w)
  | 0x4F => some (.sTnrm w)
  | 0x60 => some (.sMshp w)
  | 0x61 => some (.sMshr w)
  | 0x62 => some (.sSpset w)
  | 0x63 => some (.sWin w)
  | 0x64 => some (.sCset w)
  | 0x65 => some (.sCget w)
  | 0x70 => some (.sEcopy w)
  | 0x71 => some (.sEgath w)
  | 0x72 => some (.sEscat w)
  | 0x73 => some (.sEfill w)
  | 0x74 => if (w.mod.toNat / 8) % 4 = 0 then some (.sEcollSum w) else if (w.mod.toNat / 8) % 4 = 1 then some (.sEcollGather w) else if (w.mod.toNat / 8) % 4 = 2 then some (.sEcollBcast w) else none
  | 0x75 => if (w.mod.toNat / 8) % 2 = 0 then some (.sEcryptEnc w) else some (.sEcryptDec w)
  | 0x76 => some (.sEqry w)
  | 0x77 => some (.sEwait w)
  | 0x78 => some (.sEcancel w)
  | 0x80 => some (.sSeal w)
  | 0x81 => some (.sUnseal w)
  | 0x82 => some (.sRetain w)
  | 0x83 => some (.sUnpin w)
  | 0x84 => some (.sEvhint w)
  | 0x85 => some (.sFence w)
  | 0x86 => some (.sCfill w)
  | 0x87 => some (.sCellinit w)
  | 0x88 => some (.sXcell w)
  | 0x89 => some (.sXaadd w)
  | 0x8A => some (.sXacas w)
  | 0x8B => some (.sXaswp w)
  | 0x90 => some (.sRdsr w)
  | 0x91 => some (.sWrsr w)
  | _ => none

/-- The graph opcode map (R76, R259, R377). -/
def graphInstr (op : Nat) (w : GWord) : Option Instr :=
  match op with
  | 0x00 => some (.gEnd w)
  | 0x01 => some (.gTask w)
  | 0x02 => some (.gTaskd w)
  | 0x03 => some (.gStep w)
  | 0x04 => some (.gEndstep w)
  | 0x05 => if w.mod.toNat % 2 = 0 then some (.gWaitEvent w) else some (.gWaitLaunch w)
  | 0x06 => some (.gSig w)
  | 0x08 => some (.gGld w)
  | 0x09 => some (.gGst w)
  | 0x0A => some (.gGli w)
  | 0x0B => some (.gGadd w)
  | 0x0C => some (.gGsub w)
  | 0x0D => some (.gGand w)
  | 0x0E => some (.gGcmp w)
  | 0x0F => some (.gGcell w)
  | 0x10 => some (.gBr w)
  | 0x11 => some (.gBrc w)
  | 0x12 => some (.gLoop w)
  | 0x13 => some (.gEndl w)
  | 0x14 => some (.gCallg w)
  | 0x18 => some (.gPatch w)
  | 0x19 => some (.gMsg w)
  | 0x1A => some (.gRcv w)
  | 0x1B => some (.gLease w)
  | 0x1C => some (.gFree w)
  | 0x1D => some (.gReceipt w)
  | 0x20 => some (.gFaultrd w)
  | 0x21 => if w.mod.toNat % 2 = 0 then some (.gFaultackEnd w) else some (.gFaultackResume w)
  | 0x22 => some (.gRetry w)
  | _ => none

/-- The command codes (R432). -/
def commandInstr (c fn : Nat) : Option Instr :=
  match c with
  | 0x01 => some (.cIdent fn)
  | 0x02 => some (.cAttest fn)
  | 0x10 => some (.cFwstage fn)
  | 0x11 => some (.cFwswitch fn)
  | 0x20 => some (.cLibadd fn)
  | 0x21 => some (.cLibrevoke fn)
  | 0x28 => some (.cPageset fn)
  | 0x30 => some (.cModelopen fn)
  | 0x31 => some (.cModelfill fn)
  | 0x32 => some (.cModelclose fn)
  | 0x40 => some (.cSessopen fn)
  | 0x41 => some (.cSessclose fn)
  | 0x42 => some (.cReplyclose fn)
  | 0x50 => some (.cOwnreceipt fn)
  | 0x60 => some (.cLinkup fn)
  | 0x61 => some (.cExport fn)
  | _ => none

/-- A host packet by its type byte (R273). -/
def packetInstr (p : HostPacket) : Instr :=
  if p.kind = 1 then .hHostInstallPacket p else if p.kind = 2 then .hHostLaunchPacket p
  else if p.kind = 3 then .hHostPatchPacket p else if p.kind = 4 then .hHostDataPacket p else .hUnknownPacketType p

/-- The instruction, or the first fault of the word in R79 order. -/
def settle (plane : Nat) (faults : List (Nat × Nat)) (i : Option Instr) : Except Reject Instr :=
  match firstFault faults, i with
  | some (f, r), _ => .error (.badWord plane f r)
  | none, some i => .ok i
  | none, none => .error (.badWord plane 1 0)

/-- The decoder (R71 to R76, R273, R432): total, and no reserved encoding is an instruction (R78). -/
def decode : Code → Except Reject Instr
  | .elem b =>
    let op := (b.extractLsb' 33 7).toNat
    settle 0 (elemFaults op (elemFields b)) (elemInstr op (elemFields b))
  | .seq b =>
    let op := (b.extractLsb' 56 8).toNat
    settle 1 (seqFaults op (seqFields b)) (seqInstr op (seqFields b))
  | .graph b =>
    let op := (b.extractLsb' 58 6).toNat
    settle 2 (graphFaults op (graphFields b)) (graphInstr op (graphFields b))
  | .command c fn =>
    match commandInstr c.toNat fn with
    | some i => .ok i
    | none => .error (.badCommand c.toNat)
  | .packet p => .ok (packetInstr p)

/-- The encoder: the coded form of an instruction that has one. -/
def encode : Instr → Option Code
  | .eNop w => some (.elem (packElem 0x00 w))
  | .eMov w => some (.elem (packElem 0x01 w))
  | .eAdd w => some (.elem (packElem 0x02 w))
  | .eSub w => some (.elem (packElem 0x03 w))
  | .eMul w => some (.elem (packElem 0x04 w))
  | .eMulh w => some (.elem (packElem 0x05 w))
  | .eMulhu w => some (.elem (packElem 0x06 w))
  | .eMad w => some (.elem (packElem 0x07 w))
  | .eAnd w => some (.elem (packElem 0x08 w))
  | .eOr w => some (.elem (packElem 0x09 w))
  | .eXor w => some (.elem (packElem 0x0A w))
  | .eAndn w => some (.elem (packElem 0x0B w))
  | .eNot w => some (.elem (packElem 0x0C w))
  | .eShl w => some (.elem (packElem 0x0D w))
  | .eShr w => some (.elem (packElem 0x0E w))
  | .eSra w => some (.elem (packElem 0x0F w))
  | .eRotl w => some (.elem (packElem 0x10 w))
  | .eMin w => some (.elem (packElem 0x11 w))
  | .eMax w => some (.elem (packElem 0x12 w))
  | .eMinu w => some (.elem (packElem 0x13 w))
  | .eMaxu w => some (.elem (packElem 0x14 w))
  | .eAbs w => some (.elem (packElem 0x15 w))
  | .eNeg w => some (.elem (packElem 0x16 w))
  | .eClz w => some (.elem (packElem 0x17 w))
  | .ePopc w => some (.elem (packElem 0x18 w))
  | .eCmpeq w => some (.elem (packElem 0x19 w))
  | .eCmpne w => some (.elem (packElem 0x1A w))
  | .eCmplt w => some (.elem (packElem 0x1B w))
  | .eCmple w => some (.elem (packElem 0x1C w))
  | .eCmpltu w => some (.elem (packElem 0x1D w))
  | .eCmpleu w => some (.elem (packElem 0x1E w))
  | .eSel w => some (.elem (packElem 0x1F w))
  | .eVsel w => some (.elem (packElem 0x20 w))
  | .eValid w => some (.elem (packElem 0x21 w))
  | .eSetv w => some (.elem (packElem 0x22 w))
  | .eClrv w => some (.elem (packElem 0x23 w))
  | .eBcst w => some (.elem (packElem 0x24 w))
  | .ePerm w => some (.elem (packElem 0x25 w))
  | .eSlideup w => some (.elem (packElem 0x26 w))
  | .eSlidedn w => some (.elem (packElem 0x27 w))
  | .eRsum w => some (.elem (packElem 0x28 w))
  | .eRmax w => some (.elem (packElem 0x29 w))
  | .eRmin w => some (.elem (packElem 0x2A w))
  | .eLanex w => some (.elem (packElem 0x2B w))
  | .eLanei w => some (.elem (packElem 0x2C w))
  | .eSteer w => some (.elem (packElem 0x2D w))
  | .eTrapif w => some (.elem (packElem 0x2E w))
  | .eMovq w => some (.elem (packElem 0x2F w))
  | .eFadd w => some (.elem (packElem 0x30 w))
  | .eFsub w => some (.elem (packElem 0x31 w))
  | .eFmul w => some (.elem (packElem 0x32 w))
  | .eFma w => some (.elem (packElem 0x33 w))
  | .eFms w => some (.elem (packElem 0x34 w))
  | .eFnma w => some (.elem (packElem 0x35 w))
  | .eFmin w => some (.elem (packElem 0x36 w))
  | .eFmax w => some (.elem (packElem 0x37 w))
  | .eFmaxm w => some (.elem (packElem 0x4F w))
  | .eFabs w => some (.elem (packElem 0x38 w))
  | .eFneg w => some (.elem (packElem 0x39 w))
  | .eFcopys w => some (.elem (packElem 0x4E w))
  | .eFscale w => some (.elem (packElem 0x4A w))
  | .eFround w => some (.elem (packElem 0x4B w))
  | .eFcvti w => some (.elem (packElem 0x4C w))
  | .eIcvtf w => some (.elem (packElem 0x4D w))
  | .eFcmpeq w => some (.elem (packElem 0x3A w))
  | .eFcmplt w => some (.elem (packElem 0x3B w))
  | .eFcmple w => some (.elem (packElem 0x3C w))
  | .eFcmpun w => some (.elem (packElem 0x3D w))
  | .eFclass w => some (.elem (packElem 0x3E w))
  | .eFrcp w => some (.elem (packElem 0x3F w))
  | .eFrsq w => some (.elem (packElem 0x40 w))
  | .eFsqrt w => some (.elem (packElem 0x41 w))
  | .eFdiv w => some (.elem (packElem 0x42 w))
  | .eFexp2 w => some (.elem (packElem 0x43 w))
  | .eFlog2 w => some (.elem (packElem 0x44 w))
  | .eFrsum w => some (.elem (packElem 0x45 w))
  | .eFrmax w => some (.elem (packElem 0x46 w))
  | .eFrmin w => some (.elem (packElem 0x47 w))
  | .eDot w => some (.elem (packElem 0x48 w))
  | .eDota w => some (.elem (packElem 0x49 w))
  | .eCvt w => some (.elem (packElem 0x50 w))
  | .eCvts w => some (.elem (packElem 0x51 w))
  | .ePack w => some (.elem (packElem 0x52 w))
  | .eUnpkl w => some (.elem (packElem 0x53 w))
  | .eUnpkh w => some (.elem (packElem 0x54 w))
  | .eQmx w => some (.elem (packElem 0x55 w))
  | .eQbx w => some (.elem (packElem 0x56 w))
  | .eDq w => some (.elem (packElem 0x57 w))
  | .eSclx w => some (.elem (packElem 0x58 w))
  | .eNarw w => some (.elem (packElem 0x59 w))
  | .eWidn w => some (.elem (packElem 0x5A w))
  | .eLd w => some (.elem (packElem 0x60 w))
  | .eSt w => some (.elem (packElem 0x61 w))
  | .eLdc w => some (.elem (packElem 0x62 w))
  | .eSrd w => some (.elem (packElem 0x63 w))
  | .eSwr w => some (.elem (packElem 0x64 w))
  | .eSskip w => some (.elem (packElem 0x65 w))
  | .eScount w => some (.elem (packElem 0x66 w))
  | .eAredf w => some (.elem (packElem 0x67 w))
  | .eAredi w => some (.elem (packElem 0x68 w))
  | .eWld w => some (.elem (packElem 0x70 w))
  | .eWsel w => some (.elem (packElem 0x71 w))
  | .eSmac w => some (.elem (packElem 0x72 w))
  | .eSdrn w => some (.elem (packElem 0x73 w))
  | .eFeed w => some (.elem (packElem 0x74 w))
  | .eRdctl w => some (.elem (packElem 0x75 w))
  | .eWrctl w => some (.elem (packElem 0x76 w))
  | .sXli w => some (.seq (packSeq 0x00 w))
  | .sXlih w => some (.seq (packSeq 0x01 w))
  | .sXadd w => some (.seq (packSeq 0x02 w))
  | .sXsub w => some (.seq (packSeq 0x03 w))
  | .sXmul w => some (.seq (packSeq 0x04 w))
  | .sXand w => some (.seq (packSeq 0x05 w))
  | .sXior w => some (.seq (packSeq 0x06 w))
  | .sXxor w => some (.seq (packSeq 0x07 w))
  | .sXshl w => some (.seq (packSeq 0x08 w))
  | .sXshr w => some (.seq (packSeq 0x09 w))
  | .sXsra w => some (.seq (packSeq 0x0A w))
  | .sXmin w => some (.seq (packSeq 0x0B w))
  | .sXmax w => some (.seq (packSeq 0x0C w))
  | .sXslt w => some (.seq (packSeq 0x0D w))
  | .sXsel w => some (.seq (packSeq 0x0E w))
  | .sXld w => some (.seq (packSeq 0x0F w))
  | .sXst w => some (.seq (packSeq 0x10 w))
  | .sRep w => some (.seq (packSeq 0x20 w))
  | .sKrun w => some (.seq (packSeq 0x21 w))
  | .sKsw w => some (.seq (packSeq 0x22 w))
  | .sYield w => some (.seq (packSeq 0x23 w))
  | .sHalt w => some (.seq (packSeq 0x24 w))
  | .sTrap w => some (.seq (packSeq 0x25 w))
  | .sNopq w => some (.seq (packSeq 0x26 w))
  | .sSsend w => some (.seq (packSeq 0x30 w))
  | .sLsync w => some (.seq (packSeq 0x31 w))
  | .sSige w => some (.seq (packSeq 0x32 w))
  | .sWaite w => some (.seq (packSeq 0x33 w))
  | .sTld w => some (.seq (packSeq 0x40 w))
  | .sTst w => some (.seq (packSeq 0x41 w))
  | .sTkld w => some (.seq (packSeq 0x42 w))
  | .sTwld w => some (.seq (packSeq 0x43 w))
  | .sTmma w => some (.seq (packSeq 0x44 w))
  | .sTmms w => some (.seq (packSeq 0x45 w))
  | .sTgath w => some (.seq (packSeq 0x46 w))
  | .sTscat w => some (.seq (packSeq 0x47 w))
  | .sTxp w => some (.seq (packSeq 0x48 w))
  | .sTcvt w => some (.seq (packSeq 0x49 w))
  | .sTqnt w => some (.seq (packSeq 0x4A w))
  | .sTred w => some (.seq (packSeq 0x4B w))
  | .sTew w => some (.seq (packSeq 0x4C w))
  | .sTfill w => some (.seq (packSeq 0x4D w))
  | .sTsmx w => some (.seq (packSeq 0x4E w))
  | .sTnrm w => some (.seq (packSeq 0x4F w))
  | .sMshp w => some (.seq (packSeq 0x60 w))
  | .sMshr w => some (.seq (packSeq 0x61 w))
  | .sSpset w => some (.seq (packSeq 0x62 w))
  | .sWin w => some (.seq (packSeq 0x63 w))
  | .sCset w => some (.seq (packSeq 0x64 w))
  | .sCget w => some (.seq (packSeq 0x65 w))
  | .sEcopy w => some (.seq (packSeq 0x70 w))
  | .sEgath w => some (.seq (packSeq 0x71 w))
  | .sEscat w => some (.seq (packSeq 0x72 w))
  | .sEfill w => some (.seq (packSeq 0x73 w))
  | .sEcollSum w => some (.seq (packSeq 0x74 w))
  | .sEcollGather w => some (.seq (packSeq 0x74 w))
  | .sEcollBcast w => some (.seq (packSeq 0x74 w))
  | .sEcryptEnc w => some (.seq (packSeq 0x75 w))
  | .sEcryptDec w => some (.seq (packSeq 0x75 w))
  | .sEqry w => some (.seq (packSeq 0x76 w))
  | .sEwait w => some (.seq (packSeq 0x77 w))
  | .sEcancel w => some (.seq (packSeq 0x78 w))
  | .sSeal w => some (.seq (packSeq 0x80 w))
  | .sUnseal w => some (.seq (packSeq 0x81 w))
  | .sRetain w => some (.seq (packSeq 0x82 w))
  | .sUnpin w => some (.seq (packSeq 0x83 w))
  | .sEvhint w => some (.seq (packSeq 0x84 w))
  | .sFence w => some (.seq (packSeq 0x85 w))
  | .sCfill w => some (.seq (packSeq 0x86 w))
  | .sCellinit w => some (.seq (packSeq 0x87 w))
  | .sXcell w => some (.seq (packSeq 0x88 w))
  | .sXaadd w => some (.seq (packSeq 0x89 w))
  | .sXacas w => some (.seq (packSeq 0x8A w))
  | .sXaswp w => some (.seq (packSeq 0x8B w))
  | .sRdsr w => some (.seq (packSeq 0x90 w))
  | .sWrsr w => some (.seq (packSeq 0x91 w))
  | .gEnd w => some (.graph (packGraph 0x00 w))
  | .gTask w => some (.graph (packGraph 0x01 w))
  | .gTaskd w => some (.graph (packGraph 0x02 w))
  | .gStep w => some (.graph (packGraph 0x03 w))
  | .gEndstep w => some (.graph (packGraph 0x04 w))
  | .gWaitEvent w => some (.graph (packGraph 0x05 w))
  | .gWaitLaunch w => some (.graph (packGraph 0x05 w))
  | .gSig w => some (.graph (packGraph 0x06 w))
  | .gGld w => some (.graph (packGraph 0x08 w))
  | .gGst w => some (.graph (packGraph 0x09 w))
  | .gGli w => some (.graph (packGraph 0x0A w))
  | .gGadd w => some (.graph (packGraph 0x0B w))
  | .gGsub w => some (.graph (packGraph 0x0C w))
  | .gGand w => some (.graph (packGraph 0x0D w))
  | .gGcmp w => some (.graph (packGraph 0x0E w))
  | .gGcell w => some (.graph (packGraph 0x0F w))
  | .gBr w => some (.graph (packGraph 0x10 w))
  | .gBrc w => some (.graph (packGraph 0x11 w))
  | .gLoop w => some (.graph (packGraph 0x12 w))
  | .gEndl w => some (.graph (packGraph 0x13 w))
  | .gCallg w => some (.graph (packGraph 0x14 w))
  | .gPatch w => some (.graph (packGraph 0x18 w))
  | .gMsg w => some (.graph (packGraph 0x19 w))
  | .gRcv w => some (.graph (packGraph 0x1A w))
  | .gLease w => some (.graph (packGraph 0x1B w))
  | .gFree w => some (.graph (packGraph 0x1C w))
  | .gReceipt w => some (.graph (packGraph 0x1D w))
  | .gFaultrd w => some (.graph (packGraph 0x20 w))
  | .gFaultackEnd w => some (.graph (packGraph 0x21 w))
  | .gFaultackResume w => some (.graph (packGraph 0x21 w))
  | .gRetry w => some (.graph (packGraph 0x22 w))
  | .cIdent fn => some (.command 0x01 fn)
  | .cAttest fn => some (.command 0x02 fn)
  | .cFwstage fn => some (.command 0x10 fn)
  | .cFwswitch fn => some (.command 0x11 fn)
  | .cLibadd fn => some (.command 0x20 fn)
  | .cLibrevoke fn => some (.command 0x21 fn)
  | .cPageset fn => some (.command 0x28 fn)
  | .cModelopen fn => some (.command 0x30 fn)
  | .cModelfill fn => some (.command 0x31 fn)
  | .cModelclose fn => some (.command 0x32 fn)
  | .cSessopen fn => some (.command 0x40 fn)
  | .cSessclose fn => some (.command 0x41 fn)
  | .cReplyclose fn => some (.command 0x42 fn)
  | .cOwnreceipt fn => some (.command 0x50 fn)
  | .cLinkup fn => some (.command 0x60 fn)
  | .cExport fn => some (.command 0x61 fn)
  | .hHostInstallPacket p => some (.packet p)
  | .hHostLaunchPacket p => some (.packet p)
  | .hHostPatchPacket p => some (.packet p)
  | .hHostDataPacket p => some (.packet p)
  | .hUnknownPacketType p => some (.packet p)
  | .rChannelCreate => none
  | .rChannelClose => none
  | .rRsync => none
  | .rRegisterWrite => none
  | .rPartitionDisable => none
  | .vVfFlr => none
  | .vPf0Flr => none
  | .vColdReset => none
  | .rS1inv => none
  | .rS2inv => none
  | .vInvalidationAck => none
  | .rLfack => none
  | .rMigrationStart => none
  | .vMigrationRound => none
  | .vMigrationFinalRound => none
  | .rLmFlip => none
  | .rLmQuiesce => none
  | .rRetentionRegWrite => none
  | .rCompressionRangeWrite => none
  | .rVspillWrite => none
  | .rSaveareaWrite => none
  | .vFwHeartbeat => none
  | .vFwSwitchDeadline => none
  | .vIntervalDecide => none
  | .vKernelEnd => none
  | .vMacroElement => none
  | .vEngineElement => none
  | .vCollContribution => none
  | .vCollTimeout => none
  | .vPortFetch => none
  | .vPortWriteout => none
  | .vDrainRecordWrite => none
  | .vWeightPortBeat => none
  | .vReductionSend => none
  | .vSteerArrival => none
  | .vEventGrant => none
  | .vLocalBoundary => none
  | .vGroupBoundary => none
  | .vTrapFreeze => none
  | .vFaultDeadline => none
  | .vTaskSelect => none
  | .vTaskAging => none
  | .vDeficitCharge => none
  | .vPriorityPreempt => none
  | .vLeaseResident => none
  | .vImageCheck => none
  | .vRegionPlace => none
  | .vConfigLoad => none
  | .vTaskEnd => none
  | .vPreemptRequest => none
  | .vCooperativeSave => none
  | .vForcedSave => none
  | .vSliceEndRestart => none
  | .vTaskRestore => none
  | .vL2Fill => none
  | .vExpanderDeliver => none
  | .vLinkFail => none
  | .vDomainLinkTimeout => none
  | .vFlitReceive => none
  | .vLinkKeyUpdate => none
  | .vEthernetDatagram => none
  | .vPatrolScrub => none
  | .vClockChange => none
  | .vRemoteWalkComplete => none
  | .rClusterRevocation => none
  | .rChannelDheadWrite => none
  | .vDataReturn => none
  | .vRouteComesBack => none
  | .vSoftError => none
  | .vDebugPortRead => none
  | .vPcieSectorEntry => none

/-- The bytes of a little-endian value (R5). -/
def leBytes : Nat → Nat → List Byte
  | 0, _ => []
  | n + 1, v => BitVec.ofNat 8 v :: leBytes n (v / 256)

/-- The value of little-endian bytes (R5). -/
def leNat : List Byte → Nat
  | [] => 0
  | b :: bs => b.toNat + 256 * leNat bs

/-- The bytes of a coded instruction as they stand in storage: element words take five (R91), sequencer and graph words eight,
a command code one, a packet 64. -/
def Code.bytes : Code → List Byte
  | .elem b => leBytes 5 b.toNat
  | .seq b => leBytes 8 b.toNat
  | .graph b => leBytes 8 b.toNat
  | .command c _ => [c]
  | .packet p => leBytes 64 p.bits.toNat

/-- Decoding of raw bytes in a plane (R80: 0 element, 1 sequencer, 2 graph; 3 here a command byte, 4 a packet). -/
def decodeBytes (plane : Nat) (bs : List Byte) : Except Reject Instr :=
  let v := leNat bs
  if plane = 0 ∧ bs.length = 5 then decode (.elem (BitVec.ofNat 40 v))
  else if plane = 1 ∧ bs.length = 8 then decode (.seq (BitVec.ofNat 64 v))
  else if plane = 2 ∧ bs.length = 8 then decode (.graph (BitVec.ofNat 64 v))
  else if plane = 3 ∧ bs.length = 1 then decode (.command (BitVec.ofNat 8 v) 0)
  else if plane = 4 ∧ bs.length = 64 then decode (.packet { bits := BitVec.ofNat 512 v })
  else .error .badLength

/-- The plane that a bit length of the host's question names: the table gives no row a length, so 40 bits are an element word, 64 a
sequencer word, 72 a graph word with its plane number in the top byte, 8 a command code and 512 a packet (log 10). -/
def planeOf (nbits : Nat) : Option (Nat × Nat) :=
  if nbits = 40 then some (0, 5) else if nbits = 64 then some (1, 8) else if nbits = 72 then some (2, 8)
  else if nbits = 8 then some (3, 1) else if nbits = 512 then some (4, 64) else none

/-- The instruction that the decoder reads from the bits of a word. -/
def decodeTableWord (nbits w : Nat) : Option Instr :=
  match planeOf nbits with
  | none => none
  | some (p, n) => (decodeBytes p (leBytes n w)).toOption

end Sys2Proof
end

