-- ==== Sys2Proof/Config.lean ====
section
/-! DEFINITION. What an implementation fixes (constants a log entry names) and the free values: constants with no body,
so that no proof can see what they are (notes/assumptions/4.md, 5.md, 8.md). -/
namespace Sys2Proof.Config

/-- Latencies of R279, R282, R285 and R397 taken as fixed cycle counts (log 4, DESIGN CHOICE, unsafe where a statement is
about the cycle in which something happens). -/
def latCluster : Nat := 10
def latFar : Nat := 60
def latL1 : Nat := 6
def latL1Fused : Nat := 12
def latL2Near : Nat := 40
def latL2Far : Nat := 60
def latL2Die : Nat := 180
def latHbm : Nat := 368
def latForward : Nat := 140
def latDevice : Nat := 1260
def latInvalidate : Nat := 2000
def latWalk : Nat := 400
/-- How long the Pintles hold at a firmware switch: 50 µs of 1.05 GHz, the most that R439 allows (log 4). -/
def latSwitch : Nat := 52500

/-- Free values: each is some value the manual leaves open (log 5). The argument is the counter field of the state. -/
opaque freeByte : Nat → Byte
opaque freeNat : Nat → Nat
/-- Fused silicon stepping (R470), security version floor and the slot that act names at the first cold reset (R436). -/
opaque fusedStep : BitVec 8
opaque fusedFloor : BitVec 16
opaque fusedAct : Bool
/-- The firmware images that the two slots hold at manufacture (R437). -/
opaque fusedSlot : Nat → List Byte
/-- Security version of a firmware image (R437), and the digests that mreg0 and mreg1 are extended with: first argument 0 boot ROM,
1 Tumbler, 2 Pintle and management (R434). -/
opaque fwVersion : List Byte → Byte
opaque fwDigest : Nat → List Byte → List Byte
/-- The boot nonce drawn at a cold reset (R456) and whether debug was unlocked there (R443). -/
opaque bootNonce : Nat → BitVec 256
opaque debugUnlocked : Nat → Bool

/-- Dual signature check (R429): keys, message and signature; RSA-3072 PSS and SLH-DSA-SHA2-192s together (log 8). -/
opaque dualVerify : List Byte → List Byte → List Byte → Bool
/-- Dual signature of the device over a message (R429); the second argument is the boot count, the third a free counter. -/
opaque dualSign : List Byte → Nat → Nat → List Byte
/-- The ML-KEM secret that a ciphertext carries, by boot count, and the x coordinate of the ECDH product with the other party's share, none for a share that is
no point of P-384 (R430, log 8). -/
opaque kemSecret : Nat → List Byte → List Byte
opaque ecdhX : Nat → List Byte → Option (List Byte)
/-- The report nonce that goes into an agreement of a function which has had no report, by boot count and function (R430, log 98). -/
opaque noReport : Nat → Nat → List Byte
/-- The Tumbler's own P-384 share of an agreement (R430). -/
opaque ownShare : Nat → List Byte → List Byte
/-- Identity chains (R428), the per-boot ML-KEM encapsulation key (R430) and the device identifier (R428). -/
opaque identityChains : List Byte
opaque kemKey : Nat → List Byte
opaque deviceId : List Byte
/-- What SPDM with the peer of a link gives (R458): none when either signature part fails, else the peer's device
identifier, domid.dev, pod number, mreg0 and mreg1. -/
opaque linkPeer : Nat → Nat → Option (List Byte × Nat × Nat × List Byte × List Byte)
/-- Whether a device that switches reach belongs to this device's domain (R392, log 6). -/
opaque inDomain : Nat → Bool
/-- Whether the Tumbler of a pod peer accepts an exported key (R460): device number, session or image id, boot count. -/
opaque peerAccepts : Nat → Nat → Nat → Bool
/-- Firmware public keys and the owner keys that signatures are checked under (R429, R437). -/
opaque firmwareKeys : List Byte
/-- Bytes of the ciphertext that a save slot shows to an ordinary read (R383): task, offset, save count. -/
opaque saveCipher : Nat → Nat → Nat → Byte
/-- The X byte of a bx4 block whose quantization ends with scale 0xFF, by its sources (R54, R55; log 97). -/
opaque nanBlockX : Nat → Byte
/-- The model key that arrives encrypted under an agreed secret (R447): secret, wrapped bytes; none when it does not open (log 8). -/
opaque unwrapKey : List Byte → List Byte → Option (List Byte)

/-- A byte string of the length the manual gives it, zero-padded or cut. -/
def sized (n : Nat) (l : List Byte) : List Byte := (l ++ List.replicate n 0).take n

/-- A dual signature has 16,608 bytes (R429), a device identifier 48 (R428), an encapsulation key 1,568 and a P-384 share 96 (R430). -/
def signature (m : List Byte) (boots free : Nat) : List Byte := sized 16608 (dualSign m boots free)
def identifier : List Byte := sized 48 deviceId
def encapsKey (boots : Nat) : List Byte := sized 1568 (kemKey boots)
def share (boots : Nat) (other : List Byte) : List Byte := sized 96 (ownShare boots other)
/-- The keying material of R430: the KEM secret of 32 bytes, then the x coordinate of 48. -/
def agreeIkm (boots : Nat) (ct other : List Byte) : Option (List Byte) :=
  (ecdhX boots other).map fun x => sized 32 (kemSecret boots ct) ++ sized 48 x

end Sys2Proof.Config
end

