-- ==== Sys2Proof/Machine/Flags.lean ====
section
/-! DEFINITION. Values of the number formats, exact arithmetic, rounding and the cfr flags it raises (02 R36 to R66), the scaled
block formats, the fixed-point cell, and the functions of 05 R121. Everything is integer arithmetic on dyadic numbers. -/
namespace Sys2Proof.Machine

/-- cfr flags nv dz of uf nx as bits 0 to 4 (R28). -/
abbrev FlagSet := BitVec 5
def fNv : FlagSet := 1
def fDz : FlagSet := 2
def fOf : FlagSet := 4
def fUf : FlagSet := 8
def fNx : FlagSet := 16

/-- The flag when a condition holds. -/
abbrev flagIf (c : Bool) (f : FlagSet) : FlagSet := if c then f else 0

/-- A floating format (R36): exponent bits, mantissa bits, bias, whether its top exponent holds infinities and NaNs. -/
structure Fmt where
  ebits : Nat
  mbits : Nat
  bias : Nat
  ieee : Bool
  deriving DecidableEq, Repr

def f32 : Fmt := ⟨8, 23, 127, true⟩
def f16 : Fmt := ⟨5, 10, 15, true⟩
def bf16 : Fmt := ⟨8, 7, 127, true⟩
def e4m3 : Fmt := ⟨4, 3, 7, false⟩
def e5m2 : Fmt := ⟨5, 2, 15, true⟩

/-- The floating format of a ty code 1 to 5 (R45). -/
def fmtOf (ty : Nat) : Fmt :=
  if ty = 2 then bf16 else if ty = 3 then f16 else if ty = 4 then e4m3 else if ty = 5 then e5m2 else f32

/-- Width of a format in bits. -/
def Fmt.width (f : Fmt) : Nat := 1 + f.ebits + f.mbits

/-- A value: NaN, an infinity, or ± mant × 2^exp, whose sign counts for zero (R37, R38). -/
inductive Val where
  | nan
  | inf (neg : Bool)
  | fin (neg : Bool) (mant : Nat) (exp : Int)
  deriving DecidableEq, Repr

def Val.zero (neg : Bool) : Val := .fin neg 0 0

/-- Is the value a zero? -/
def Val.isZero : Val → Bool
  | .fin _ m _ => decide (m = 0)
  | _ => false

def Val.isNan : Val → Bool
  | .nan => true
  | _ => false

def Val.isInf : Val → Bool
  | .inf _ => true
  | _ => false

def Val.neg? : Val → Bool
  | .nan => false
  | .inf n => n
  | .fin n _ _ => n

/-- The value with its sign flipped when c holds. -/
def Val.flip (c : Bool) : Val → Val
  | .nan => .nan
  | .inf n => .inf (n != c)
  | .fin n m e => .fin (n != c) m e

def Val.abs : Val → Val
  | .nan => .nan
  | .inf _ => .inf false
  | .fin _ m e => .fin false m e

/-- The value that an encoding of a floating format has (R36, R37). -/
def Fmt.val (f : Fmt) (b : Nat) : Val :=
  let m := b % 2 ^ f.mbits
  let e := (b / 2 ^ f.mbits) % 2 ^ f.ebits
  let s := decide ((b / 2 ^ (f.mbits + f.ebits)) % 2 = 1)
  if e = 2 ^ f.ebits - 1 ∧ (f.ieee = true ∨ m = 2 ^ f.mbits - 1) then
    if f.ieee = true ∧ m = 0 then .inf s else .nan
  else if e = 0 then .fin s m (1 - (f.bias : Int) - f.mbits)
  else .fin s (2 ^ f.mbits + m) ((e : Int) - f.bias - f.mbits)

/-- Canonical NaN of a format (R39). -/
def Fmt.nan (f : Fmt) : Nat :=
  if f.ieee then (2 ^ f.ebits - 1) * 2 ^ f.mbits + 2 ^ (f.mbits - 1) else 2 ^ (f.ebits + f.mbits) - 1

/-- Magnitude encoding of infinity (IEEE formats). -/
def Fmt.infinity (f : Fmt) : Nat := (2 ^ f.ebits - 1) * 2 ^ f.mbits

/-- Magnitude encoding of the largest finite value (R36). -/
def Fmt.maxFin (f : Fmt) : Nat := if f.ieee then f.infinity - 1 else 2 ^ (f.ebits + f.mbits) - 2

/-- The sign bit placed in an encoding. -/
def Fmt.signed (f : Fmt) (neg : Bool) (mag : Nat) : Nat := (if neg then 2 ^ (f.mbits + f.ebits) else 0) + mag

/-- Does the mode choose the neighbour of larger magnitude, given the kept lowest bit, the guard and the sticky bit (R47)? Modes 0
RNE, 1 RTZ, 2 RDN, 3 RUP. -/
def roundsUp (mode : Nat) (neg lowest guard sticky : Bool) : Bool :=
  if mode = 0 then guard && (sticky || lowest)
  else if mode = 2 then neg && (guard || sticky)
  else if mode = 3 then !neg && (guard || sticky)
  else false

/-- Magnitude mant × 2^exp rounded to a multiple of 2^q: the multiple and whether it is inexact (R47). -/
def roundAt (mode : Nat) (neg : Bool) (mant : Nat) (exp q : Int) : Nat × Bool :=
  let sh := (q - exp).toNat
  if q ≤ exp then (mant <<< (exp - q).toNat, false)
  else
    let kept := mant >>> sh
    let guard := decide ((mant >>> (sh - 1)) % 2 = 1)
    let sticky := decide (((mant >>> (sh - 1)) <<< (sh - 1)) ≠ mant)
    (if roundsUp mode neg (decide (kept % 2 = 1)) guard sticky then kept + 1 else kept, guard || sticky)

/-- floor(log2) of mant × 2^exp for mant > 0. -/
def floorLog (mant : Nat) (exp : Int) : Int := (Nat.log2 mant : Int) + exp

/-- Overflow of the plain form (R49). -/
def Fmt.overflow (f : Fmt) (mode : Nat) (neg : Bool) : Nat :=
  let away := mode = 0 ∨ (mode = 2 ∧ neg = true) ∨ (mode = 3 ∧ neg = false)
  if away then (if f.ieee then f.signed neg f.infinity else f.nan) else f.signed neg f.maxFin

/-- round(x, fmt, mode) with the overflow form and the flags of R47 to R53; sat selects the S form. -/
def Fmt.round (f : Fmt) (mode : Nat) (sat : Bool) : Val → Nat × FlagSet
  | .nan => (f.nan, 0)
  | .inf n =>
    (if sat then f.signed n f.maxFin else if f.ieee then f.signed n f.infinity else f.nan, 0)
  | .fin n 0 _ => (f.signed n 0, 0)
  | .fin n m e =>
    let emin : Int := 1 - (f.bias : Int)
    let top := floorLog m e
    let q := max (top - f.mbits) (emin - f.mbits)
    let (k, inx) := roundAt mode n m e q
    let (k2, q2) := if k = 2 ^ (f.mbits + 1) then (2 ^ f.mbits, q + 1) else (k, q)
    let mag := if k2 < 2 ^ f.mbits then k2 else ((q2 + f.mbits + f.bias).toNat) * 2 ^ f.mbits + (k2 - 2 ^ f.mbits)
    if f.maxFin < mag then
      (if sat then f.signed n f.maxFin else f.overflow mode n, fOf ||| fNx)
    else
      let free := (roundAt mode n m e (top - f.mbits)).1
      let tiny := decide (top < emin) && !decide (top + 1 = emin ∧ free = 2 ^ (f.mbits + 1))
      (f.signed n mag, flagIf inx fNx ||| flagIf (inx && tiny) fUf)

/-- Exact sum of two values, with nv for opposite infinities; the sign of an exact zero follows R38. -/
def Val.add (mode : Nat) : Val → Val → Val × FlagSet
  | .nan, _ => (.nan, 0)
  | _, .nan => (.nan, 0)
  | .inf a, .inf b => if a = b then (.inf a, 0) else (.nan, fNv)
  | .inf a, _ => (.inf a, 0)
  | _, .inf b => (.inf b, 0)
  | .fin na ma ea, .fin nb mb eb =>
    if ma = 0 ∧ mb = 0 then (Val.zero (if na = nb then na else decide (mode = 2)), 0)
    else if ma = 0 then (.fin nb mb eb, 0)
    else if mb = 0 then (.fin na ma ea, 0)
    else
      let e := min ea eb
      let x : Int := ((ma <<< (ea - e).toNat : Nat) : Int)
      let y : Int := ((mb <<< (eb - e).toNat : Nat) : Int)
      let t := (if na then -x else x) + (if nb then -y else y)
      if t = 0 then (Val.zero (decide (mode = 2)), 0) else (.fin (decide (t < 0)) t.natAbs e, 0)

/-- Exact product, with nv for zero times infinity (R118). -/
def Val.mul : Val → Val → Val × FlagSet
  | .nan, _ => (.nan, 0)
  | _, .nan => (.nan, 0)
  | .inf a, .inf b => (.inf (a != b), 0)
  | .inf a, .fin b m _ => if m = 0 then (.nan, fNv) else (.inf (a != b), 0)
  | .fin a m _, .inf b => if m = 0 then (.nan, fNv) else (.inf (a != b), 0)
  | .fin a ma ea, .fin b mb eb => (.fin (a != b) (ma * mb) (ea + eb), 0)

/-- x < y on values without NaN; −0 is below +0 when signed is set (R64, R118), equal otherwise (R119). -/
def Val.lt (signedZero : Bool) (x y : Val) : Bool :=
  match x, y with
  | .nan, _ => false
  | _, .nan => false
  | .inf a, .inf b => a && !b
  | .inf a, .fin _ _ _ => a
  | .fin _ _ _, .inf b => !b
  | .fin na ma ea, .fin nb mb eb =>
    if ma = 0 ∧ mb = 0 then signedZero && na && !nb
    else
      let e := min ea eb
      let a : Int := ((ma <<< (ea - e).toNat : Nat) : Int)
      let b : Int := ((mb <<< (eb - e).toNat : Nat) : Int)
      decide ((if na then -a else a) < (if nb then -b else b))

/-- min and max of R64 and R118: NaN when either argument is NaN. -/
def Val.minmax (wantMax : Bool) (x y : Val) : Val :=
  if x.isNan || y.isNan then .nan
  else if wantMax then (if x.lt true y then y else x) else (if y.lt true x then y else x)

/-- The operand of larger magnitude; FMAX of the two on equal magnitudes (R118). -/
def Val.maxMag (x y : Val) : Val :=
  if x.isNan || y.isNan then .nan
  else if x.abs.lt false y.abs then y else if y.abs.lt false x.abs then x else Val.minmax true x y

/-- The exact sum of a list of values. -/
def Val.sum (mode : Nat) : List Val → Val × FlagSet
  | [] => (Val.zero false, 0)
  | [x] => (x, 0)
  | x :: xs =>
    let (r, f) := Val.sum mode xs
    let (t, g) := Val.add mode x r
    (t, f ||| g)

/-- The exact sum of products of R60: NaN and infinities decided over all products first. -/
def Val.dot (mode : Nat) (ps : List (Val × Val)) : Val × FlagSet :=
  let prods := ps.map fun (a, b) => Val.mul a b
  let bad := prods.any fun p => p.2 != 0
  let anyNan := prods.any fun p => p.1.isNan
  let pinf := prods.any fun p => decide (p.1 = .inf false)
  let ninf := prods.any fun p => decide (p.1 = .inf true)
  let flags := flagIf (bad || (pinf && ninf)) fNv
  if anyNan || (pinf && ninf) then (.nan, flags)
  else if pinf then (.inf false, 0)
  else if ninf then (.inf true, 0)
  else ((Val.sum mode (prods.map (·.1))).1, 0)

/-- Two's-complement reading of the low n bits. -/
def sx (n x : Nat) : Int := if x % 2 ^ n < 2 ^ (n - 1) then (x % 2 ^ n : Int) else (x % 2 ^ n : Int) - 2 ^ n

/-- The low n bits of an integer as a natural number. -/
def wrap (n : Nat) (x : Int) : Nat := (x % (2 : Int) ^ n).toNat

/-- The value of an integer. -/
def Val.ofInt (x : Int) : Val := .fin (decide (x < 0)) x.natAbs 0

/-- A finite value rounded to an integer under a mode: the integer and whether it is inexact. -/
def roundInt (mode : Nat) (neg : Bool) (mant : Nat) (exp : Int) : Int × Bool :=
  let (k, i) := roundAt mode neg mant exp 0
  (if neg then -(k : Int) else k, i)

/-- Conversion to a two's-complement integer of n bits (R51). Magnitudes beyond 2^64 are out of range whatever their bits. -/
def toInt (n mode : Nat) (sat : Bool) : Val → Nat × FlagSet
  | .nan => (if sat then 0 else 2 ^ (n - 1), fNv)
  | .inf neg => (if sat then (if neg then 2 ^ (n - 1) else 2 ^ (n - 1) - 1) else 2 ^ (n - 1), fNv)
  | .fin neg m e =>
    let big := decide (m ≠ 0 ∧ 64 ≤ floorLog m e)
    let (k, i) := if big then ((if neg then -(2 ^ 64 : Int) else 2 ^ 64), false) else roundInt mode neg m e
    if k < -(2 : Int) ^ (n - 1) ∨ (2 : Int) ^ (n - 1) ≤ k then
      (if sat then (if neg then 2 ^ (n - 1) else 2 ^ (n - 1) - 1) else 2 ^ (n - 1), fNv)
    else (wrap n k, flagIf i fNx)

/-- The value of an element of a type code 0 to 6 (R45, R46). -/
def elemVal (ty b : Nat) : Val :=
  if ty = 0 then Val.ofInt (sx 32 b) else if ty = 6 then Val.ofInt (sx 8 b) else (fmtOf ty).val b

/-- A value converted to a type code 0 to 6 (R47 to R52). -/
def convTo (ty mode : Nat) (sat : Bool) (v : Val) : Nat × FlagSet :=
  if ty = 0 then toInt 32 mode sat v else if ty = 6 then toInt 8 mode sat v else (fmtOf ty).round mode sat v

/-- The exact pairs of R52: every input value, specials included, is represented, so that the S form's rule for infinities does not apply. -/
def exactPair (src dst : Nat) : Bool :=
  (src = 2 || src = 3) && dst = 1 || (src = 4 || src = 5) && (dst = 1 || dst = 2 || dst = 3)
    || src = 6 && (dst = 0 || dst = 1 || dst = 2 || dst = 3)

/-- Conversion of an element between type codes (R52). -/
def convert (src dst mode : Nat) (sat : Bool) (b : Nat) : Nat × FlagSet := convTo dst mode (sat && !exactPair src dst) (elemVal src b)

/-! Functions of R121: the exact value, carried as a mantissa whose lowest bit is sticky. -/

/-- floor of the square root, by binary digits from 2^k down. -/
def isqrtFrom : Nat → Nat → Nat → Nat
  | 0, n, r => if (r + 1) * (r + 1) ≤ n then r + 1 else r
  | k + 1, n, r =>
    let t := r + 2 ^ (k + 1)
    isqrtFrom k n (if t * t ≤ n then t else r)

/-- floor of the square root. -/
def isqrt (n : Nat) : Nat := isqrtFrom (Nat.log2 n / 2 + 1) n 0

/-- A quotient of magnitudes with 80 bits and a sticky bit. -/
def divMag (ma : Nat) (ea : Int) (mb : Nat) (eb : Int) : Nat × Int :=
  let k := 80 + Nat.log2 mb
  let q := (ma <<< k) / mb
  (2 * q + (if q * mb = ma <<< k then 0 else 1), ea - eb - k - 1)

/-- FDIV (R121). -/
def Val.div : Val → Val → Val × FlagSet
  | .nan, _ => (.nan, 0)
  | _, .nan => (.nan, 0)
  | .inf _, .inf _ => (.nan, fNv)
  | .inf a, .fin b _ _ => (.inf (a != b), 0)
  | .fin a _ _, .inf b => (Val.zero (a != b), 0)
  | .fin a ma ea, .fin b mb eb =>
    if mb = 0 then (if ma = 0 then (.nan, fNv) else (.inf (a != b), fDz))
    else if ma = 0 then (Val.zero (a != b), 0)
    else
      let (m, e) := divMag ma ea mb eb
      (.fin (a != b) m e, 0)

/-- FSQRT (R121). -/
def Val.sqrt : Val → Val × FlagSet
  | .nan => (.nan, 0)
  | .inf n => if n then (.nan, fNv) else (.inf false, 0)
  | .fin n m e =>
    if m = 0 then (Val.zero n, 0)
    else if n then (.nan, fNv)
    else
      let sh := 160 + (e % 2).toNat
      let a := m <<< sh
      let r := isqrt a
      (.fin false (2 * r + (if r * r = a then 0 else 1)) ((e - sh) / 2 - 1), 0)

/-- FRSQ (R121). -/
def Val.rsqrt : Val → Val × FlagSet
  | .nan => (.nan, 0)
  | .inf n => if n then (.nan, fNv) else (Val.zero false, 0)
  | .fin n m e =>
    if m = 0 then (.inf n, fDz)
    else if n then (.nan, fNv)
    else
      let p := if e % 2 = 0 then (m, e) else (2 * m, e - 1)
      let r := isqrt (2 ^ 320 / p.1)
      (.fin false (2 * r + (if r * r * p.1 = 2 ^ 320 then 0 else 1)) (-160 - p.2 / 2 - 1), 0)

/-- Product of the roots 2^(2^-i) selected by the bits of a fraction, in fixed point with 256 fraction bits: bits counted from the
highest; c is the current root. -/
def exp2Frac : Nat → Nat → Nat → Nat → Nat
  | 0, _, _, acc => acc
  | k + 1, frac, c, acc =>
    let c' := isqrt (c <<< 256)
    exp2Frac k frac c' (if (frac >>> k) % 2 = 1 then (acc * c') >>> 256 else acc)

/-- FEXP2 (R121); a non-integral result is irrational, so its sticky bit is set. -/
def Val.exp2 : Val → Val × FlagSet
  | .nan => (.nan, 0)
  | .inf n => (if n then Val.zero false else .inf false, 0)
  | .fin n m e =>
    if m = 0 then (.fin false 1 0, 0)
    else if 12 ≤ floorLog m e then (.fin false 1 (if n then -5000 else 5000), 0)
    else if 0 ≤ e then
      let k : Int := ((m <<< e.toNat : Nat) : Int)
      (.fin false 1 (if n then -k else k), 0)
    else
      let d := (-e).toNat
      let k : Int := if n then -(((m + 2 ^ d - 1) >>> d : Nat) : Int) else ((m >>> d : Nat) : Int)
      let frac := if n then (2 ^ d - m % 2 ^ d) % 2 ^ d else m % 2 ^ d
      if frac = 0 then (.fin false 1 k, 0)
      else (.fin false (2 * exp2Frac d frac (2 ^ 257) (2 ^ 256) + 1) (k - 257), 0)

/-- Binary digits of log2 of a number in [1, 2) with 320 fraction bits, by repeated squaring. -/
def log2Frac : Nat → Nat → Nat → Nat
  | 0, _, acc => acc
  | k + 1, y, acc =>
    let s := (y * y) >>> 320
    if 2 ^ 321 ≤ s then log2Frac k (s / 2) (2 * acc + 1) else log2Frac k s (2 * acc)

/-- FLOG2 (R121). -/
def Val.log2 : Val → Val × FlagSet
  | .nan => (.nan, 0)
  | .inf n => if n then (.nan, fNv) else (.inf false, 0)
  | .fin n m e =>
    if m = 0 then (.inf true, fDz)
    else if n then (.nan, fNv)
    else
      let k := floorLog m e
      if m = 2 ^ Nat.log2 m then (Val.ofInt k, 0)
      else
        let frac := log2Frac 128 ((m <<< 320) >>> Nat.log2 m) 0
        let t : Int := k * 2 ^ 128 + frac
        if 0 ≤ t then (.fin false (2 * t.toNat + 1) (-129), 0)
        else (.fin true (2 * ((-t).toNat - 1) + 1) (-129), 0)

/-- a × 2^n (R118). -/
def Val.scale (n : Int) : Val → Val
  | .fin s m e => .fin s m (e + n)
  | v => v

/-! Scaled block formats (R40 to R44, R54 to R56). -/

/-- Twice the magnitude of an E2M1 code (R41). -/
def e2m1Half (code : Nat) : Nat := [0, 1, 2, 3, 4, 6, 8, 12].getD (code % 8) 0

/-- The E2M1 code of a magnitude given in halves. -/
def e2m1Code (half : Nat) : Nat := [0, 1, 2, 3, 4, 4, 5, 5, 6, 6, 6, 6, 7].getD half 7

/-- The value of an element code under scale byte S and extra byte X, as mx4 or bx4 (R42). -/
def fp4Val (bx : Bool) (s x code : Nat) : Val :=
  if s % 256 = 255 then .nan
  else
    let sc : Int := (s % 256 : Nat) - 127
    if bx && decide (code % 16 = 8) then (e4m3.val (x % 256)).scale sc
    else .fin (decide (8 ≤ code % 16)) (e2m1Half code) (sc - 1)

/-- A quantized block: codes, scale, extra byte, flags. -/
structure QBlock where
  codes : List Nat
  s : Nat
  x : Nat
  flags : FlagSet
  deriving DecidableEq, Repr

/-- |x − y| ordered against |u − v|: is the first difference smaller? All values finite. -/
def diffLt (x y u v : Val) : Bool :=
  ((Val.add 0 x (y.flip true)).1).abs.lt false ((Val.add 0 u (v.flip true)).1).abs

/-- The larger magnitude. -/
def maxAbs : List Val → Val
  | [] => Val.zero false
  | v :: vs =>
    let r := maxAbs vs
    if r.lt false v.abs then v.abs else r

/-- The scale exponent e of R54. -/
def scaleExp (vs : List Val) : Int :=
  match maxAbs vs with
  | .fin _ m e => if m = 0 then -127 else max (-127) (floorLog m e - 2)
  | _ => -127

/-- v / 2^e rounded to E2M1 and clamped: halves of the magnitude, whether the rounding was inexact (R54). -/
def e2m1Round (mode : Nat) (e : Int) (v : Val) : Nat × Bool :=
  match v with
  | .fin n m x =>
    if m = 0 then (0, false)
    else
      let q := max (floorLog m (x - e) - 1) (-1)
      let (k, i) := roundAt mode n m (x - e) q
      let h := k <<< (q + 1).toNat
      (min h 12, i || decide (12 < h))
  | _ => (0, false)

/-- Sources of a quantizer with infinities saturated in the S form (R54). -/
def quantSat (src : Fmt) (sat : Bool) (v : Val) : Val :=
  match v with
  | .inf n => if sat then src.val (src.signed n src.maxFin) else v
  | _ => v

/-- A number for a value. -/
def Val.code : Val → Nat
  | .nan => 0
  | .inf n => 1 + n.toNat
  | .fin n m e => 4 + n.toNat + 2 * (m * 4096 + (e + 2048).toNat)

/-- The quantizers of R54 (mx4) and R55 (bx4) over 32 values of a source format. A bx4 block that R54 ends with S = 0xFF has no X that any rule gives: it is a
free value of the sources (log 97). -/
def quantize (bx : Bool) (src : Fmt) (mode : Nat) (sat : Bool) (vs0 : List Val) : QBlock :=
  let anyInf := !sat && vs0.any Val.isInf
  if vs0.any Val.isNan || anyInf then
    { codes := vs0.map fun _ => 0, s := 255, x := if bx then (Config.nanBlockX (vs0.foldl (fun k v => k * 2 ^ 64 + v.code) 0)).toNat else 0
      flags := flagIf anyInf fNv }
  else
    let vs := vs0.map (quantSat src sat)
    let e := scaleExp vs
    let qs := vs.map fun v => (v, e2m1Round mode e v)
    let codes := qs.map fun (v, h, _) => if h = 0 then 0 else e2m1Code h + (if v.neg? then 8 else 0)
    let s := (e + 127).toNat
    if !bx then
      { codes := codes, s := s, x := 0,
        flags := flagIf (qs.any fun (_, _, i) => i) fNx ||| flagIf (qs.any fun (v, h, _) => !v.isZero && decide (h = 0)) fUf }
    else
      let dec := fun (v : Val) (h : Nat) => (Val.fin v.neg? h (e - 1))
      let errs := qs.map fun (v, h, _) => (v, dec v h)
      let j := errs.foldl (fun (b : Option (Val × Val)) p =>
        match b with
        | none => some p
        | some c => if diffLt c.1 c.2 p.1 p.2 then some p else b) none
      match j with
      | none => { codes := codes, s := s, x := 0, flags := 0 }
      | some (vj, qj) =>
        if !((Val.zero false).lt false ((Val.add 0 vj (qj.flip true)).1).abs) then { codes := codes, s := s, x := 0, flags := 0 }
        else
          let x := (e4m3.round mode false (vj.scale (-e))).1
          let xv := (e4m3.val x).scale e
          let out := (codes.zip errs).map fun (c, v, q) =>
            if diffLt v xv v q then (8, v, xv) else (c, v, q)
          { codes := out.map (·.1), s := s, x := x,
            flags := flagIf (out.any fun (_, v, q) => (Val.zero false).lt false ((Val.add 0 v (q.flip true)).1).abs) fNx
              ||| flagIf (out.any fun (_, v, q) => !v.isZero && q.isZero) fUf }

/-! The fixed-point cell (R57 to R59). -/

/-- Saturation of an integer into n-bit two's complement: the value and whether it saturated. -/
def satInt (n : Nat) (x : Int) : Int × Bool :=
  if (2 : Int) ^ (n - 1) ≤ x then (2 ^ (n - 1) - 1, true) else if x < -(2 : Int) ^ (n - 1) then (-(2 : Int) ^ (n - 1), true) else (x, false)

/-- Scale E and integer I of a cell (R57). -/
def cellE (c : BitVec 128) : Int := sx 13 (bitsOf c.toNat 124 112)
def cellI (c : BitVec 128) : Int := sx 112 c.toNat

/-- A finite addend in units of a cell's 2^E, rounded alone (R58). One above 2^200 saturates as any larger one does. -/
def cellQ (c : BitVec 128) (x : Val) : Int :=
  match x with
  | .fin n m e =>
    let e' := e - cellE c
    if m = 0 then 0
    else if 200 ≤ floorLog m e' then (if n then -(2 : Int) ^ 200 else 2 ^ 200) else (roundInt 0 n m e').1
  | _ => 0

/-- An addend entering a cell (R58). -/
def cellAdd (c : BitVec 128) (x : Val) : BitVec 128 :=
  match x with
  | .nan => c ||| (1 <<< 126)
  | .inf _ => c ||| (1 <<< 125)
  | .fin n m e =>
    let (i, sat) := satInt 112 (cellI c + cellQ c (.fin n m e))
    let hi := c.toNat / 2 ^ 112
    BitVec.ofNat 128 (hi * 2 ^ 112 + wrap 112 i) ||| (if sat then 1 <<< 127 else 0)

/-- A list in an order that a free number picks (log 5). -/
def pickOrder {α : Type} : Nat → Nat → List α → List α
  | 0, _, _ => []
  | fuel + 1, k, l =>
    match l[k % l.length]? with
    | none => []
    | some a => a :: pickOrder fuel (k / l.length) (l.eraseIdx (k % l.length))

/-- Addends entering a cell: the same in every order unless some order saturates; then in the order of a free number (R58, log 5). -/
def cellSum (order : Nat) (c : BitVec 128) (xs : List Val) : BitVec 128 :=
  let qs := xs.map (cellQ c)
  let far := fun (keep : Int → Bool) => (satInt 112 (cellI c + (qs.filter keep).sum)).2
  (if far (fun q => decide (0 < q)) || far (fun q => decide (q < 0)) then pickOrder xs.length order xs else xs).foldl cellAdd c

/-- The read-out of a cell as a value (R59). -/
def cellVal (c : BitVec 128) : Val :=
  if (c.toNat / 2 ^ 125) % 4 ≠ 0 then .nan
  else
    let i := cellI c
    .fin (decide (i < 0)) i.natAbs (cellE c)

/-- f32 read-out with ovf, nans, infs in bits 34 to 32 (R335, R260). -/
def cellRead (c : BitVec 128) : W64 :=
  BitVec.ofNat 64 ((f32.round 0 false (cellVal c)).1 + c.toNat / 2 ^ 125 * 2 ^ 32)

/-- A cell with scale E and I = 0 (R334). -/
def cellNew (e : BitVec 13) : BitVec 128 := BitVec.ofNat 128 (e.toNat * 2 ^ 112)

/-- The addends that one 32-bit lane gives a cell under a type code 0 to 3 (R328). -/
def redVals (ty : Nat) (x : W32) : List Val :=
  if ty = 0 then [Val.ofInt x.toInt] else if ty = 1 then [f32.val x.toNat]
  else [(fmtOf ty).val (x.toNat % 65536), (fmtOf ty).val (x.toNat / 65536)]

/-! Semirings (R63, R64). -/

/-- Identity of ⊕ as 32 bits (R63). -/
def ringIdentity (r : Nat) : W32 := if r = 1 then 0x7F800000 else if r = 2 ∨ r = 3 then 0xFF800000 else 0

/-- Combination of a chunk of pairs under semirings 1 to 3 (R64): the exact p and its flags. A NaN factor comes first in the order of R64 and leaves no flag. -/
def ringChunk (r mode : Nat) (ps : List (Val × Val)) : Val × FlagSet :=
  if ps.any fun (a, b) => a.isNan || b.isNan then (.nan, 0)
  else
    let ts := ps.map fun (a, b) => if r = 3 then Val.mul a b else Val.add mode a b
    let fl := ts.foldl (fun f t => f ||| t.2) 0
    match ts.map (·.1) with
    | [] => (.nan, fl)
    | v :: vs => (vs.foldl (Val.minmax (decide (r ≠ 1))) v, fl)

/-- One chunk merged into an accumulator (R60, R61, R63, R64): semiring, type code, accumulator bits, the pairs as values and as raw
integers. -/
def mergeChunk (r ty mode : Nat) (acc : W32) (ps : List (Val × Val)) : W32 × FlagSet :=
  if r = 4 then
    (if acc ≠ 0 ∨ ps.any (fun (a, b) => !a.isZero && !b.isZero) = true then 1 else 0, 0)
  else if ty = 6 then
    let s : Int := ps.foldl (fun t (a, b) =>
      match (Val.mul a b).1 with
      | .fin n m e => t + (if n then -((m <<< e.toNat : Nat) : Int) else ((m <<< e.toNat : Nat) : Int))
      | _ => t) 0
    (BitVec.ofInt 32 (acc.toInt + s), 0)
  else if r = 0 then
    let (p, fl) := Val.dot mode ps
    if p.isZero then
      (if (f32.val acc.toNat).isNan then BitVec.ofNat 32 f32.nan else acc, fl)
    else
      let (t, g) := Val.add mode (f32.val acc.toNat) p
      let (b, h) := f32.round mode false t
      (BitVec.ofNat 32 b, fl ||| g ||| h)
  else
    let (p, fl) := ringChunk r mode ps
    let (pb, g) := f32.round mode false p
    let v := Val.minmax (decide (r ≠ 1)) (f32.val acc.toNat) (f32.val pb)
    (BitVec.ofNat 32 (f32.round mode false v).1, fl ||| g)

end Sys2Proof.Machine
end

