-- ==== Sys2Proof/Machine/State.lean ====
section
/-! DEFINITION. The state of one K4 module as plain data: cores, sequencers, ports, engines, tasks, graphs, the registers of
every block, the memories, and the model's own bookkeeping fields (agenda, inputs, focus, free; notes/assumptions/3.md, 5.md, 7.md). -/
namespace Sys2Proof.Machine

/-- Why a step can stop. -/
inductive Fault where
  /-- Raised by step when the bytes at a fetch place are no instruction of the plane (R78: the loader lets none run). Safe. -/
  | reservedWord (plane : Nat)
  deriving DecidableEq, Repr

/-- Why a step can be refused. -/
inductive Refusal where
  /-- Raised by exec for an instruction that has no meaning yet. Safe. -/
  | notModelled (mnemonic : String)
  deriving DecidableEq, Repr

/-- A vector register or link value: sixteen lanes and their validity bits (R11). -/
structure VReg where
  lanes : Lanes := 0
  valid : W16 := 0
  deriving DecidableEq, Repr

/-- A scalar register (R11). -/
structure SReg where
  val : W64 := 0
  valid : Bool := true
  deriving DecidableEq, Repr

/-- A link input with its key flag (R141) and the source address of a keyed beat (R150). -/
structure LinkIn where
  v : VReg := {}
  key : Bool := false
  src : W64 := 0
  deriving DecidableEq, Repr

/-- A narrow-plane token (R11). -/
structure Tok where
  val : W32 := 0
  valid : Bool := false
  deriving DecidableEq, Repr

/-- A weight register with its key flag (R32). -/
structure WReg where
  val : Lanes := 0
  key : Bool := false
  deriving DecidableEq, Repr

/-- An entry record of the stage history (R11, R16). -/
structure HRec where
  live : Bool := false
  sched : Bool := false
  tag : W16 := 0
  deriving DecidableEq, Repr

/-- Where a result goes inside its core (R70). -/
inductive DestReg where
  | none
  | vec (phys : Nat)
  | scal (n : Nat)
  deriving DecidableEq, Repr

/-- A result of an element word: register, lanes, validity, the lanes it changes, the sides it is forwarded on (bit 3 N, 2 E, 1 S,
0 W as R67), the plane, whether the forward is the whole register (R109), its key flag and source, its cfr flags, and whether the word
stands in an odd slot of a folded image (R229). -/
structure Result where
  reg : DestReg := .none
  lanes : Lanes := 0
  valid : W16 := 0
  mask : W16 := 0xFFFF
  sides : BitVec 4 := 0
  narrow : Bool := false
  whole : Bool := false
  key : Bool := false
  src : W64 := 0
  flags : BitVec 5 := 0
  odd : Bool := false
  deriving DecidableEq, Repr

/-- What lands at the end of a latency (R94, R28, R133, R142, R143). -/
inductive LandAct where
  | result (r : Result)
  | store (cells : List Host.Cell)
  | ctl (index : Nat) (val : W64)
  | weight (n : Nat) (val : Lanes) (key : Bool)
  | wsel
  deriving DecidableEq, Repr

/-- A result in flight: remaining cycles (bubbles not counted, R25) and the interval it was issued in. -/
structure Flight where
  left : Nat
  iv : Nat := 0
  act : LandAct
  deriving DecidableEq, Repr

/-- A forwarded value on its hop (R212): its delay, the cycle in which it landed on the producer's own core and that core's skew, and the side of
the receiver (0 N, 1 E, 2 S, 3 W), plus 4 for the odd virtual page of a folded image (R229). -/
structure Arrival where
  hop : Nat
  at_ : Nat := 0
  skew : Nat := 0
  side : Nat
  narrow : Bool := false
  v : VReg := {}
  key : Bool := false
  src : W64 := 0
  deriving DecidableEq, Repr

/-- The macro resume record of R386: the word, the operand values with die fields resolved, and the trap point of the copy. -/
structure MacroRec where
  word : W64 := 0
  xa : W64 := 0
  xb : W64 := 0
  xd : W64 := 0
  deriving DecidableEq, Repr

/-- A running tile macro copy (R182 to R185): its record, element count, sampled rm and f4, next completion cycle,
and whether that element's data are already on their way. -/
structure MacroRun where
  m : MacroRec := {}
  count : Nat := 0
  rm : BitVec 2 := 0
  f4 : Bool := false
  due : Nat := 0
  waited : Bool := false
  deriving DecidableEq, Repr

/-- An entry of the carry undo buffer (R318): sector offset and its previous 128 bytes. -/
structure Undo where
  off : Nat
  bytes : List Byte
  deriving DecidableEq, Repr

/-- A place of a byte: HBM by die and physical address (R289), the scratchpad of a core of the task's region (R278), or memory of
another device under a context tag (R394, log 6). -/
inductive Loc where
  | hbm (die pa : Nat)
  | sp (rp core off : Nat)
  | peer (ctag va : Nat)
  deriving DecidableEq, Repr

/-- An entry of the reduction queue (R329): target virtual address and place, whether a cell (AREDF), the element type and the addends. -/
structure RedEntry where
  va : W64
  loc : Loc
  cell : Bool
  ty : Nat
  addends : List W32
  deriving DecidableEq, Repr

/-- A write of the core's own into its scratchpad in this superstep (R309, R359): offset, phase, value before and after, and whether it was the
page sequencer's XST (R331). -/
structure OwnWrite where
  xst : Bool := false
  off : Nat
  phase : Nat
  old : Byte
  new : Byte
  deriving DecidableEq, Repr

/-- A cached line by its physical place, with recency and, for a fused cache, the sectors marked by a store (R282, R284, R308). -/
structure L1Line where
  die : Nat
  line : Nat
  used : Nat
  marked : Bool := false
  deriving DecidableEq, Repr

/-- One core (R11). Physical rotating register 8 + j is element 8 + j of v; entry 0 of hist is the newest. Link inputs stand in the
order N, E, S, W; the second four serve the odd virtual page of a folded image (R229), which fold marks. got names the window and entry of each
beat that the weight port has delivered to the idle bank (R222, R224), kbsrc the source address of each beat in a keyed bank (R281). -/
structure Core where
  v : List VReg := List.replicate 8 ({ valid := 0xFFFF } : VReg) ++ List.replicate 32 ({} : VReg)
  s : List SReg := List.replicate 8 {}
  k : List Lanes := List.replicate 4 0
  lin : List LinkIn := List.replicate 8 {}
  qin : List Tok := List.replicate 8 {}
  fold : Bool := false
  m : List (BitVec 32768) := List.replicate 8 0
  mshape : List W32 := List.replicate 8 0x0FFF
  w : List WReg := List.replicate 16 {}
  wsel : Bool := false
  ready : Bool := true
  got : List (BitVec 512 × Nat) := []
  ctab : List (BitVec 45) := List.replicate 64 0
  hist : List HRec := List.replicate 32 {}
  rbase : BitVec 5 := 0
  cfr : W32 := 0
  ckb : Byte := 0
  kbsrc : List (Nat × W64) := []
  mprog : W64 := 0
  kprog : W32 := 0
  sp : List Host.Cell := []
  cc : List Host.Cell := []
  undo : List Undo := []
  undoOut : Bool := false
  redq : List RedEntry := []
  redResv : Nat := 0
  flight : List Flight := []
  arrive : List Arrival := []
  l1 : List L1Line := []
  mres : Option MacroRec := none
  mrun : Option MacroRun := none
  fresh : List (Nat × Nat) := []
  wlog : List OwnWrite := []
  deriving DecidableEq, Repr

/-- A window of a stream port (R26): its pattern record, zero for none (R90), and whether it has yet to run (R172). -/
structure Win where
  pat : BitVec 512 := 0
  fresh : Bool := false
  deriving DecidableEq, Repr

/-- A FIFO entry of a port (R134 to R136, R353): data, the bytes inside the window's data (input) or to be written (output); its window's
pattern and entry number, and the cycle of its push; the event that its end marker signals; skip: SSKIP made it (output), or the beat is keyed
(weight port, R222). -/
structure Entry where
  data : BitVec 512 := 0
  mask : W64 := 0
  pat : BitVec 512 := 0
  idx : Nat := 0
  at_ : Nat := 0
  mark : Option Nat := none
  skip : Bool := false
  deriving DecidableEq, Repr

/-- A stream port (R26, R30). In a folded image orig names the virtual page and port that it stands for (R229). -/
structure Port where
  en : Bool := false
  out : Bool := false
  win0 : Win := {}
  win1 : Win := {}
  cur : Option Bool := none
  pos : Nat := 0
  fifo : List Entry := []
  resv : Nat := 0
  ended : Bool := false
  orig : Option (Nat × Nat) := none
  deriving DecidableEq, Repr

/-- An engine command slot (R354, R355). recs holds the records as read at issue; coll is a collective's number among
the slot's collectives of the superstep (R364); heldAt the cycle since which its element holds (R365). -/
structure Slot where
  elem : BitVec 48 := 0
  op : BitVec 8 := 0
  busy : Bool := false
  done : Bool := false
  held : Bool := false
  cancelled : Bool := false
  csticky : Bool := false
  word : W64 := 0
  recs : List (BitVec 512) := []
  fill : W64 := 0
  total : Nat := 0
  order : Nat := 0
  due : Nat := 0
  ctr : W64 := 0
  coll : Nat := 0
  heldAt : Nat := 0
  stopped : Bool := false
  deriving DecidableEq, Repr

/-- An ECOLL that a task has issued in its superstep (R364): region page, slot and number, what must agree with its matches, its source
record, and the bytes sent so far, which every member has received. -/
structure Coll where
  rp : Nat
  slot : Nat
  num : Nat
  key : List Nat
  src : BitVec 512
  sent : List Byte := []
  deriving DecidableEq, Repr

/-- A repeat stack entry (R156, R175). -/
structure RepE where
  first : Nat
  last : Nat
  left : Nat
  deriving DecidableEq, Repr

/-- What a sequencer word does at the end of its hold (R152): bytes written at the pieces of its accesses (XST, CELLINIT), a window installed on a port
(WIN), lines of constant caches by core (CFILL). -/
inductive SeqLand where
  | write (places : List (Loc × Nat)) (bytes : List Byte)
  | install (n : Nat) (k : Bool) (pat : BitVec 512)
  | fill (line : Nat) (data : List (Nat × List Byte))
  deriving DecidableEq, Repr

/-- What a sequencer word that has issued is holding for (R151 to R172): ready issues the word at pc; hold re-evaluates it each
cycle; mem waits for data until a cycle and then writes x register xd (none: writes nothing); land waits until a cycle and then
acts; kern a running kernel; join a
follower at KRUN; arrived an arrival counted at SSEND or LSYNC; queued a wait at an event's home; granted that wait; after: an event has completed the word in this cycle. -/
inductive Phase where
  | ready
  | until (c : Nat)
  | mem (due : Nat) (xd : Option (BitVec 5 × W64))
  | land (due : Nat) (act : SeqLand)
  | kern
  | join
  | arrived
  | queued
  | granted
  | parked
  | after
  deriving DecidableEq, Repr

/-- A drain record being assembled (R220): row tag, its bytes, which are written, and, once core 7's SDRN has issued, that cycle. -/
structure Drain where
  tag : W16
  data : BitVec 2048 := 0
  mask : BitVec 256 := 0
  ready : Option Nat := none
  deriving DecidableEq, Repr

/-- A feed segment with its validity, the cycle from which it counts (R218) and the event that its pop signals (R353). -/
structure Seg where
  data : BitVec 64 := 0
  valid : Bool := false
  from_ : Nat := 0
  mark : Option Nat := none
  deriving DecidableEq, Repr

/-- A page: sequencer (R12), ports, engine slots, matrix rows, header of its configuration, and its eight cores. wave is the wave word that the
sequencer sends in this cycle outside a kernel, 0 when none (R162, R182). spillPos is where sp6 has written the records of a spill: window and
first entry (R384). -/
structure Page where
  owner : Option Nat := none
  rp : Nat := 0
  mode : Bool := false
  ring : Nat := 0
  ii : Nat := 1
  stages : Nat := 1
  nwords : Nat := 0
  seqMem : List W64 := []
  pc : BitVec 11 := 0
  x : List W64 := List.replicate 32 0
  tid : W32 := 0
  tco : W64 := 0
  preq : W64 := 0
  pdl : W32 := 0
  sstep : W64 := 0
  kend : BitVec 2 := 0
  kport : Byte := 0
  user : W16 := 0
  rep : List RepE := []
  wimm : List W32 := List.replicate 64 0
  wload : List W32 := List.replicate 64 0
  latch : Bool := false
  kprog : W32 := 0
  phase : Phase := .ready
  since : Nat := 0
  halted : Option W32 := none
  yielded : Bool := false
  frozen : Bool := false
  running : Bool := false
  wave : W64 := 0
  spillPos : Option (BitVec 512 × Nat) := none
  ports : List Port := List.replicate 8 {}
  slots : List Slot := List.replicate 8 {}
  orders : Nat := 0
  feed : List Seg := []
  feedResv : Nat := 0
  feedSpace : Nat := 0
  drains : List Drain := []
  wfill : Nat := 0
  lastHash : List Byte := []
  lastPart : Nat := 0
  lastRp : Nat := 0
  cores : List Core := List.replicate 8 {}
  deriving DecidableEq, Repr

/-- An uncommitted byte of a version (R307, R312): place, writer index, order within its slot, value. -/
structure VCell where
  loc : Loc
  w : Nat
  ord : Nat
  val : Byte
  deriving DecidableEq, Repr

/-- A pending reduction at its home (R329). -/
structure Red where
  loc : Loc
  cell : Bool
  ty : Nat
  addends : List W32
  deriving DecidableEq, Repr

/-- A wave word of the lead's wire (R14): cycle it reaches the lead's core 0, fields, the wimm field that each region page gives it (R210), its
interval, whether it is the first of the kernel, and whether kprog still counts it (R34: a later KRUN has not set kprog to 0). -/
structure Wave where
  at_ : Nat
  live : Bool
  sched : Bool
  slot : Nat
  tag : W16
  ctl : BitVec 9 := 0
  wimm : List W32 := []
  iv : Nat
  first : Bool := false
  counts : Bool := true
  deriving DecidableEq, Repr

/-- A STEER condition on the narrow return path (R215): the cycle and the skew of its issue. -/
structure Steer where
  at_ : Nat
  skew : Nat
  cond : Bool
  deriving DecidableEq, Repr

/-- A running kernel of a region (R12, R23, R24, R158). next is the cycle of its next interval decision; recs are the newest entry
records; ends the completion cycle of each page once all intervals are decided; drain counts drain intervals left. -/
structure Kern where
  t0 : Nat
  trip : W64
  entered : W64 := 0
  base : W64 := 0
  intervals : Nat := 0
  sched : Bool := false
  yieldable : Bool := false
  drain : Option Nat := none
  next : Nat := 0
  recs : List HRec := []
  cause : BitVec 2 := 0
  kport : List (Nat × Byte) := []
  cutTag : Option W16 := none
  ends : List Nat := []
  deriving DecidableEq, Repr

/-- The task record as launched (R230). -/
structure TaskRec where
  prio : Nat := 0
  flags : BitVec 8 := 0
  config : W64 := 0
  wtab : W64 := 0
  wcount : Nat := 0
  bg : BitVec 8 := 0
  evbase : Nat := 0
  evcount : Nat := 0
  cev : Nat := 0
  cflags : BitVec 8 := 0
  lbase : W64 := 0
  lsize : W64 := 0
  tco : W64 := 0
  trips : W64 := 0
  pdl : W32 := 0
  carry : List (Nat × Nat) := []
  param : List W64 := []
  deriving DecidableEq, Repr

/-- A window table entry (R231). -/
structure WinEntry where
  page : Nat
  port : Nat
  win : Bool
  pat : BitVec 512
  deriving DecidableEq, Repr

/-- An effect of one copy of a dual-run pair that is done once for both (R247): the unit that issued it (32 × region page + 0 sequencer, 1 + n
port n, 9 + n engine slot n), its operands, and its result once it has been done. -/
structure DualOp where
  src : Nat
  ops : List Nat
  res : Option W64 := none
  deriving DecidableEq, Repr

/-- The states of a task (R234). -/
inductive TState where
  | queued | leaseWait | pageWait | loading | running | saved | ending | ended
  deriving DecidableEq, Repr

/-- A trap cause of this cycle (R371) with what its record names (R373). -/
structure Cause where
  cls : Nat
  code : Nat
  page : Nat := 0
  unit : Nat := 0
  flags : BitVec 8 := 0
  core : Nat := 0xFF
  lane : Nat := 0xFF
  slot : Nat := 0
  sched : Bool := false
  eslot : Nat := 0xFF
  tag : W16 := 0
  word : W64 := 0
  prog : W64 := 0
  addr : W64 := 0
  info : BitVec 128 := 0
  eword : BitVec 40 := 0
  snap : Bool := false
  deriving DecidableEq, Repr

/-- A trap record (R373): its cause, with the fields of the task and cycle at the freeze. -/
structure TrapRec where
  cause : Cause
  tid : Nat := 0
  ctag : Nat := 0
  tco : W64 := 0
  pc : BitVec 11 := 0
  sstep : W64 := 0
  cycle : Nat := 0
  seqst : W64 := 0
  deriving DecidableEq, Repr

/-- The launcher of a task: die, instance slot and generation of the instance (R256). -/
structure InstRef where
  die : Nat := 0
  slot : Nat := 0
  gen : Nat := 0
  deriving DecidableEq, Repr

/-- The image a task was checked with (R482): kept bytes and the signer hash of its library entry (R445). -/
structure Image where
  bytes : List Byte := []
  signer : List Byte := []
  folded : Bool := false
  deriving DecidableEq, Repr

/-- Who holds a request to a device that no route reaches (R398): a unit of a page, the boundary or end that a write waits for, or the Pintle's read
of the image. -/
inductive HeldUnit where
  | seq (page : Nat)
  | tile (page core : Nat)
  | engine (page slot : Nat)
  | port (page port : Nat)
  | bound
  | image
  deriving DecidableEq, Repr

/-- A task (R234) with everything the spec keeps for it. exit is its exit code, once region page 0 has halted (R163). -/
structure Task where
  tid : Nat
  part : Nat
  tenant : Nat
  rcd : TaskRec := {}
  wins : List WinEntry := []
  tco : W64 := 0
  inst : InstRef := {}
  launch : Nat := 0
  mset : Option Nat := none
  midx : Nat := 0
  mcount : Nat := 1
  state : TState := .queued
  level : Nat := 0
  qpos : Int := 0
  qsince : Nat := 0
  startSeq : Nat := 0
  die : Nat := 0
  img : Image := {}
  images : List Nat := []
  leaseOk : Bool := false
  leaseFault : Option Nat := none
  npages : Nat := 0
  pages : List Nat := []
  delta : List Nat := []
  charged : Nat := 0
  home : Option Nat := none
  loadDone : Option Nat := none
  restore : Bool := false
  ver : List VCell := []
  reds : List Red := []
  snap : List (Loc × Byte) := []
  phase : Nat := 0
  nonIdem : Bool := false
  seals : List (Bool × Nat × W64 × W64) := []
  claims : List (Nat × Nat) := []
  pins : List Nat := []
  causes : List Cause := []
  trap : Option TrapRec := none
  trapRead : Bool := false
  deadline : Option Nat := none
  frozenAt : Nat := 0
  preqAt : Option Nat := none
  preqCause : Nat := 0
  agedAt : Nat := 0
  kern : Option Kern := none
  waves : List Wave := []
  steers : List Steer := []
  localDue : Option Nat := none
  memSince : Nat := 0
  save : List Page := []
  saveSlot : Option (Nat × Nat) := none
  slotPages : List (Nat × Nat) := []
  saveGen : Nat := 0
  tampered : Bool := false
  check : List Page := []
  dual : Option Nat := none
  copyB : Bool := false
  mismatched : Bool := false
  dualOps : List DualOp := []
  fused : Bool := false
  endTrap : Bool := false
  ovfl : Bool := false
  failed : Option Nat := none
  held : List (HeldUnit × Nat) := []
  outEv : List (Nat × Nat) := []
  colls : List Coll := []
  exit : Option W32 := none
  deriving DecidableEq, Repr

/-- A version or snapshot sector held at a home slice (R314): the task of a version, whether a snapshot, place, whether spilled, and the tasks that
read a snapshot. -/
structure VSect where
  tid : Nat
  snap : Bool
  die : Nat
  sector : Nat
  part : Nat
  spilled : Bool
  readers : List Nat := []
  deriving DecidableEq, Repr

/-- A group boundary in progress (R311): partition, group, member set and the cycle it completes. -/
structure Bound where
  part : Nat
  bg : Nat
  mset : Nat
  due : Nat
  deriving DecidableEq, Repr

/-- A loop stack entry of a graph instance (R261). -/
structure GLoop where
  first : Nat
  fin : Nat
  left : Nat
  deriving DecidableEq, Repr

/-- A launch of an instance (R256, R258): number, the status its handle shows, its status, whether its step is open, ended counts (R259). -/
structure Launch where
  num : Nat
  shown : Nat := 0
  status : Nat := 0
  inStep : Bool := false
  left : Nat := 0
  bad : Nat := 0
  deriving DecidableEq, Repr

/-- A launch checked inside an open step (R258), kept until ENDSTEP queues it. -/
structure StepLaunch where
  num : Nat
  rcd : TaskRec
  wins : List WinEntry
  pages : Nat
  deriving DecidableEq, Repr

/-- What a graph word that holds is waiting for; store: a GST on its way to its home L2 (R254). -/
inductive GPhase where
  | ready
  | mem (due : Nat) (gd : Option (BitVec 4 × W64))
  | store (due : Nat) (loc : Loc) (bytes : List Byte)
  | queued
  | granted
  | hold
  | child (slot : Nat)
  | answered (code : Nat)
  | closing (code : Nat) (fault : Nat)
  deriving DecidableEq, Repr

/-- A graph instance (R249 to R268). -/
structure GInst where
  gen : Nat := 0
  live : Bool := false
  part : Nat := 0
  tenant : Nat := 0
  chan : Nat := 0
  obj : Nat := 0
  ver : Nat := 0
  idx : Nat := 0
  code : List W64 := []
  block : W64 := 0
  bsize : Nat := 0
  pc : Nat := 0
  g : List W64 := List.replicate 16 0
  loops : List GLoop := []
  evbase : Nat := 0
  evcount : Nat := 0
  cookie : W32 := 0
  phase : GPhase := .ready
  launches : List Launch := []
  nlaunch : Nat := 0
  stepOpen : Bool := false
  step : List StepLaunch := []
  patches : List (Nat × List (Nat × W64)) := []
  data : List (W16 × BitVec 320) := []
  faults : List Nat := []
  frdSeen : Bool := false
  leases : List (Nat × W64 × W64) := []
  leaseFault : Option Nat := none
  refused : Bool := false
  depth : Nat := 0
  parent : Option Nat := none
  heldSince : Option Nat := none
  deriving DecidableEq, Repr

/-- A graph object (R248, R270). -/
structure GObj where
  words : List W64 := []
  block : W64 := 0
  bsize : Nat := 0
  area : W64 := 0
  ver : Nat := 0
  deriving DecidableEq, Repr

/-- The sender of a wait request (R169). -/
inductive Waiter where
  | page (tid rp : Nat)
  | graph (die slot : Nat)
  deriving DecidableEq, Repr

/-- An event counter with its queue of waits (R169). -/
structure Event where
  count : W32 := 0
  queue : List (Waiter × Nat) := []
  deriving DecidableEq, Repr

/-- A message channel: its register (R471) with the device-side ring indices, and whether the current expected value has been
answered by a fault status (R273); closing: a ring access was refused and the channel is being closed (R472); hlast: the last host seq accepted (R272);
queued: packets accepted during a quiesce that have not acted yet (R425, log 63). -/
structure Chan where
  reg : BitVec 512 := 0
  hlast : Nat := 0
  closing : Bool := false
  hhead : Nat := 0
  dtail : Nat := 0
  faulted : Bool := false
  pending : List (BitVec 512) := []
  queued : List (BitVec 512) := []
  deriving DecidableEq, Repr

/-- The registers of one partition on one die (R408, R410, R415, R418, R422, R343). -/
structure PartDie where
  part : W64 := 0
  qos : W64 := 0x100
  s2root : W64 := 0
  s1root : List W64 := List.replicate 16 0
  s1inv : BitVec 144 := 0
  s2inv : BitVec 144 := 0
  cxm : BitVec 256 := 0
  lcxm : BitVec 256 := 0x7FFF7FFF7FFF7FFF7FFF7FFF7FFF7FFF7FFF7FFF7FFF7FFF7FFF7FFF7FFF7FFF
  l2pcnt : List (BitVec 128) := List.replicate 10 0
  deriving DecidableEq, Repr

/-- A library entry (R444). -/
structure LibE where
  kind : Byte
  hash : List Byte
  signer : List Byte
  deriving DecidableEq, Repr

/-- The scheduler of one partition on one Pintle (R237 to R243). -/
structure Sched where
  deficit : List Int := List.replicate 16 0
  ptr : List Nat := List.replicate 4 0
  deriving DecidableEq, Repr

/-- A partition: its registers (R468), events, seals, library, scheduler state, the cycle of its last compaction (R243), graph objects by die, and how many entries
its dirty log has taken in the current epoch (R424, R425). -/
structure Part where
  schw : List W32 := List.replicate 16 1
  schq : W32 := 20
  vspill : BitVec 128 := 0
  vstat : W64 := 0
  savearea : BitVec 128 := 0
  colltmo : W64 := 0x4000
  lfack : W64 := 0
  lm : BitVec 256 := 0
  tmbx : BitVec 128 := 0
  rring : BitVec 128 := 0
  chans : List Chan := List.replicate 64 {}
  dies : List PartDie := List.replicate 4 {}
  events : List (Nat × Event) := []
  seals : List (W64 × W64) := []
  lib : List LibE := []
  sched : List Sched := List.replicate 4 {}
  compacted : Option Nat := none
  objs : List (Nat × GObj) := []
  logged : Nat := 0
  deriving DecidableEq, Repr

/-- A line of an L2 slice (R285, R288, R290, R298); busy: its fill is in progress. -/
structure L2Line where
  line : Nat
  way : Nat
  part : Nat
  used : Nat
  filled : Nat
  evf : Bool := false
  ret : Option Nat := none
  cls : Nat := 0
  ctag : Nat := 0
  busy : Bool := false
  deriving DecidableEq, Repr

/-- A fill in progress (R288, R296): line, partition, the cycle in which HBM brings its data, the compression range it passes and whether its
line is hard; the cycle in which it takes its way and whether it has; the L2 cycles in which it joins and leaves the expander queue. -/
structure Fill where
  line : Nat
  part : Nat
  due : Nat
  rng : Option Nat := none
  hard : Bool := false
  start : Nat := 0
  taken : Bool := true
  join : Nat := 0
  out : Nat := 0
  deriving DecidableEq, Repr

/-- One L2 slice with its retention registers, the ways they own and their counters (R297, R342), and its expander queue (R296). -/
structure Slice where
  lines : List L2Line := []
  fills : List Fill := []
  xq : List Fill := []
  retain : List (BitVec 192) := List.replicate 8 0
  rcnt : List (BitVec 128) := List.replicate 8 0
  own : List (List Nat) := List.replicate 8 []
  deriving DecidableEq, Repr

/-- A combined translation held by a memory-side TLB (R396, R419): partition, tenant, VA page, lessee page, output page with its
global die, write permission, and whether pinned. -/
structure TlbE where
  part : Nat
  tenant : Nat
  vpn : Nat
  lpn : Nat
  out : Nat
  wr : Bool
  pinned : Bool := false
  deriving DecidableEq, Repr

/-- An invalidation of a die that is not acknowledged yet (R418, R419): partition, stage, the cycle from which its entries go, and, once they have gone, the pages
that they named. -/
structure Inv where
  part : Nat
  stage : Nat
  due : Nat
  gone : Option (List Nat) := none
  deriving DecidableEq, Repr

/-- A page migration of a die (R404 to R406): register, mask of marked sectors, sectors the round has yet to copy. -/
structure Mig where
  reg : BitVec 256 := 8 <<< 192 ||| 4 <<< 200
  mask : BitVec 512 := 0
  todo : List Nat := []
  due : Nat := 0
  deriving DecidableEq, Repr

/-- A compute die: its register block (R469), L2, TLB, Pintle and engine state: the cycle from which each engine unit is free, and the slot served last, 8 ×
page of the die + slot (R347). -/
structure Die where
  thome : List (BitVec 192) := List.replicate 8 (16 <<< 128)
  fmtrange : List (BitVec 256) := List.replicate 16 0
  cmprange : List (BitVec 320) := List.replicate 8 0
  cmpcnt : List (BitVec 128) := List.replicate 8 0
  mig : List Mig := List.replicate 4 {}
  hkstat : BitVec 128 := 0
  slices : List Slice := List.replicate 10 {}
  tlb : List TlbE := []
  walks : List (Nat × WalkReq) := []
  mcache : List Nat := []
  stamp : Nat := 0
  invs : List Inv := []
  insts : List GInst := List.replicate 64 {}
  served : Nat := 63
  nextWord : Nat := 0
  units : List Nat := List.replicate 4 0
  engLast : Nat := 319
  khz : Nat := 0
  deriving DecidableEq, Repr

/-- A page of the page ownership table that is not free (R440): class, owner, session, image. -/
structure PotE where
  cls : Nat
  owner : Nat
  sess : Nat := 0
  image : Nat := 0
  deriving DecidableEq, Repr

/-- A session (R450, R460). -/
structure Sess where
  id : Nat
  part : Nat
  tenant : Nat
  krx : List Byte := []
  ktx : List Byte := []
  srx : List Byte := []
  stx : List Byte := []
  crx : W64 := 1
  ctx : W64 := 1
  enc : Bool := true
  dec : Bool := true
  deriving DecidableEq, Repr

/-- An open model image (R446 to R448): header, key, chunks filled, the O pages in image order. -/
structure Model where
  part : Nat
  idx : Nat
  header : List Byte := []
  key : List Byte := []
  filled : Nat := 0
  pages : List (Nat × Nat) := []
  deriving DecidableEq, Repr

/-- Usage counters of one partition, tenant and image (R456). -/
structure Usage where
  part : Nat
  tenant : Nat
  image : Nat
  beats : W64 := 0
  kcols : W64 := 0
  deriving DecidableEq, Repr

/-- The security processor (R428 to R461). -/
structure Tumbler where
  pot : List (Nat × PotE) := []
  mreg : List (List Byte) := List.replicate 4 (List.replicate 48 0)
  sessions : List Sess := []
  models : List Model := []
  usage : List Usage := []
  tenants : List (Nat × W64 × W64 × W64) := []
  modelIds : List (Nat × List Byte) := []
  seq : W64 := 0
  boots : Nat := 0
  nonce : List Byte := []
  slots : List (List Byte) := [[], []]
  fwDue : Option Nat := none
  debug : Bool := false
  queue : List Nat := []
  reports : List (Nat × List Byte) := []
  hold : Nat := 0
  deriving DecidableEq, Repr

/-- A page of another device for which that device refuses requests under a context tag, reads or writes, with the trap (R395, log 6). -/
structure Refused where
  ctag : Nat
  page : Nat
  write : Bool
  cls : Nat
  code : Nat
  deriving DecidableEq, Repr

/-- What a member set of another device has written here and not committed (R400). -/
structure Guest where
  ctag : Nat
  set : Nat
  cells : List VCell := []
  deriving DecidableEq, Repr

/-- Where a flit that this device sends goes: to a global die (R394; the first of a device for an export, R460), or back on the link that a request came by. -/
inductive FlitDest where
  | die (g : Nat)
  | link (n : Nat)
  deriving DecidableEq, Repr

/-- Device-level registers (R470, R393, R398, R436, R431, R417, R474, R459). -/
structure Device where
  ident : W64 := 0
  domid : W32 := 0x3FFF
  domlto : W64 := 0x4000
  fwst : W64 := 0
  tmbx : BitVec 128 := 0
  lfack : W64 := 0
  rring : BitVec 128 := 0
  links : List W64 := List.replicate 64 0xFFFC
  deriving DecidableEq, Repr

/-- What the outside world does (24 R466 to R479; log 7), and the Tumbler's setting of ckb bits of a core (R29, R281; log 82). -/
inductive Input where
  | write (w : RegWr)
  | event (e : Ev)
  | keyBanks (page core : Nat) (mask : Byte)
  deriving DecidableEq, Repr

/-- Which unit moves next (log 3): landings of a core; an element word of a core (side 1: the side slot, R144); a sequencer word; a
graph word; a mailbox command; a packet of a channel; a register write; an event. -/
inductive Turn where
  | land (page core : Nat)
  | word (page core side : Nat)
  | seq (page : Nat)
  | graph (die slot : Nat)
  | command (fn : Nat)
  | packet (part chan : Nat)
  | write (w : RegWr)
  | event (e : Ev)
  deriving DecidableEq, Repr

/-- The unit that issues the current word (log 3): page, core, and for an element word the record it acts for (R16) and the wimm field of its wave
word (R14); die and slot of a graph instance; the engine unit that serves a command (R347); the register access and the event in progress. -/
structure Focus where
  page : Nat := 0
  core : Nat := 0
  slot : Nat := 0
  sched : Bool := false
  live : Bool := false
  tag : W16 := 0
  iv : Nat := 0
  wimm : W32 := 0
  die : Nat := 0
  inst : Nat := 0
  unit : Nat := 0
  wr : RegWr := {}
  ev : Ev := .coldReset
  deriving DecidableEq, Repr

/-- What the Tumbler has copied to a destination in the final round of a partition's migration (R425): partition, domain physical page, sectors and their bytes,
which leave encrypted. -/
structure Moved where
  part : Nat
  page : Nat
  mask : BitVec 512
  data : List Byte
  deriving DecidableEq, Repr

/-- The whole module. -/
structure State where
  cycle : Nat := 0
  agenda : List Turn := []
  inputs : List (Nat × Input) := []
  focus : Focus := {}
  free : Nat := 0
  pages : List (Nat × Page) := []
  tasks : List (Nat × Task) := []
  nextTid : Nat := 1
  nextSet : Nat := 1
  nextStart : Nat := 0
  parts : List Part := List.replicate 16 {}
  dies : List Die := List.replicate 4 {}
  dev : Device := {}
  tum : Tumbler := {}
  hbm : List Host.Cell := []
  slotImg : List (Nat × Nat × Nat × Nat) := []
  peer : List (Nat × List Host.Cell) := []
  vsects : List VSect := []
  bounds : List Bound := []
  noRoute : List Nat := []
  refused : List Refused := []
  guests : List Guest := []
  flitsOut : List (FlitDest × FlitBody) := []
  sent : List (Nat × Nat × Nat) := []
  rxFlits : List (Nat × Nat) := []
  dgrams : List (Nat × Nat) := []
  errs : List HwSite := []
  soft : List HwSite := []
  staged : List (Nat × Nat × W32) := []
  irqs : List (Nat × Nat) := []
  debugOut : List Byte := []
  moved : List Moved := []
  deriving DecidableEq, Repr

/-- Extension of a measurement register (R434). -/
def mregExtend (m d : List Byte) : List Byte := sha384 (m ++ d)

/-- Does the firmware image in a slot carry its signature (R437)? The last 16,608 bytes are the dual signature (R429). -/
def slotSigned (img : List Byte) : Bool :=
  Config.dualVerify Config.firmwareKeys (img.take (img.length - 16608)) (img.drop (img.length - 16608))

/-- The module as a cold reset leaves it (R434, R437, R443, R456, R475, R476): everything at its value after reset, the firmware slots and
the version floor as they are fused, the slot that act names booted, or the other with rb set when its signature fails. boots counts the
cold resets; inputs, other devices' memory and the counter of free values belong to the outside. -/
def State.cold (boots : Nat) (act : Bool) (floor : BitVec 16) (slots : List (List Byte)) : State :=
  let good := slotSigned (slots.getD act.toNat [])
  let run := if good then act else !act
  let img := slots.getD run.toNat []
  let debug := Config.debugUnlocked boots
  let zero := List.replicate 48 (0 : Byte)
  let m0 := mregExtend (mregExtend (mregExtend zero (Config.fwDigest 0 [])) (Config.fwDigest 1 img)) [if debug then 1 else 0]
  { dev :=
      { ident := BitVec.ofNat 64 (0x4B34 + Config.fusedStep.toNat * 2 ^ 16 + 0xF * 2 ^ 24)
        fwst := BitVec.ofNat 64 (run.toNat + (!good).toNat * 16 + floor.toNat * 2 ^ 16
          + (Config.fwVersion (slots.getD 0 [])).toNat * 2 ^ 32 + (Config.fwVersion (slots.getD 1 [])).toNat * 2 ^ 40) }
    tum :=
      { mreg := [m0, mregExtend zero (Config.fwDigest 2 img), zero, zero]
        boots := boots
        nonce := (List.range 32).map fun i => (Config.bootNonce boots).extractLsb' (8 * i) 8
        slots := slots
        debug := debug } }

/-- The machine right after its first cold reset. -/
def State.reset : State := State.cold 0 Config.fusedAct Config.fusedFloor [Config.fusedSlot 0, Config.fusedSlot 1]

end Sys2Proof.Machine
end

