-- ==== Sys2Proof/Machine/Ops.lean ====
section
/-! DEFINITION. The named operations over the state: containers, bytes, the canonical byte memory, accessors of pages, cores and
tasks, fields of registers, free values, and taking a trap with the return from it (18 R370 to R377). -/
namespace Sys2Proof.Machine

/-- The one shape of an outcome that a meaning gives. -/
abbrev Res := Host.Outcome State Fault Refusal

/-! Containers: sorted association lists. -/

/-- The value of a key. -/
def assocGet {α : Type} : List (Nat × α) → Nat → Option α
  | [], _ => none
  | (k, v) :: r, x => if k = x then some v else if x < k then none else assocGet r x

/-- Sets a key, keeping keys strictly rising. -/
def assocSet {α : Type} : List (Nat × α) → Nat → α → List (Nat × α)
  | [], x, a => [(x, a)]
  | (k, v) :: r, x, a => if x < k then (x, a) :: (k, v) :: r else if k = x then (x, a) :: r else (k, v) :: assocSet r x a

/-- Removes a key. -/
def assocDel {α : Type} : List (Nat × α) → Nat → List (Nat × α)
  | [], _ => []
  | (k, v) :: r, x => if k = x then r else if x < k then (k, v) :: r else (k, v) :: assocDel r x

/-- Element i of a list changed by a function. -/
def modAt {α : Type} (l : List α) (i : Nat) (f : α → α) : List α :=
  match l, i with
  | [], _ => []
  | a :: r, 0 => f a :: r
  | a :: r, i + 1 => a :: modAt r i f

/-! The byte memory in canonical form: addresses strictly rising, no zero byte listed (log 2). -/

/-- The byte at an address; an unlisted address reads 0 (log 2). -/
def cellGet : List Host.Cell → Nat → Byte
  | [], _ => 0
  | (k, v) :: r, x => if k = x then v else if x < k then 0 else cellGet r x

/-- Writes one byte, keeping the canonical form. -/
def cellSet : List Host.Cell → Nat → Byte → List Host.Cell
  | [], x, b => if b = 0 then [] else [(x, b)]
  | (k, v) :: r, x, b =>
    if x < k then (if b = 0 then (k, v) :: r else (x, b) :: (k, v) :: r)
    else if k = x then (if b = 0 then r else (x, b) :: r)
    else (k, v) :: cellSet r x b

/-- The canonical form: addresses strictly rising from a bound, no zero byte. -/
def cellsFrom : Nat → List Host.Cell → Bool
  | _, [] => true
  | n, (k, v) :: r => decide (n ≤ k) && decide (v ≠ 0) && cellsFrom (k + 1) r

/-- Memory.wf of the interface: the canonical form. -/
def Memory.wf (m : List Host.Cell) : Bool := cellsFrom 0 m

/-- n bytes from an address. -/
def cellsRead (m : List Host.Cell) (a : Nat) : Nat → List Byte
  | 0 => []
  | n + 1 => cellGet m a :: cellsRead m (a + 1) n

/-- Writes bytes from an address on. -/
def cellsWrite (m : List Host.Cell) (a : Nat) : List Byte → List Host.Cell
  | [] => m
  | b :: bs => cellsWrite (cellSet m a b) (a + 1) bs

/-! Bit fields of registers (R9). -/

/-- bits(x, hi, lo) of a vector. -/
def fld {n : Nat} (x : BitVec n) (hi lo : Nat) : Nat := bitsOf x.toNat hi lo

/-- x with the field [hi:lo] replaced. -/
def setFld {n : Nat} (x : BitVec n) (hi lo v : Nat) : BitVec n :=
  let w := hi + 1 - lo
  BitVec.ofNat n (x.toNat % 2 ^ lo + (v % 2 ^ w) * 2 ^ lo + (x.toNat >>> (hi + 1)) <<< (hi + 1))

/-- Sign extension of a 32-bit immediate to 64 bits (R75). -/
def sext (x : W32) : W64 := x.signExtend 64

/-- 64-byte record as a number from its bytes, and its bytes. -/
def recOf (bs : List Byte) : BitVec 512 := BitVec.ofNat 512 (leNat bs)

/-! Accessors. -/

def State.page (s : State) (p : Nat) : Page := (assocGet s.pages p).getD {}
def State.setPage (s : State) (p : Nat) (pg : Page) : State := { s with pages := assocSet s.pages p pg }
def State.modPage (s : State) (p : Nat) (f : Page → Page) : State := s.setPage p (f (s.page p))
def Page.core (pg : Page) (c : Nat) : Core := pg.cores.getD c {}
def Page.setCore (pg : Page) (c : Nat) (k : Core) : Page := { pg with cores := pg.cores.set c k }
def State.core (s : State) (p c : Nat) : Core := (s.page p).core c
def State.setCore (s : State) (p c : Nat) (k : Core) : State := s.setPage p ((s.page p).setCore c k)
def State.modCore (s : State) (p c : Nat) (f : Core → Core) : State := s.setCore p c (f (s.core p c))

def State.task (s : State) (tid : Nat) : Option Task := assocGet s.tasks tid
def State.setTask (s : State) (t : Task) : State := { s with tasks := assocSet s.tasks t.tid t }
def State.modTask (s : State) (tid : Nat) (f : Task → Task) : State :=
  match s.task tid with
  | none => s
  | some t => { s with tasks := assocSet s.tasks tid (f t) }

def State.part (s : State) (n : Nat) : Part := s.parts.getD n {}
def State.modPart (s : State) (n : Nat) (f : Part → Part) : State := { s with parts := modAt s.parts n f }
def State.die (s : State) (d : Nat) : Die := s.dies.getD d {}
def State.modDie (s : State) (d : Nat) (f : Die → Die) : State := { s with dies := modAt s.dies d f }
def Part.die (p : Part) (d : Nat) : PartDie := p.dies.getD d {}
def State.partDie (s : State) (n d : Nat) : PartDie := (s.part n).die d
def State.modPartDie (s : State) (n d : Nat) (f : PartDie → PartDie) : State :=
  s.modPart n fun p => { p with dies := modAt p.dies d f }
def State.inst (s : State) (d k : Nat) : GInst := (s.die d).insts.getD k {}
def State.modInst (s : State) (d k : Nat) (f : GInst → GInst) : State :=
  s.modDie d fun x => { x with insts := modAt x.insts k f }

/-- The task that owns a page. -/
def State.owner (s : State) (p : Nat) : Option Task :=
  match (s.page p).owner with
  | none => none
  | some t => s.task t

/-- Pages that a task occupies, idle ones of its fused clusters among them (R244). -/
def State.heldPages (s : State) (tid : Nat) : List Nat := (s.pages.filter fun (_, pg) => decide (pg.owner = some tid)).map (·.1)

/-- The physical page of a region page of a task. -/
def Task.phys (t : Task) (rp : Nat) : Option Nat := t.pages[rp]?

/-- The region page that holds a page of the image: two to one when folded (R228). -/
def Task.holder (t : Task) (rp : Nat) : Nat := if t.img.folded then rp / 2 else rp

/-- A scratchpad offset of a page of the image as the physical core numbers it: banks 4 to 7 for the odd page of a folded pair (R229). -/
def Task.spOff (t : Task) (rp off : Nat) : Nat := if t.img.folded then off + rp % 2 * 0x40000 else off

/-- The physical page that holds a page of the image. -/
def Task.holds (t : Task) (rp : Nat) : Option Nat := t.phys (t.holder rp)

/-- The page of the image that a page's sequencer and its macros act for: 2j on the folded region page j (R228, R229). -/
def Page.vrp (pg : Page) : Nat := if (pg.core 0).fold then 2 * pg.rp else pg.rp

/-- Context tag of a task (R407). -/
def Task.ctag (t : Task) : Nat := 16 * t.part + t.tenant

/-- A turn added at the end of this cycle's agenda, once. -/
def State.later (s : State) (t : Turn) : State := if s.agenda.contains t then s else { s with agenda := s.agenda ++ [t] }

/-- A fresh free value below n (log 5). -/
def State.choose (s : State) (n : Nat) : Nat × State := (Config.freeNat s.free % n, { s with free := s.free + 1 })

/-! x registers of a sequencer (R12, R75): x0 reads zero and discards writes. -/

def Page.xr (pg : Page) (n : BitVec 5) : W64 := if n = 0 then 0 else pg.x.getD n.toNat 0
def Page.setX (pg : Page) (n : BitVec 5) (v : W64) : Page := if n = 0 then pg else { pg with x := pg.x.set n.toNat v }

/-! g registers of an instance (R250). -/

def GInst.gr (g : GInst) (n : BitVec 4) : W64 := g.g.getD n.toNat 0
def GInst.setG (g : GInst) (n : BitVec 4) (v : W64) : GInst := { g with g := g.g.set n.toNat v }

/-! mprog (R33), eprog (R355), seqst (R166), spst (R30). -/

def Core.busy (c : Core) : Bool := c.mprog.getLsbD 40
def Core.elem (c : Core) : Nat := fld c.mprog 31 0

/-- No core of the page runs a macro. -/
def Page.idle (pg : Page) : Bool := pg.cores.all fun c => !c.busy

def Slot.eprog (e : Slot) : W64 :=
  BitVec.ofNat 64 (e.elem.toNat + e.op.toNat * 2 ^ 48 + e.busy.toNat * 2 ^ 56 + e.done.toNat * 2 ^ 57 + e.held.toNat * 2 ^ 58
    + e.cancelled.toNat * 2 ^ 59 + e.csticky.toNat * 2 ^ 60)

def Page.seqst (pg : Page) : W64 :=
  BitVec.ofNat 64 (pg.kend.toNat + pg.kport.toNat * 4 + (pg.rep.length % 8) * 2 ^ 10 + pg.user.toNat * 2 ^ 32)

def Page.port (pg : Page) (n : Nat) : Port := pg.ports.getD n {}
def Page.setPort (pg : Page) (n : Nat) (p : Port) : Page := { pg with ports := pg.ports.set n p }
def Page.eslot (pg : Page) (n : Nat) : Slot := pg.slots.getD n {}
def Page.setSlot (pg : Page) (n : Nat) (e : Slot) : Page := { pg with slots := pg.slots.set n e }

/-! Taking a trap (R370 to R372) and the return from it (R377). -/

/-- A trap of a task: the cause joins the causes of this cycle, and the freeze follows at the cycle's end (R371, R372). -/
def State.raise (s : State) (tid : Nat) (c : Cause) : State :=
  (s.modTask tid fun t => { t with causes := t.causes ++ [c] }).later (.event (.trapFreeze tid))

/-- A trap raised by the unit in focus on a page: the cause gains the region page. -/
def State.raiseOn (s : State) (p : Nat) (c : Cause) : State :=
  match (s.page p).owner with
  | none => s
  | some tid => s.raise tid { c with page := (s.page p).rp }

/-- A wave word that a sequencer sends outside a kernel: bit n of its ctl field alone (R15). -/
def ctlWave (n : Nat) : W64 := BitVec.ofNat 64 (2 ^ (32 + n))

/-- The sequencer word at the program counter of a page. -/
def Page.word (pg : Page) : W64 := pg.seqMem.getD pg.pc.toNat 0

/-- A trap of a sequencer word: the record names the word (R373). -/
def State.seqTrap (s : State) (p cls code : Nat) (addr : Option W64 := none) (info : BitVec 128 := 0) : State :=
  s.raiseOn p
    { cls := cls, code := code, word := (s.page p).word, info := info,
      flags := if addr.isSome then 8 else 0, addr := addr.getD 0 }

/-- The element word in focus. -/
def State.focusWord (s : State) : BitVec 40 :=
  ((s.core s.focus.page s.focus.core).ctab.getD ((if s.focus.sched then 32 else 0) + s.focus.slot) 0).setWidth 40

/-- A trap of the element word in focus: flags bit 2, core, lane, slot, schedule, row tag (R373). -/
def State.elemTrap (s : State) (cls code : Nat) (lane : Nat := 0xFF) (addr : Option W64 := none) (info : BitVec 128 := 0) : State :=
  let f := s.focus
  s.raiseOn f.page
    { cls := cls, code := code, unit := 1 + f.core, core := f.core, lane := lane, slot := f.slot, sched := f.sched, tag := f.tag,
      flags := if addr.isSome then 12 else 4, addr := addr.getD 0, info := info, eword := s.focusWord }

/-- A trap of a macro copy (R183, R373). -/
def State.macroTrap (s : State) (p c cls code : Nat) (addr : Option W64 := none) : State :=
  let k := s.core p c
  s.raiseOn p
    { cls := cls, code := code, unit := 1 + c, core := c, flags := if addr.isSome then 9 else 1, addr := addr.getD 0,
      word := match k.mres with
        | some m => m.word
        | none => 0,
      prog := k.mprog &&& 0xFFFFFFFFFF }

/-- A trap of an engine command (R356, R373). -/
def State.engineTrap (s : State) (p n cls code : Nat) (addr : Option W64 := none) (info : BitVec 128 := 0) : State :=
  let e := (s.page p).eslot n
  s.raiseOn p
    { cls := cls, code := code, unit := 9 + n, eslot := n, flags := if addr.isSome then 10 else 2, addr := addr.getD 0,
      word := e.word, prog := ({ e with busy := false } : Slot).eprog, info := info }

/-- A trap of a stream port (R373). -/
def State.portTrap (s : State) (p n cls code : Nat) (addr : Option W64 := none) : State :=
  let out := ((s.page p).port n).out
  s.raiseOn p
    { cls := cls, code := code, unit := 1 + n, core := n, flags := if addr.isSome then 8 else 0, addr := addr.getD 0,
      info := BitVec.ofNat 128 (n + 256 * out.toNat) }

/-- The order of R371: class (system, load, protection, memory, program), region page, unit. -/
def Cause.before (a b : Cause) : Bool :=
  decide (b.cls < a.cls) || (decide (a.cls = b.cls) &&
    (decide (a.page < b.page) || (decide (a.page = b.page) && decide (a.unit < b.unit))))

/-- The recorded cause of a cycle (R371); among causes of one unit the first. -/
def pickCause : List Cause → Option Cause
  | [] => none
  | c :: cs =>
    match pickCause cs with
    | none => some c
    | some d => if d.before c then some d else some c

/-- The units of a task's pages stop: sequencers, macro copies at an element boundary (R183, R188), engine commands (R356). -/
def Core.stopMacro (c : Core) : Core :=
  match c.mrun with
  | none => c
  | some r =>
    let op := r.m.word.toNat / 2 ^ 56
    let clear := op = 0x43 ∨ (op = 0x42 ∧ (r.m.word.toNat / 2 ^ 31) % 2 = 0)
    { c with mrun := none, mprog := BitVec.ofNat 64 ((if clear then 0 else fld c.mprog 31 0) + fld c.mprog 39 32 * 2 ^ 32) }

def Slot.stop (e : Slot) : Slot := if e.busy then { e with busy := false, stopped := true } else e

def Page.freeze (pg : Page) : Page :=
  { pg with frozen := true, cores := pg.cores.map Core.stopMacro, slots := pg.slots.map Slot.stop }

/-- Every page of a task frozen (R372); waves stop. -/
def State.freezeTask (s : State) (t : Task) : State :=
  t.pages.foldl (fun s p => s.modPage p Page.freeze) s

/-- The pages of a task run again in one cycle (R377, R380): the sequencers continue at their frozen words. -/
def State.thawTask (s : State) (t : Task) : State :=
  t.pages.foldl (fun s p => s.modPage p fun pg => { pg with frozen := false, yielded := false }) s

end Sys2Proof.Machine
end

