-- ==== Sys2Proof/Machine/Operands.lean ====
section
/-! DEFINITION. Operand forms of element words (03 R68 to R70), rotation (R19), validity modes (R21, R22, R94, R95), and the issue of a
result into the core's pipeline. -/
namespace Sys2Proof.Machine

/-- Lane i of a wide value (R45). -/
def laneOf (x : Lanes) (i : Nat) : W32 := x.extractLsb' (32 * i) 32

/-- Sixteen lanes from a function. -/
def mkLanes (f : Nat → W32) : Lanes :=
  f 15 ++ f 14 ++ f 13 ++ f 12 ++ f 11 ++ f 10 ++ f 9 ++ f 8 ++ f 7 ++ f 6 ++ f 5 ++ f 4 ++ f 3 ++ f 2 ++ f 1 ++ f 0

/-- Sixteen bits from a function. -/
def mkBits (f : Nat → Bool) : W16 :=
  BitVec.ofNat 16 ((List.range 16).foldl (fun n i => n + (f i).toNat * 2 ^ i) 0)

def VReg.lane (v : VReg) (i : Nat) : W32 := laneOf v.lanes i
def VReg.ok (v : VReg) (i : Nat) : Bool := v.valid.getLsbD i

/-- A one-word source broadcast with its validity bit (R69). -/
def bcast (x : W32) (valid : Bool) : VReg := { lanes := mkLanes fun _ => x, valid := if valid then 0xFFFF else 0 }

/-- The physical register that v code n reaches (R19); a folded core has two rings of sixteen (R229). -/
def physReg (fold : Bool) (rb : BitVec 5) (n : Nat) : Nat :=
  if n < 8 then n
  else if fold then (if n < 24 then 8 + (n - 8 + rb.toNat) % 16 else 24 + (n - 24 + rb.toNat) % 16)
  else 8 + (n - 8 + rb.toNat) % 32

/-- Does the word in focus stand in an odd slot of a folded core, so that it acts for the odd virtual page (R229)? -/
def Core.odd (k : Core) (f : Focus) : Bool := k.fold && decide (f.slot % 2 = 1)

/-- The link or token input that a side of the word in focus names. -/
def Core.side (k : Core) (f : Focus) (n : Nat) : Nat := if k.odd f then 4 + n else n

/-- The codes of one-word sources (R69). -/
def oneWord (code : Nat) : Bool := decide ((44 ≤ code ∧ code ≤ 56) ∨ code = 58)

/-- Scalar words (R69). -/
def isScalar (w : EWord) : Bool := decide (44 ≤ w.d.toNat ∧ w.d.toNat ≤ 55)

/-- The value of an operand code (R68) for a live word; a keyed link input reads invalid zero (R149). -/
def Core.read (k : Core) (f : Focus) (wimm : W32) (code : Nat) : VReg :=
  if code < 40 then k.v.getD (physReg k.fold k.rbase code) {}
  else if code < 44 then
    let l := k.lin.getD (k.side f (code - 40)) {}
    if l.key then {} else l.v
  else if code < 48 then
    let t := k.qin.getD (k.side f (code - 44)) {}
    bcast t.val t.valid
  else if code < 56 then
    let r := k.s.getD (code - 48) {}
    bcast (r.val.setWidth 32) r.valid
  else if code = 56 then bcast wimm true
  else if code = 57 then { lanes := mkLanes fun i => BitVec.ofNat 32 i, valid := 0xFFFF }
  else if code = 58 then bcast (f.tag.setWidth 32) true
  else if code = 59 then bcast 0 true
  else { lanes := k.k.getD (code - 60) 0, valid := 0xFFFF }

/-- The core in focus. -/
def State.fcore (s : State) : Core := s.core s.focus.page s.focus.core

/-- The wimm field of the wave word in focus (R14, R68): the entry of the schedule that entered with that wave word, whichever schedule the word in
focus stands in (log 84); a side-slot word sees the wave word of slot 0 (R144). -/
def State.wimm (s : State) : W32 := s.focus.wimm

/-- An operand of the word in focus: invalid zero in a void iteration (R22, R68). -/
def State.src (s : State) (code : BitVec 6) : VReg :=
  if s.focus.live then s.fcore.read s.focus s.wimm code.toNat else {}

/-- The operand codes that a word reads as sources (R72), its validity source under setv among them. -/
def srcCodes (op : Nat) (w : EWord) : List Nat :=
  match elemForm op with
  | none => []
  | some f =>
    (if f.a = 1 then [w.a.toNat] else []) ++ (if f.b = 1 then [w.b.toNat] else [])
      ++ (if f.c = 2 ∨ (f.c = 1 ∧ w.vm = 3) then [w.c.toNat] else [])

/-- The run-time keyed check of R149: a live word other than WLD that reads a keyed link input traps. -/
def State.keyCheck (s : State) (op : Nat) (w : EWord) : State :=
  let k := s.fcore
  let bad := (srcCodes op w).any fun c => decide (40 ≤ c ∧ c < 44) && (k.lin.getD (k.side s.focus (c - 40)) {}).key
  if s.focus.live && bad then s.elemTrap 3 5 else s

/-- Rounding mode that a word samples at issue (R28, R48). -/
def Core.rm (k : Core) : Nat := fld k.cfr 1 0

/-- cfr.f4 (R28). -/
def Core.f4 (k : Core) : Bool := k.cfr.getLsbD 2

/-- Latency of an opcode (R96, R116, R326). -/
def latOf (op : Nat) : Nat :=
  match elemForm op with
  | none => 0
  | some f => f.lat

/-- A result on its way: remaining cycles and what lands. -/
def State.launchAct (s : State) (lat : Nat) (a : LandAct) : State :=
  s.modCore s.focus.page s.focus.core fun k => { k with flight := k.flight ++ [{ left := lat, iv := s.focus.iv, act := a }] }

/-- The destination of R70 with its sides and plane. -/
def destOf (k : Core) (w : EWord) : DestReg × BitVec 4 × Bool :=
  let d := w.d.toNat
  if d < 40 then (.vec (physReg k.fold k.rbase d), w.fwd, false)
  else if d < 44 then (.none, w.fwd ||| BitVec.ofNat 4 (8 / 2 ^ (d - 40)), false)
  else if d < 48 then (.none, w.fwd ||| BitVec.ofNat 4 (8 / 2 ^ (d - 44)), true)
  else if d < 56 then (.scal (d - 48), w.fwd, true)
  else (.none, w.fwd, false)

/-- A word's result issued at its latency. A void word writes invalid zero to a rotating register, nothing to a static one, and
forwards invalid zero (R22, R94). -/
def State.issue (s : State) (op : Nat) (w : EWord) (lanes : Lanes) (valid mask : W16) (flags : FlagSet) : State :=
  let k := s.fcore
  let (reg, sides, narrow) := destOf k w
  if s.focus.live then
    s.launchAct (latOf op)
      (.result { reg := reg, lanes := lanes, valid := valid, mask := mask, sides := sides, narrow := narrow, flags := flags,
                 odd := k.odd s.focus })
  else
    let reg := if 8 ≤ w.d.toNat ∧ w.d.toNat < 40 then reg else .none
    s.launchAct (latOf op) (.result { reg := reg, sides := sides, narrow := narrow, odd := k.odd s.focus })

/-- Does lane i's side effect occur (R21)? ok: every input lane valid; setv: the c lane is nonzero. -/
def effect (vm : BitVec 2) (ok setv : Nat → Bool) (i : Nat) : Bool :=
  if vm = 1 then true else if vm = 3 then setv i else ok i

/-- Result lanes under a validity mode (R21): lanes, validity, changed lanes, flags of the lanes whose side effects occur. -/
def vmLanes (w : EWord) (ok setv : Nat → Bool) (comp : Nat → W32 × FlagSet) : Lanes × W16 × W16 × FlagSet :=
  let n := if isScalar w then 1 else 16
  let eff := fun i => decide (i < n) && effect w.vm ok setv i
  let val := fun i =>
    if i < n then (if w.vm = 1 ∨ w.vm = 3 ∨ ok i = true then (comp i).1 else 0) else 0
  (mkLanes val, mkBits eff, mkBits fun i => decide (i < n) && (decide (w.vm ≠ 2) || ok i),
    (List.range n).foldl (fun f i => if eff i then f ||| (comp i).2 else f) 0)

/-- The sources of a word as read at issue, with its sampled rounding mode. -/
structure Srcs where
  a : VReg
  b : VReg
  c : VReg
  rm : Nat
  deriving DecidableEq, Repr

/-- Opcodes whose entries name lanes of their sources, which R69 then gives a scalar word too: PERM, SLIDEUP, SLIDEDN, LANEX, the reductions, DQ, the
quantizers, NARW and WIDN (R95, R106 to R108, R110, R122, R127, R129 to R131; log 95). -/
def namesLanes (op : Nat) : Bool :=
  decide ((0x25 ≤ op ∧ op ≤ 0x2B) ∨ (0x45 ≤ op ∧ op ≤ 0x47) ∨ (0x55 ≤ op ∧ op ≤ 0x5A))

/-- In a scalar word a vector source contributes lane 0, save for an opcode whose entry names its lanes (R69). Such an entry reads sixteen copies of a one-word
source, and the indices 0 to 15 from the operand lane (log 95). -/
def State.srcs (s : State) (op : Nat) (w : EWord) : Srcs :=
  let get := fun c => let v := s.src c; if isScalar w && !namesLanes op then bcast (v.lane 0) (v.ok 0) else v
  { a := get w.a, b := get w.b, c := get w.c, rm := s.fcore.rm }

/-- A word with a register result: its input validity and its computation per lane, from the sources (R94, R95). -/
def State.genOp (s : State) (op : Nat) (w : EWord) (ok : Srcs → Nat → Bool) (comp : Srcs → Nat → W32 × FlagSet) : State :=
  let r := s.srcs op w
  let s1 := s.keyCheck op w
  let (l, v, m, f) := vmLanes w (ok r) (fun i => decide (r.c.lane i ≠ 0)) (comp r)
  s1.issue op w l v m f

/-- Lane-wise words: lane i of every data operand is the input of result lane i (R95). -/
def State.laneOp (s : State) (op : Nat) (w : EWord) (fn : Nat → W32 → W32 → W32 → W32 × FlagSet) : State :=
  let useB := match elemForm op with
    | some f => decide (f.b = 1)
    | none => false
  let useC := match elemForm op with
    | some f => decide (f.c = 2)
    | none => false
  s.genOp op w (fun r i => r.a.ok i && (!useB || r.b.ok i) && (!useC || r.c.ok i))
    (fun r i => fn r.rm (r.a.lane i) (r.b.lane i) (r.c.lane i))

/-- Combines the four bytes of lanes one by one (R99). -/
def perByte (f : Nat → Nat → Nat) (a b : W32) : W32 :=
  let g := fun i => f ((a.toNat / 256 ^ i) % 256) ((b.toNat / 256 ^ i) % 256) % 256
  BitVec.ofNat 32 (g 0 + g 1 * 256 + g 2 * 65536 + g 3 * 16777216)

/-- Integer operation on the lane (ty 0) or on its bytes (ty 6) (R98, R99). -/
def intOp (ty : BitVec 3) (f : Nat → Nat → Nat → Nat) (a b : W32) : W32 :=
  if ty = 6 then perByte (f 8) a b else BitVec.ofNat 32 (f 32 a.toNat b.toNat)

/-- Combines the elements of a packed floating lane (R45, R117): element bits of a, b, c. -/
def perFloat (ty : BitVec 3) (f : Fmt → Nat → Nat → Nat → Nat × FlagSet) (a b c : W32) : W32 × FlagSet :=
  let m := fmtOf ty.toNat
  if ty = 1 then
    let (x, g) := f m a.toNat b.toNat c.toNat
    (BitVec.ofNat 32 x, g)
  else
    let (x, g) := f m (a.toNat % 65536) (b.toNat % 65536) (c.toNat % 65536)
    let (y, h) := f m (a.toNat / 65536) (b.toNat / 65536) (c.toNat / 65536)
    (BitVec.ofNat 32 (x + y * 65536), g ||| h)

/-- Element j of a lane under a type code (R45). -/
def elemAt (ty : Nat) (x : W32) (j : Nat) : Nat := (x.toNat / 2 ^ (tyWidth ty * j)) % 2 ^ tyWidth ty

/-- A lane from its elements. -/
def packElems (ty : Nat) (xs : List Nat) : W32 :=
  BitVec.ofNat 32 (xs.foldr (fun x acc => x + 2 ^ tyWidth ty * acc) 0)

/-- Values combined in the tree of R66: absent inputs pass the other, both absent stay absent. -/
def treeLevel {α : Type} (f : α → α → α) : List (Option α) → List (Option α)
  | some x :: some y :: r => some (f x y) :: treeLevel f r
  | some x :: none :: r => some x :: treeLevel f r
  | none :: y :: r => y :: treeLevel f r
  | [x] => [x]
  | [] => []

/-- Four levels of the tree over sixteen lanes. -/
def tree16 {α : Type} (f : α → α → α) (xs : List (Option α)) : Option α :=
  ((treeLevel f (treeLevel f (treeLevel f (treeLevel f xs)))).head?).join

end Sys2Proof.Machine
end

