-- ==== Sys2Proof/Machine/ElemInt.lean ====
section
/-! DEFINITION. Element words 0x00 to 0x2F: integer, logic, compare, moves, lanes, reductions, STEER and TRAPIF (04 R94 to R115). -/
namespace Sys2Proof.Machine

/-- NOP does nothing (R102). -/
def execENop (_w : EWord) (s : State) : Res := .next s

/-- MOV (R103): lane i of a. -/
def execEMov (w : EWord) (s : State) : Res := .next (s.laneOp 0x01 w fun _ a _ _ => (a, 0))

/-- ADD (R98, R99). -/
def execEAdd (w : EWord) (s : State) : Res :=
  .next (s.laneOp 0x02 w fun _ a b _ => (intOp w.ty (fun _ x y => x + y) a b, 0))

/-- SUB (R98, R99). -/
def execESub (w : EWord) (s : State) : Res :=
  .next (s.laneOp 0x03 w fun _ a b _ => (intOp w.ty (fun n x y => x + (2 ^ n - y)) a b, 0))

/-- MUL: low 32 bits (R98). -/
def execEMul (w : EWord) (s : State) : Res := .next (s.laneOp 0x04 w fun _ a b _ => (a * b, 0))

/-- MULH: high 32 bits of the signed product (R98). -/
def execEMulh (w : EWord) (s : State) : Res :=
  .next (s.laneOp 0x05 w fun _ a b _ => (BitVec.ofInt 32 (a.toInt * b.toInt / 2 ^ 32), 0))

/-- MULHU: high 32 bits of the unsigned product (R98). -/
def execEMulhu (w : EWord) (s : State) : Res :=
  .next (s.laneOp 0x06 w fun _ a b _ => (BitVec.ofNat 32 (a.toNat * b.toNat / 2 ^ 32), 0))

/-- MAD (R98). -/
def execEMad (w : EWord) (s : State) : Res := .next (s.laneOp 0x07 w fun _ a b c => (a * b + c, 0))

/-- AND (R100). -/
def execEAnd (w : EWord) (s : State) : Res := .next (s.laneOp 0x08 w fun _ a b _ => (a &&& b, 0))

/-- OR (R100). -/
def execEOr (w : EWord) (s : State) : Res := .next (s.laneOp 0x09 w fun _ a b _ => (a ||| b, 0))

/-- XOR (R100). -/
def execEXor (w : EWord) (s : State) : Res := .next (s.laneOp 0x0A w fun _ a b _ => (a ^^^ b, 0))

/-- ANDN: a AND NOT b (R100). -/
def execEAndn (w : EWord) (s : State) : Res := .next (s.laneOp 0x0B w fun _ a b _ => (a &&& ~~~b, 0))

/-- NOT (R100). -/
def execENot (w : EWord) (s : State) : Res := .next (s.laneOp 0x0C w fun _ a _ _ => (~~~a, 0))

/-- Shift count of R100: bits(b, 4, 0). -/
def shiftCount (b : W32) : Nat := b.toNat % 32

/-- SHL (R100). -/
def execEShl (w : EWord) (s : State) : Res := .next (s.laneOp 0x0D w fun _ a b _ => (a <<< shiftCount b, 0))

/-- SHR (R100). -/
def execEShr (w : EWord) (s : State) : Res := .next (s.laneOp 0x0E w fun _ a b _ => (a >>> shiftCount b, 0))

/-- SRA (R100). -/
def execESra (w : EWord) (s : State) : Res := .next (s.laneOp 0x0F w fun _ a b _ => (a.sshiftRight (shiftCount b), 0))

/-- ROTL (R100). -/
def execERotl (w : EWord) (s : State) : Res := .next (s.laneOp 0x10 w fun _ a b _ => (a.rotateLeft (shiftCount b), 0))

/-- MIN by sx (R98, R99). -/
def execEMin (w : EWord) (s : State) : Res :=
  .next (s.laneOp 0x11 w fun _ a b _ => (intOp w.ty (fun n x y => if sx n y < sx n x then y else x) a b, 0))

/-- MAX by sx (R98, R99). -/
def execEMax (w : EWord) (s : State) : Res :=
  .next (s.laneOp 0x12 w fun _ a b _ => (intOp w.ty (fun n x y => if sx n x < sx n y then y else x) a b, 0))

/-- MINU by ux (R98, R99). -/
def execEMinu (w : EWord) (s : State) : Res :=
  .next (s.laneOp 0x13 w fun _ a b _ => (intOp w.ty (fun _ x y => if y < x then y else x) a b, 0))

/-- MAXU by ux (R98, R99). -/
def execEMaxu (w : EWord) (s : State) : Res :=
  .next (s.laneOp 0x14 w fun _ a b _ => (intOp w.ty (fun _ x y => if x < y then y else x) a b, 0))

/-- ABS modulo the width (R98, R99). -/
def execEAbs (w : EWord) (s : State) : Res :=
  .next (s.laneOp 0x15 w fun _ a _ _ => (intOp w.ty (fun n x _ => (sx n x).natAbs) a a, 0))

/-- NEG modulo the width (R98, R99). -/
def execENeg (w : EWord) (s : State) : Res :=
  .next (s.laneOp 0x16 w fun _ a _ _ => (intOp w.ty (fun n x _ => 2 ^ n - x) a a, 0))

/-- Leading zero bits of a 32-bit value (R100). -/
def clz32 (x : W32) : Nat := if x = 0 then 32 else 31 - Nat.log2 x.toNat

/-- One bits of a 32-bit value (R100). -/
def popc32 (x : W32) : Nat := (List.range 32).foldl (fun n i => n + (x.getLsbD i).toNat) 0

/-- CLZ (R100). -/
def execEClz (w : EWord) (s : State) : Res := .next (s.laneOp 0x17 w fun _ a _ _ => (BitVec.ofNat 32 (clz32 a), 0))

/-- POPC (R100). -/
def execEPopc (w : EWord) (s : State) : Res := .next (s.laneOp 0x18 w fun _ a _ _ => (BitVec.ofNat 32 (popc32 a), 0))

/-- An integer comparison delivering 1 or 0, per byte for ty 6 (R101). -/
def State.cmpOp (s : State) (op : Nat) (w : EWord) (p : Nat → Nat → Nat → Bool) : State :=
  s.laneOp op w fun _ a b _ => (intOp w.ty (fun n x y => (p n x y).toNat) a b, 0)

/-- CMPEQ (R101). -/
def execECmpeq (w : EWord) (s : State) : Res := .next (s.cmpOp 0x19 w fun _ x y => decide (x = y))

/-- CMPNE (R101). -/
def execECmpne (w : EWord) (s : State) : Res := .next (s.cmpOp 0x1A w fun _ x y => decide (x ≠ y))

/-- CMPLT by sx (R101). -/
def execECmplt (w : EWord) (s : State) : Res := .next (s.cmpOp 0x1B w fun n x y => decide (sx n x < sx n y))

/-- CMPLE by sx (R101). -/
def execECmple (w : EWord) (s : State) : Res := .next (s.cmpOp 0x1C w fun n x y => decide (sx n x ≤ sx n y))

/-- CMPLTU by ux (R101). -/
def execECmpltu (w : EWord) (s : State) : Res := .next (s.cmpOp 0x1D w fun _ x y => decide (x < y))

/-- CMPLEU by ux (R101). -/
def execECmpleu (w : EWord) (s : State) : Res := .next (s.cmpOp 0x1E w fun _ x y => decide (x ≤ y))

/-- SEL: one condition, lane 0 of c, for the whole word (R104). -/
def execESel (w : EWord) (s : State) : Res :=
  .next (s.genOp 0x1F w
    (fun r i => r.c.ok 0 && (if r.c.lane 0 ≠ 0 then r.a.ok i else r.b.ok i))
    (fun r i => (if r.c.lane 0 ≠ 0 then r.a.lane i else r.b.lane i, 0)))

/-- VSEL: a condition per lane (R104). -/
def execEVsel (w : EWord) (s : State) : Res :=
  .next (s.genOp 0x20 w
    (fun r i => r.c.ok i && (if r.c.lane i ≠ 0 then r.a.ok i else r.b.ok i))
    (fun r i => (if r.c.lane i ≠ 0 then r.a.lane i else r.b.lane i, 0)))

/-- VALID: the validity of a as data, always valid (R105). -/
def execEValid (w : EWord) (s : State) : Res :=
  .next (s.genOp 0x21 w (fun _ _ => true) (fun r i => (BitVec.ofNat 32 (r.a.ok i).toNat, 0)))

/-- SETV: the contents of a, marked valid (R105). -/
def execESetv (w : EWord) (s : State) : Res :=
  .next (s.genOp 0x22 w (fun _ _ => true) (fun r i => (r.a.lane i, 0)))

/-- CLRV: the contents of a, marked invalid (R105). -/
def execEClrv (w : EWord) (s : State) : Res :=
  let a := s.src w.a
  let s1 := s.keyCheck 0x23 w
  .next (s1.issue 0x23 w (if isScalar w then (a.lane 0).setWidth 512 else a.lanes) 0 0xFFFF 0)

/-- BCST: lane 0 of a, or the word of a one-word a, in every lane (R103). -/
def execEBcst (w : EWord) (s : State) : Res :=
  .next (s.genOp 0x24 w (fun r _ => r.a.ok 0) (fun r _ => (r.a.lane 0, 0)))

/-- PERM: lane bits(b_i, 3, 0) of a (R106). -/
def execEPerm (w : EWord) (s : State) : Res :=
  .next (s.genOp 0x25 w
    (fun r i => r.b.ok i && r.a.ok ((r.b.lane i).toNat % 16))
    (fun r i => (r.a.lane ((r.b.lane i).toNat % 16), 0)))

/-- SLIDEUP: lanes move up, lane 0 from lane 15 of b (R107). -/
def execESlideup (w : EWord) (s : State) : Res :=
  .next (s.genOp 0x26 w
    (fun r i => if i = 0 then r.b.ok 15 else r.a.ok (i - 1))
    (fun r i => (if i = 0 then r.b.lane 15 else r.a.lane (i - 1), 0)))

/-- SLIDEDN: lanes move down, lane 15 from lane 0 of b (R107). -/
def execESlidedn (w : EWord) (s : State) : Res :=
  .next (s.genOp 0x27 w
    (fun r i => if i = 15 then r.b.ok 0 else r.a.ok (i + 1))
    (fun r i => (if i = 15 then r.b.lane 0 else r.a.lane (i + 1), 0)))

/-- Lanes present in a reduction tree (R110): the valid lanes under null and keep, all under blind and setv. -/
def present (w : EWord) (a : VReg) : List (Option W32) :=
  (List.range 16).map fun i => if w.vm = 1 ∨ w.vm = 3 ∨ a.ok i = true then some (a.lane i) else none

/-- A cross-lane reduction: its value in every lane; under null and keep valid when some lane is present (R110). -/
def State.reduceOp (s : State) (op : Nat) (w : EWord) (f : W32 → W32 → W32) : State :=
  s.genOp op w (fun r _ => decide (r.a.valid ≠ 0)) (fun r _ => ((tree16 f (present w r.a)).getD 0, 0))

/-- RSUM (R110). -/
def execERsum (w : EWord) (s : State) : Res := .next (s.reduceOp 0x28 w fun x y => x + y)

/-- RMAX by sx (R110). -/
def execERmax (w : EWord) (s : State) : Res := .next (s.reduceOp 0x29 w fun x y => if x.toInt < y.toInt then y else x)

/-- RMIN by sx (R110). -/
def execERmin (w : EWord) (s : State) : Res := .next (s.reduceOp 0x2A w fun x y => if y.toInt < x.toInt then y else x)

/-- LANEX: lane bits(x, 3, 0) of a, x lane 0 of b; a's lanes are read even in a scalar word (R108). -/
def execELanex (w : EWord) (s : State) : Res :=
  .next (s.genOp 0x2B w
    (fun r _ => r.b.ok 0 && r.a.ok ((r.b.lane 0).toNat % 16))
    (fun r _ => (r.a.lane ((r.b.lane 0).toNat % 16), 0)))

/-- LANEI: one lane of the destination register; the whole register is forwarded as it stands after the landing (R109). -/
def execELanei (w : EWord) (s : State) : Res :=
  let r := s.srcs 0x2C w
  let s1 := s.keyCheck 0x2C w
  if !s.focus.live then .next (s1.issue 0x2C w 0 0 0xFFFF 0)
  else if !r.b.ok 0 && decide (w.vm ≠ 1) then
    .next (s1.launchAct (latOf 0x2C) (.result { sides := w.fwd, odd := s.fcore.odd s.focus }))
  else
    let j := (r.b.lane 0).toNat % 16
    let eff := effect w.vm (fun _ => r.a.ok 0 && r.b.ok 0) (fun i => decide (r.c.lane i ≠ 0)) j
    let val := if eff ∨ w.vm = 1 ∨ w.vm = 3 then r.a.lane 0 else 0
    let bit := mkBits fun i => decide (i = j)
    .next (s1.launchAct (latOf 0x2C)
      (.result { reg := (destOf s.fcore w).1, lanes := mkLanes fun _ => val, valid := if eff then bit else 0,
                 mask := if w.vm = 2 ∧ eff = false then 0 else bit, sides := w.fwd, whole := true, odd := s.fcore.odd s.focus }))

/-- Does a word with one controlling lane act (R112): null lane 0 valid, blind always, setv lane 0 of c nonzero. -/
def actsOn (w : EWord) (a c : VReg) (i : Nat) : Bool :=
  effect w.vm (fun i => a.ok i) (fun i => decide (c.lane i ≠ 0)) i

/-- STEER sends lane 0 of a to the lead sequencer on the narrow return path; it reaches the latch in cycle t + 1 + c + δ(p), bubbles held (R112,
R215). -/
def execESteer (w : EWord) (s : State) : Res :=
  let r := s.srcs 0x2D w
  let s1 := s.keyCheck 0x2D w
  match s.owner s.focus.page with
  | none => .next s1
  | some t =>
    if s.focus.live && actsOn w r.a r.c 0 then
      let x : Steer :=
        { at_ := s.cycle, skew := s.focus.core + t.delta.getD (s.page s.focus.page).rp 0, cond := decide (r.a.lane 0 ≠ 0) }
      .next (s1.modTask t.tid fun t => { t with steers := t.steers ++ [x] })
    else .next s1

/-- TRAPIF: trap(program, trapif) when a taking-part lane is nonzero; the record names the lowest (R114). -/
def execETrapif (w : EWord) (s : State) : Res :=
  let r := s.srcs 0x2E w
  let s1 := s.keyCheck 0x2E w
  match (List.range 16).find? fun i => s.focus.live && actsOn w r.a r.c i && decide (r.a.lane i ≠ 0) with
  | none => .next s1
  | some i => .next (s1.elemTrap 1 2 i none ((r.a.lane i).setWidth 128))

/-- MOVQ: lane 0 of a, or the word, onto the narrow plane or a scalar register (R103). -/
def execEMovq (w : EWord) (s : State) : Res :=
  .next (s.genOp 0x2F w (fun r _ => r.a.ok 0) (fun r _ => (r.a.lane 0, 0)))

end Sys2Proof.Machine
end

