-- ==== Sys2Proof/Machine/ElemFloat.lean ====
section
/-! DEFINITION. Element words 0x30 to 0x5A: floating arithmetic, dot products, conversion and quantization (05 R116 to R131). -/
namespace Sys2Proof.Machine

/-- A floating operation per element of the lane (R117). -/
def State.floatOp (s : State) (op : Nat) (w : EWord) (f : Nat → Fmt → Nat → Nat → Nat → Nat × FlagSet) : State :=
  s.laneOp op w fun rm a b c => perFloat w.ty (f rm) a b c

/-- An exact value with its nv flag, rounded once (R118). -/
def roundOut (m : Fmt) (rm : Nat) (v : Val × FlagSet) : Nat × FlagSet :=
  let (b, f) := m.round rm false v.1
  (b, v.2 ||| f)

/-- a × b + c with the sign options of FMA, FMS and FNMA; nv for 0 × ∞ even when c is NaN (R118). -/
def fusedMul (m : Fmt) (rm : Nat) (negP negC : Bool) (a b c : Nat) : Nat × FlagSet :=
  let (p, f) := Val.mul (m.val a) (m.val b)
  let (t, g) := Val.add rm (p.flip negP) ((m.val c).flip negC)
  roundOut m rm (t, f ||| g)

/-- FADD (R118). -/
def execEFadd (w : EWord) (s : State) : Res :=
  .next (s.floatOp 0x30 w fun rm m a b _ => roundOut m rm (Val.add rm (m.val a) (m.val b)))

/-- FSUB (R118). -/
def execEFsub (w : EWord) (s : State) : Res :=
  .next (s.floatOp 0x31 w fun rm m a b _ => roundOut m rm (Val.add rm (m.val a) ((m.val b).flip true)))

/-- FMUL (R118). -/
def execEFmul (w : EWord) (s : State) : Res :=
  .next (s.floatOp 0x32 w fun rm m a b _ => roundOut m rm (Val.mul (m.val a) (m.val b)))

/-- FMA (R118). -/
def execEFma (w : EWord) (s : State) : Res := .next (s.floatOp 0x33 w fun rm m a b c => fusedMul m rm false false a b c)

/-- FMS (R118). -/
def execEFms (w : EWord) (s : State) : Res := .next (s.floatOp 0x34 w fun rm m a b c => fusedMul m rm false true a b c)

/-- FNMA (R118). -/
def execEFnma (w : EWord) (s : State) : Res := .next (s.floatOp 0x35 w fun rm m a b c => fusedMul m rm true false a b c)

/-- FMIN (R118). -/
def execEFmin (w : EWord) (s : State) : Res :=
  .next (s.floatOp 0x36 w fun rm m a b _ => roundOut m rm (Val.minmax false (m.val a) (m.val b), 0))

/-- FMAX (R118). -/
def execEFmax (w : EWord) (s : State) : Res :=
  .next (s.floatOp 0x37 w fun rm m a b _ => roundOut m rm (Val.minmax true (m.val a) (m.val b), 0))

/-- FABS (R118). -/
def execEFabs (w : EWord) (s : State) : Res := .next (s.floatOp 0x38 w fun rm m a _ _ => roundOut m rm ((m.val a).abs, 0))

/-- FNEG (R118). -/
def execEFneg (w : EWord) (s : State) : Res := .next (s.floatOp 0x39 w fun rm m a _ _ => roundOut m rm ((m.val a).flip true, 0))

/-- A floating comparison: 1 or 0 per element; with a NaN operand the given result, and nv when signalling (R119). -/
def floatCmp (m : Fmt) (onNan signalling : Bool) (p : Val → Val → Bool) (a b : Nat) : Nat × FlagSet :=
  let x := m.val a
  let y := m.val b
  if x.isNan || y.isNan then (onNan.toNat, flagIf signalling fNv) else ((p x y).toNat, 0)

/-- FCMPEQ (R119). -/
def execEFcmpeq (w : EWord) (s : State) : Res :=
  .next (s.floatOp 0x3A w fun _ m a b _ => floatCmp m false false (fun x y => !x.lt false y && !y.lt false x) a b)

/-- FCMPLT (R119). -/
def execEFcmplt (w : EWord) (s : State) : Res :=
  .next (s.floatOp 0x3B w fun _ m a b _ => floatCmp m false true (fun x y => x.lt false y) a b)

/-- FCMPLE (R119). -/
def execEFcmple (w : EWord) (s : State) : Res :=
  .next (s.floatOp 0x3C w fun _ m a b _ => floatCmp m false true (fun x y => !y.lt false x) a b)

/-- FCMPUN (R119). -/
def execEFcmpun (w : EWord) (s : State) : Res :=
  .next (s.floatOp 0x3D w fun _ m a b _ => floatCmp m true false (fun _ _ => false) a b)

/-- The class bit of an element (R120). -/
def classBit (m : Fmt) (a : Nat) : Nat :=
  match m.val a with
  | .nan => 8
  | .inf n => if n then 0 else 7
  | .fin n k _ =>
    if k = 0 then (if n then 3 else 4)
    else if k < 2 ^ m.mbits then (if n then 2 else 5)
    else (if n then 1 else 6)

/-- FCLASS (R120). -/
def execEFclass (w : EWord) (s : State) : Res := .next (s.floatOp 0x3E w fun _ m a _ _ => (2 ^ classBit m a, 0))

/-- FRCP (R121). -/
def execEFrcp (w : EWord) (s : State) : Res :=
  .next (s.floatOp 0x3F w fun rm m a _ _ => roundOut m rm (Val.div (.fin false 1 0) (m.val a)))

/-- FRSQ (R121). -/
def execEFrsq (w : EWord) (s : State) : Res := .next (s.floatOp 0x40 w fun rm m a _ _ => roundOut m rm (m.val a).rsqrt)

/-- FSQRT (R121). -/
def execEFsqrt (w : EWord) (s : State) : Res := .next (s.floatOp 0x41 w fun rm m a _ _ => roundOut m rm (m.val a).sqrt)

/-- FDIV (R121). -/
def execEFdiv (w : EWord) (s : State) : Res :=
  .next (s.floatOp 0x42 w fun rm m a b _ => roundOut m rm (Val.div (m.val a) (m.val b)))

/-- FEXP2 (R121). -/
def execEFexp2 (w : EWord) (s : State) : Res := .next (s.floatOp 0x43 w fun rm m a _ _ => roundOut m rm (m.val a).exp2)

/-- FLOG2 (R121). -/
def execEFlog2 (w : EWord) (s : State) : Res := .next (s.floatOp 0x44 w fun rm m a _ _ => roundOut m rm (m.val a).log2)

/-- f32 sum of two values with flags, rounded at the node (R66). -/
def addF32 (rm : Nat) (x y : W32 × FlagSet) : W32 × FlagSet :=
  let (b, f) := roundOut f32 rm (Val.add rm (f32.val x.1.toNat) (f32.val y.1.toNat))
  (BitVec.ofNat 32 b, x.2 ||| y.2 ||| f)

/-- f32 minimum or maximum of two values; NaN made canonical (R64, R66). -/
def mmF32 (wantMax : Bool) (x y : W32 × FlagSet) : W32 × FlagSet :=
  (BitVec.ofNat 32 (f32.round 0 false (Val.minmax wantMax (f32.val x.1.toNat) (f32.val y.1.toNat))).1, x.2 ||| y.2)

/-- A NaN is canonical (R39). -/
def canonF32 (x : W32) : W32 := if (f32.val x.toNat).isNan then BitVec.ofNat 32 f32.nan else x

/-- A floating cross-lane reduction (R122). -/
def State.freduceOp (s : State) (op : Nat) (w : EWord) (f : Nat → W32 × FlagSet → W32 × FlagSet → W32 × FlagSet) : State :=
  s.genOp op w (fun r _ => decide (r.a.valid ≠ 0))
    (fun r _ =>
      let (x, g) := (tree16 (f r.rm) ((present w r.a).map fun o => o.map fun x => (x, (0 : FlagSet)))).getD (0, 0)
      (canonF32 x, g))

/-- FRSUM (R122). -/
def execEFrsum (w : EWord) (s : State) : Res := .next (s.freduceOp 0x45 w addF32)

/-- FRMAX (R122). -/
def execEFrmax (w : EWord) (s : State) : Res := .next (s.freduceOp 0x46 w fun _ => mmF32 true)

/-- FRMIN (R122). -/
def execEFrmin (w : EWord) (s : State) : Res := .next (s.freduceOp 0x47 w fun _ => mmF32 false)

/-- The pairs of a lane dot product (R65, R123). -/
def dotPairs (ty : Nat) (a b : W32) : List (Val × Val) :=
  (List.range (laneCount ty)).map fun j => (elemVal ty (elemAt ty a j), elemVal ty (elemAt ty b j))

/-- Integer dot product of bytes (R65). -/
def dotInt (a b : W32) : Int :=
  (List.range 4).foldl (fun t j => t + sx 8 (elemAt 6 a j) * sx 8 (elemAt 6 b j)) 0

/-- DOT (R65, R123). -/
def execEDot (w : EWord) (s : State) : Res :=
  .next (s.laneOp 0x48 w fun rm a b _ =>
    if w.ty = 6 then (BitVec.ofInt 32 (dotInt a b), 0)
    else
      let (x, f) := roundOut f32 rm (Val.dot rm (dotPairs w.ty.toNat a b))
      (BitVec.ofNat 32 x, f))

/-- The accumulator joins the exact sum of the products before the one rounding; an exact zero sum keeps it, sign included (R65, R60). -/
def dotAcc (rm : Nat) (ps : List (Val × Val)) (c : W32) : W32 × FlagSet :=
  let (p, f) := Val.dot rm ps
  if p.isZero then (canonF32 c, f)
  else
    let (t, g) := Val.add rm p (f32.val c.toNat)
    let (x, h) := roundOut f32 rm (t, f ||| g)
    (BitVec.ofNat 32 x, h)

/-- DOTA (R65, R123). -/
def execEDota (w : EWord) (s : State) : Res :=
  .next (s.laneOp 0x49 w fun rm a b c =>
    if w.ty = 6 then (BitVec.ofInt 32 (dotInt a b + c.toInt), 0) else dotAcc rm (dotPairs w.ty.toNat a b) c)

/-- FSCALE: n is lane i of b as an i32, for every element (R118). -/
def execEFscale (w : EWord) (s : State) : Res :=
  .next (s.laneOp 0x4A w fun rm a b _ =>
    perFloat w.ty (fun m x _ _ => roundOut m rm ((m.val x).scale b.toInt, 0)) a 0 0)

/-- An element rounded to an integral value, no flag (R118). -/
def roundIntegral (m : Fmt) (rm : Nat) (a : Nat) : Nat :=
  match m.val a with
  | .fin n k e =>
    if k = 0 ∨ 0 ≤ e then a
    else
      let (i, _) := roundInt rm n k e
      if i = 0 then m.signed n 0 else (m.round rm false (.fin n i.natAbs 0)).1
  | .inf _ => a
  | .nan => m.nan

/-- FROUND (R118). -/
def execEFround (w : EWord) (s : State) : Res := .next (s.floatOp 0x4B w fun rm m a _ _ => (roundIntegral m rm a, 0))

/-- FCVTI: f32 to i32, plain form (R118). -/
def execEFcvti (w : EWord) (s : State) : Res :=
  .next (s.laneOp 0x4C w fun rm a _ _ =>
    let (x, f) := toInt 32 rm false (f32.val a.toNat)
    (BitVec.ofNat 32 x, f))

/-- ICVTF: i32 to f32 (R118). -/
def execEIcvtf (w : EWord) (s : State) : Res :=
  .next (s.laneOp 0x4D w fun rm a _ _ =>
    let (x, f) := f32.round rm false (Val.ofInt a.toInt)
    (BitVec.ofNat 32 x, f))

/-- FCOPYS: magnitude of a, sign of b (R118). -/
def execEFcopys (w : EWord) (s : State) : Res :=
  .next (s.floatOp 0x4E w fun _ m a b _ =>
    (if (m.val a).isNan then m.nan
     else a % 2 ^ (m.mbits + m.ebits) + (b / 2 ^ (m.mbits + m.ebits)) * 2 ^ (m.mbits + m.ebits), 0))

/-- FMAXM (R118). -/
def execEFmaxm (w : EWord) (s : State) : Res :=
  .next (s.floatOp 0x4F w fun rm m a b _ => roundOut m rm (Val.maxMag (m.val a) (m.val b), 0))

/-- Conversion of element 0; the other elements are zero (R124). -/
def State.cvtOp (s : State) (op : Nat) (w : EWord) (sat : Bool) : State :=
  s.laneOp op w fun rm a _ _ =>
    let (x, f) := convert w.b.toNat w.ty.toNat rm sat (elemAt w.b.toNat a 0)
    (BitVec.ofNat 32 x, f)

/-- CVT, plain form (R124). -/
def execECvt (w : EWord) (s : State) : Res := .next (s.cvtOp 0x50 w false)

/-- CVTS, S form (R124). -/
def execECvts (w : EWord) (s : State) : Res := .next (s.cvtOp 0x51 w true)

/-- Elements converted one by one and packed, with the flags of all. -/
def convPack (src dst rm : Nat) (sat : Bool) (xs : List Nat) : W32 × FlagSet :=
  let rs := xs.map (convert src dst rm sat)
  (packElems dst (rs.map (·.1)), rs.foldl (fun f r => f ||| r.2) 0)

/-- PACK (R125). -/
def execEPack (w : EWord) (s : State) : Res :=
  .next (s.laneOp 0x52 w fun rm a b _ =>
    let sat := decide (w.c.toNat % 2 = 1)
    if w.ty = 2 ∨ w.ty = 3 then convPack 1 w.ty.toNat rm sat [a.toNat, b.toNat]
    else
      let src := if w.c.toNat / 2 % 2 = 1 then 3 else 2
      convPack src w.ty.toNat rm sat [elemAt src a 0, elemAt src a 1, elemAt src b 0, elemAt src b 1])

/-- Half of a lane widened (R126). -/
def State.unpkOp (s : State) (op : Nat) (w : EWord) (hi : Nat) : State :=
  s.laneOp op w fun rm a _ _ =>
    let n := laneCount w.ty.toNat
    convPack w.b.toNat w.ty.toNat rm false ((List.range n).map fun j => elemAt w.b.toNat a (hi * n + j))

/-- UNPKL (R126). -/
def execEUnpkl (w : EWord) (s : State) : Res := .next (s.unpkOp 0x53 w 0)

/-- UNPKH (R126). -/
def execEUnpkh (w : EWord) (s : State) : Res := .next (s.unpkOp 0x54 w 1)

/-- Source format and the 32 source values of a quantizer word (R129). -/
def quantSrc (w : EWord) (a b : VReg) : Fmt × List Val :=
  let k := (w.c.toNat / 2) % 4
  if k = 0 then
    (f32, (List.range 32).map fun i => f32.val (if i < 16 then a.lane i else b.lane (i - 16)).toNat)
  else
    let m := if k = 1 then bf16 else f16
    (m, (List.range 32).map fun i => m.val (elemAt (if k = 1 then 2 else 3) (a.lane (i / 2)) (i % 2)))

/-- Every used source lane is an input of every result lane (R129). -/
def quantOk (w : EWord) (a b : VReg) : Bool :=
  decide (a.valid = 0xFFFF) && (decide ((w.c.toNat / 2) % 4 ≠ 0) || decide (b.valid = 0xFFFF))

/-- A block in qblock form (R128). -/
def qblockLane (q : QBlock) (i : Nat) : W32 :=
  if i < 4 then packElems 7 ((List.range 8).map fun j => q.codes.getD (8 * i + j) 0)
  else if i = 4 then BitVec.ofNat 32 (q.s + 256 * q.x) else 0

/-- QMX and QBX (R129): flags are those of the whole block, once. -/
def State.quantOp (s : State) (op : Nat) (w : EWord) (bx : Bool) : State :=
  s.genOp op w (fun r _ => quantOk w r.a r.b) (fun r i =>
    let (m, vs) := quantSrc w r.a r.b
    let q := quantize bx m r.rm (decide (w.c.toNat % 2 = 1)) vs
    (qblockLane q i, q.flags))

/-- QMX (R129). -/
def execEQmx (w : EWord) (s : State) : Res := .next (s.quantOp 0x55 w false)

/-- QBX (R129). -/
def execEQbx (w : EWord) (s : State) : Res := .next (s.quantOp 0x56 w true)

/-- DQ (R131): codes from lanes 4q to 4q + 3 of a, scale and X from lane 4 of b or the word b. -/
def execEDq (w : EWord) (s : State) : Res :=
  let c := w.c.toNat
  let q := (c / 2) % 4
  let n := laneCount w.ty.toNat
  let first := fun i => if w.ty = 1 then 16 * ((c / 8) % 2) + i else 2 * i
  let scaleLane := if oneWord w.b.toNat then 0 else 4
  .next (s.genOp 0x57 w
    (fun r i => r.a.ok (4 * q + first i / 8) && r.b.ok scaleLane)
    (fun r i =>
      let sx := (r.b.lane scaleLane).toNat
      let rs := (List.range n).map fun j =>
        let e := first i + j
        (fmtOf w.ty.toNat).round r.rm (decide (c % 2 = 1))
          (fp4Val (decide ((c / 16) % 2 = 1)) (sx % 256) (sx / 256 % 256) (elemAt 7 (r.a.lane (4 * q + e / 8)) (e % 8)))
      (packElems w.ty.toNat (rs.map (·.1)), rs.foldl (fun f x => f ||| x.2) 0)))

/-- SCLX: the scale byte R54 would choose; nv for an infinity in the plain form (R130). -/
def execESclx (w : EWord) (s : State) : Res :=
  .next (s.genOp 0x58 w (fun r _ => quantOk w r.a r.b) (fun r _ =>
    let (m, vs) := quantSrc w r.a r.b
    let sat := decide (w.c.toNat % 2 = 1)
    (BitVec.ofNat 32 (quantize false m r.rm sat vs).s, flagIf (!sat && vs.any Val.isInf) fNv)))

/-- NARW: converts r source lanes into one result lane; the other lanes are valid zero (R127). -/
def execENarw (w : EWord) (s : State) : Res :=
  let src := w.b.toNat
  let dst := w.ty.toNat
  let r := laneCount dst / laneCount src
  .next (s.genOp 0x59 w
    (fun x q => if 16 ≤ q * r then true else (List.range r).all fun j => x.a.ok (r * q + j))
    (fun x q =>
      if 16 ≤ q * r then (0, 0)
      else convPack src dst x.rm (decide (w.c.toNat % 2 = 1))
        ((List.range (laneCount dst)).map fun e =>
          elemAt src (x.a.lane (r * q + e / laneCount src)) (e % laneCount src))))

/-- WIDN: converts elements of one source lane per result lane (R127). -/
def execEWidn (w : EWord) (s : State) : Res :=
  let src := w.b.toNat
  let dst := w.ty.toNat
  let h := (w.c.toNat / 2) % 4
  let first := fun i => 16 * laneCount dst * h + laneCount dst * i
  .next (s.genOp 0x5A w
    (fun x i => x.a.ok (first i / laneCount src))
    (fun x i => convPack src dst x.rm (decide (w.c.toNat % 2 = 1))
      ((List.range (laneCount dst)).map fun j =>
        elemAt src (x.a.lane ((first i + j) / laneCount src)) ((first i + j) % laneCount src))))

end Sys2Proof.Machine
end

