-- ==== Sys2Proof/Machine/Memory.lean ====
section
/-! DEFINITION. Memory as requests see it: the address spaces (12 R277, R278, 19 R392), two-stage translation (20 R414 to R416), the page
ownership table and classes (12 R299 to R304, 21 R440, R451), committed bytes with compression at commit (12 R293 to R295), snapshots and
version sectors (13 R308, R314, R315), dirty log and migration marks (19 R405, 20 R424). -/
namespace Sys2Proof.Machine

/-- Why an access is refused: trap class and code (R370), and the failing translation stage for a lease fault (R417). -/
structure Deny where
  cls : Nat
  code : Nat
  stage : Nat := 0
  deriving DecidableEq, Repr

def dMisaligned : Deny := { cls := 2, code := 1 }
def dUnmapped : Deny := { cls := 2, code := 2 }
def dSpRange : Deny := { cls := 2, code := 3 }
def dLease : Deny := { cls := 2, code := 4 }
def dSealed : Deny := { cls := 2, code := 5 }
def dVersion : Deny := { cls := 2, code := 6 }
def dIntegrity : Deny := { cls := 2, code := 7 }
def dNoFormat : Deny := { cls := 2, code := 8 }
def dPot : Deny := { cls := 3, code := 1 }
/-- A crossbar's refusal: a task raises the trap of the POT check, a graph word fault 0x02 instead of 0x08 (R411, R301). -/
def dXbar : Deny := { dPot with stage := 4 }
def dClass : Deny := { cls := 3, code := 2 }
def dPriv : Deny := { cls := 3, code := 3 }

/-! Devices, dies, home slices. -/

/-- This device's number (R393); 0x3FFF stands for no domain. -/
def State.devNum (s : State) : Nat := fld s.dev.domid 13 0

/-- The die field that names a die of this device (R392). -/
def State.dieField (s : State) (d : Nat) : Nat := if s.devNum = 0x3FFF then d else 4 * s.devNum + d

/-- A register with a 64-bit base and size naming a range of physical addresses: is pa inside? -/
def inRange {n : Nat} (r : BitVec n) (pa : Nat) : Bool :=
  decide (fld r 63 0 ≤ pa ∧ pa < fld r 63 0 + fld r 127 64)

/-- Home slice of a physical address of a die (R286). -/
def Die.homeSlice (x : Die) (pa : Nat) : Nat :=
  match x.thome.find? fun r => inRange r pa with
  | some r =>
    let t := (pa - fld r 63 0) / 2 ^ fld r 132 128
    let d0 := fld r 140 133 + 1
    let d1 := fld r 148 141 + 1
    let d2 := fld r 156 149 + 1
    (t % d0 + 3 * ((t / d0) % d1) + 7 * ((t / (d0 * d1)) % d2) + 9 * ((t / (d0 * d1 * d2)) % 65536)) % 10
  | none =>
    let x := (pa >>> 9) % 2 ^ 39
    ((x % 65536) ^^^ ((x >>> 16) % 65536) ^^^ (x >>> 32)) % 10

/-- L2 set index (R285). -/
def l2Set (pa : Nat) : Nat := bitsOf pa 18 9 ^^^ bitsOf pa 28 19

/-! Committed bytes. -/

/-- Storage address of a byte of HBM: die and physical address in one number. -/
def hbmKey (d pa : Nat) : Nat := d * 2 ^ 48 + pa

/-- Element type, element bytes, ratio and stored format of a compression range (R293). -/
def cmpForm (r : BitVec 320) : Fmt × Nat × Nat × Fmt :=
  let ty := fld r 259 258
  let f := if ty = 0 then f32 else if ty = 1 then bf16 else f16
  let ratio := if fld r 257 256 = 1 then 2 else 4
  (f, if ty = 0 then 4 else 2, ratio, if ty = 0 ∧ ratio = 2 then bf16 else e4m3)

/-- The compression range that holds a physical address (R293), with its number. -/
def Die.cmpAt (x : Die) (pa : Nat) : Option (Nat × BitVec 320) :=
  (x.cmprange.zipIdx.find? fun (r, _) => decide (fld r 257 256 ≠ 0) && inRange r pa).map fun (r, i) => (i, r)

/-- A value scaled by a power of two. -/
def cmpDecode (f g : Fmt) (m code : Nat) : Nat :=
  match g.val code with
  | .nan => f.nan
  | v => (f.round 0 true (if m = 0 then v else v.scale ((m : Int) - 128))).1

/-- Byte pa of a compressed range as its backing store and metadata decode (R294). -/
def cmpByte (hbm : List Host.Cell) (d : Nat) (r : BitVec 320) (pa : Nat) : Byte :=
  let (f, eb, ratio, g) := cmpForm r
  let off := pa - fld r 63 0
  let line := off / 512
  let m := (cellGet hbm (hbmKey d (fld r 255 192 + line))).toNat
  let e := (off % 512) / eb
  let gb := g.width / 8
  let at_ := hbmKey d (fld r 191 128 + line * 512 / ratio + e * gb)
  let code := leNat (cellsRead hbm at_ gb)
  BitVec.ofNat 8 (cmpDecode f g m code / 256 ^ (off % eb))

/-- The number that names a physical page of a die. -/
def pageKey (d page : Nat) : Nat := d * 2 ^ 32 + page

/-- The byte of a page that a save has written and nothing has overwritten since: ciphertext of a save slot (R383, log 5, 25). -/
def State.slotByte (s : State) (d pa : Nat) : Option Byte :=
  (s.slotImg.find? fun x => decide (x.1 = pageKey d (pa / 65536))).map fun (_, tid, i, gen) =>
    Config.saveCipher tid (i * 65536 + pa % 65536) gen

/-- A save writes its slot: the pages show its ciphertext from now on (R383). -/
def State.writeSlot (s : State) (tid gen : Nat) (ps : List (Nat × Nat)) : State :=
  { s with slotImg := (ps.zipIdx.map fun ((d, p), i) => (pageKey d p, tid, i, gen))
      ++ s.slotImg.filter fun x => !ps.any fun (d, p) => decide (x.1 = pageKey d p) }

/-- The page of the page ownership table that holds a physical address (R440). -/
def State.potAt (s : State) (d pa : Nat) : Option PotE := assocGet s.tum.pot (d * 2 ^ 32 + pa / 65536)

/-- The compression range of a physical address: none in a page of class C, for which R301 refuses compression (R293, log 86). -/
def State.cmpAt (s : State) (d pa : Nat) : Option (Nat × BitVec 320) :=
  if (s.potAt d pa).any fun e => decide (e.cls = 4) then none else (s.die d).cmpAt pa

/-- The committed byte at a physical address (R295). -/
def State.committed (s : State) (d pa : Nat) : Byte :=
  match s.slotByte d pa with
  | some b => b
  | none =>
    match s.cmpAt d pa with
    | none => cellGet s.hbm (hbmKey d pa)
    | some (_, r) => cmpByte s.hbm d r pa

/-- A write into the save slot of a saved task breaks a tag of it (R383). -/
def State.tamper (s : State) (d : Nat) (pas : List Nat) : State :=
  if s.tasks.any fun (_, t) => pas.any fun pa => t.slotPages.contains (d, pa / 65536) then
    { s with tasks := s.tasks.map fun (k, t) =>
        if pas.any fun pa => t.slotPages.contains (d, pa / 65536) then (k, { t with tampered := true })
        else (k, t) }
  else s

/-- n committed bytes. -/
def State.committedN (s : State) (d pa : Nat) : Nat → List Byte
  | 0 => []
  | n + 1 => s.committed d pa :: s.committedN d (pa + 1) n

/-- Encoding of a line of element values in the stored format: metadata byte and codes (R294). -/
def cmpEncode (f g : Fmt) (xs : List Nat) : Nat × List Nat :=
  let vs := xs.map f.val
  let fits := fun (v : Val) => match v with
    | .nan => true
    | v => decide ((g.round 0 false v).1 % 2 ^ (g.ebits + g.mbits) ≤ g.maxFin)
  let nanOrFin := vs.all fun v => !v.isInf
  if nanOrFin && vs.all fits then (0, vs.map fun v => (g.round 0 false v).1)
  else
    let sats := vs.map fun v => match v with
      | .inf n => f.val (f.signed n f.maxFin)
      | v => v
    let s := ((List.range 126).map (· + 1)).find? fun k => sats.all fun v => fits (v.scale (-(k : Int)))
    let k := s.getD 127
    (k + 128, sats.map fun v => (g.round 0 true (v.scale (-(k : Int)))).1)

/-- Values of the elements of a byte list, eb bytes each. -/
def elemsOf (eb : Nat) : Nat → List Byte → List Nat
  | 0, _ => []
  | n + 1, bs => leNat (bs.take eb) :: elemsOf eb n (bs.drop eb)

/-- A committed line of a compression range written whole from 512 decoded bytes: backing bytes, metadata and counters (R295, R344). -/
def State.putCmpLine (s : State) (d i : Nat) (r : BitVec 320) (line : Nat) (bytes : List Byte) : State :=
  let (f, eb, ratio, g) := cmpForm r
  let (m, codes) := cmpEncode f g (elemsOf eb (512 / eb) bytes)
  let gb := g.width / 8
  let h1 := cellsWrite s.hbm (hbmKey d (fld r 191 128 + line * 512 / ratio)) (codes.flatMap (leBytes gb))
  let h2 := cellSet h1 (hbmKey d (fld r 255 192 + line)) (BitVec.ofNat 8 m)
  let bump := fun (c : BitVec 128) =>
    if m = 0 then setFld c 31 0 (min (fld c 31 0 + 1) 0xFFFFFFFF) else setFld c 63 32 (min (fld c 63 32 + 1) 0xFFFFFFFF)
  ({ s with hbm := h2 } : State).modDie d fun x => { x with cmpcnt := modAt x.cmpcnt i bump }

/-- Error sites of lines that a change writes whole are gone, in HBM and in the L2: their check values are new (R478). -/
def State.mend (s : State) (d : Nat) (bs : List (Nat × Byte)) : State :=
  let whole := fun (x pa : Nat) => decide (x = d) && (List.range 512).all fun i => bs.any fun (a, _) => decide (a = pa / 512 * 512 + i)
  let gone := fun (e : HwSite) => match e with
    | .hbm x pa => whole x pa
    | .l2 x pa => whole x pa
    | _ => false
  if s.errs.isEmpty then s else { s with errs := s.errs.filter fun e => !gone e }

/-- Error sites of scratchpad words that a write covers are gone (R390, R478). -/
def State.mendWords (s : State) (p c : Nat) (offs : List Nat) : State :=
  let gone := fun (e : HwSite) => match e with
    | .scratch q k o => decide (q = p ∧ k = c) && (List.range 4).all fun i => offs.contains (o / 4 * 4 + i)
    | _ => false
  if s.errs.isEmpty then s else { s with errs := s.errs.filter fun e => !gone e }

/-- Error sites of version sectors that a write covers are gone (R390, R478). -/
def State.mendSectors (s : State) (d : Nat) (pas : List Nat) : State :=
  let gone := fun (e : HwSite) => match e with
    | .version x a => decide (x = d) && (List.range 128).all fun i => pas.contains (a / 128 * 128 + i)
    | _ => false
  if s.errs.isEmpty then s else { s with errs := s.errs.filter fun e => !gone e }

/-- Storage of a list of bytes of one die; each touched line of a compression range is encoded once (R295). -/
def State.putBytes (s : State) (d : Nat) (bs : List (Nat × Byte)) : State :=
  let plain := bs.filter fun (pa, _) => (s.cmpAt d pa).isNone
  let s1 := { s with hbm := plain.foldl (fun h (pa, b) => cellSet h (hbmKey d pa) b) s.hbm }
  let lines := (bs.filterMap fun (pa, _) => (s.cmpAt d pa).map fun (i, r) => (i, r, (pa - fld r 63 0) / 512)).eraseDups
  lines.foldl (fun s2 (i, r, line) =>
    let base := fld r 63 0 + 512 * line
    let old := s.committedN d base 512
    let new := bs.foldl (fun l (pa, b) => if base ≤ pa ∧ pa < base + 512 then l.set (pa - base) b else l) old
    s2.putCmpLine d i r line new) s1

/-- The bytes that a page of a save slot shows: its ciphertext (R383). -/
@[irreducible] def cipherBytes (key tid i gen : Nat) : List (Nat × Byte) :=
  (List.range 65536).map fun j => (key % 2 ^ 32 * 65536 + j, Config.saveCipher tid (i * 65536 + j) gen)

/-- A page of a save slot becomes ordinary bytes. -/
def State.unveilPage (s : State) (d key tid i gen : Nat) : State :=
  ({ s with slotImg := s.slotImg.filter fun y => decide (y.1 ≠ key) } : State).putBytes d (cipherBytes key tid i gen)

/-- A write into pages of a save slot: their ciphertext now stands in memory as ordinary bytes (R383, log 25). -/
def State.unveil (s : State) (d : Nat) (pas : List Nat) : State :=
  (s.slotImg.filter fun x => pas.any fun pa => decide (x.1 = pageKey d (pa / 65536))).foldl (fun s (key, tid, i, gen) =>
    s.unveilPage d key tid i gen) s

/-- Storage of a list of committed bytes of one die. -/
def State.store (s : State) (d : Nat) (bs : List (Nat × Byte)) : State :=
  ((s.mend d bs).unveil d (bs.map (·.1))).putBytes d bs
/-- Is a superstep of the task in progress, so that it may still read snapshots (R314)? -/
def Task.inStep (t : Task) : Bool :=
  decide (t.state = .running ∨ t.state = .saved ∨ t.state = .ending) ||
    (t.restore && decide (t.state = .leaseWait ∨ t.state = .pageWait ∨ t.state = .loading))

/-- Has a task lost a snapshot for want of room, so that it will restart its superstep or end (R315)? -/
def Task.overrun (t : Task) : Bool :=
  t.ovfl || t.causes.any (·.snap) || t.trap.any fun r => r.cause.snap

/-- Old values kept for every superstep of the partition that may read them (R308, R314). -/
def State.snapshot (s : State) (part d : Nat) (pas : List Nat) (not : List Nat) : State :=
  { s with tasks := s.tasks.map fun (k, t) =>
      if t.part = part ∧ t.inStep = true ∧ not.contains k = false ∧ t.overrun = false then
        (k, { t with snap := pas.foldl (fun l pa =>
          if l.any fun x => decide (x.1 = Loc.hbm d pa) then l else (Loc.hbm d pa, s.committed d pa) :: l) t.snap })
      else (k, t) }

/-- The bit of a die's page in the bitmap of an epoch: 2^21 pages for each die (R424, log 99). -/
def logBit (ep d page : Nat) : Nat := ep * 2 ^ 23 + d * 2 ^ 21 + page

/-- The dirty log of a partition records a changed page: its ring entry and its bitmap bit (R424). -/
def State.logDirty (s : State) (part d page : Nat) (sectors : List Nat) : State :=
  let lm := (s.part part).lm
  if lm.getLsbD 176 then
    let full := decide ((fld lm 95 80 + 65536 - fld lm 111 96) % 65536 = fld lm 79 64 % 65536)
    let mask := sectors.foldl (fun (m : BitVec 512) k => m ||| (1 <<< k)) 0
    let entry := leBytes 8 (s.dieField d * 2 ^ 48 + page * 65536) ++ leBytes 64 mask.toNat ++ List.replicate 56 0
    let n := fld lm 79 64
    let lbase := fld lm 63 0
    let at_ := lbase % 2 ^ 48 + 128 * (fld lm 95 80 % n)
    let s1 := if full ∨ n = 0 then s else
      let s0 := s.unveil (bitsOf lbase 49 48) [at_]
      { s0 with hbm := cellsWrite s0.hbm (hbmKey (bitsOf lbase 49 48) at_) entry }
    let sb := fld lm 175 112
    let bit := logBit (fld lm 178 178) d page
    let key := hbmKey (bitsOf sb 49 48) (sb % 2 ^ 48 + bit / 8)
    let s1' := s1.unveil (bitsOf sb 49 48) [sb % 2 ^ 48 + bit / 8]
    let s2 := { s1' with hbm := cellSet s1'.hbm key (cellGet s1'.hbm key ||| (1 <<< (bit % 8))) }
    s2.modPart part fun p =>
      { p with lm := if full ∨ n = 0 then setFld lm 177 177 1 else setFld lm 95 80 ((fld lm 95 80 + 1) % 65536)
               logged := if full ∨ n = 0 then p.logged else p.logged + 1 }
  else s

/-- Migration marks of changed sectors: set for sectors that the current round has already copied (R405). -/
def State.markMig (s : State) (d page : Nat) (sectors : List Nat) : State :=
  s.modDie d fun x =>
    { x with mig := x.mig.map fun m =>
        let st := fld m.reg 206 204
        if (st = 1 ∨ st = 2) ∧ fld m.reg 63 16 % 2 ^ 32 = page then
          { m with mask := sectors.foldl (fun (k : BitVec 512) i => if m.todo.contains i then k else k ||| (1 <<< i)) m.mask }
        else m }

/-! Translation. -/

/-- What a table entry says (R414): a table at an address, or a leaf with its output, permission and block size. -/
inductive Entry3 where
  | bad
  | table (oa : Nat)
  | leaf (die oa : Nat) (wr : Bool)
  deriving DecidableEq, Repr

/-- A table entry of a level (1 to 3) and a stage read under R414. -/
def readEntry (stage level e : Nat) : Entry3 :=
  let leaf := decide ((e / 2) % 2 = 1)
  let oa := (e / 65536) % 2 ^ 32
  let die := e / 2 ^ 48
  let block := if level = 1 then 26 else if level = 2 then 13 else 0
  if e % 2 = 0 ∨ (e / 8) % 2 ^ 13 ≠ 0 ∨ (stage = 1 ∧ die ≠ 0) ∨ 0x8FFF < die then .bad
  else if leaf then (if oa % 2 ^ block ≠ 0 then .bad else .leaf die oa (decide ((e / 4) % 2 = 1)))
  else if level = 3 then .bad else .table (oa * 65536)

/-- Index of a virtual page number (VA[47:16]) at a level (R414). -/
def levelIndex (level vpn : Nat) : Nat :=
  if level = 1 then (vpn / 2 ^ 26) % 64 else if level = 2 then (vpn / 2 ^ 13) % 8192 else vpn % 8192

/-- Output page of a leaf: the block's page plus the page's place inside the block. -/
def leafPage (level oa vpn : Nat) : Nat :=
  oa + vpn % 2 ^ (if level = 1 then 26 else if level = 2 then 13 else 0)

/-- Stage 2 on a die: lessee page to global die, page, permission (R415, R416). -/
def State.walk2From (s : State) (d : Nat) : Nat → Nat → Nat → Nat → Option (Nat × Nat × Bool)
  | 0, _, _, _ => none
  | fuel + 1, level, base, lpn =>
    match readEntry 2 level (leNat (s.committedN d (base + 8 * levelIndex level lpn) 8)) with
    | .bad => none
    | .table oa => s.walk2From d fuel (level + 1) oa lpn
    | .leaf g oa w => some (g, leafPage level oa lpn, w)

def State.walk2 (s : State) (d part lpn : Nat) : Option (Nat × Nat × Bool) :=
  let root := (s.partDie part d).s2root
  if root.getLsbD 0 then s.walk2From d 3 1 (fld root 47 9 * 512) lpn else none

/-- The module die that a global die number names, if it is one of this device (R392). -/
def State.localDie (s : State) (g : Nat) : Option Nat :=
  if s.devNum = 0x3FFF then (if g < 4 then some g else none) else if g / 4 = s.devNum then some (g % 4) else none

/-- A stage-1 table read: lessee address through stage 2, a G-class page of the partition (R416). A table address that stage 2 does not map fails in stage 2
(log 100). -/
def State.read1 (s : State) (d part la : Nat) : Except Nat Nat :=
  match s.walk2 d part (la / 65536) with
  | none => .error 2
  | some (g, ppn, _) =>
    match s.localDie g with
    | none => .error 1
    | some e =>
      match s.potAt e (ppn * 65536) with
      | none => .error 1
      | some p => if p.cls = 0 ∧ p.owner = part then .ok (leNat (s.committedN e (ppn * 65536 + la % 65536) 8)) else .error 1

def State.walk1From (s : State) (d part : Nat) : Nat → Nat → Nat → Nat → Except Nat (Nat × Bool)
  | 0, _, _, _ => .error 1
  | fuel + 1, level, base, vpn =>
    match s.read1 d part (base + 8 * levelIndex level vpn) with
    | .error st => .error st
    | .ok e =>
      match readEntry 1 level e with
      | .bad => .error 1
      | .table oa => s.walk1From d part fuel (level + 1) oa vpn
      | .leaf _ oa w => .ok (leafPage level oa vpn, w)

/-- Stage 1 of a tenant: the lessee page with its permission, or the stage that failed (R415, R416). -/
def State.walk1 (s : State) (d part tenant vpn : Nat) : Except Nat (Nat × Bool) :=
  let root := (s.partDie part d).s1root.getD tenant 0
  if root.getLsbD 0 then s.walk1From d part 3 1 (fld root 47 9 * 512) vpn else .error 1

/-- A full walk: the combined entry, or the stage that maps nothing (R416, R417). -/
def State.walk (s : State) (d part tenant vpn : Nat) : Except Nat TlbE :=
  match s.walk1 d part tenant vpn with
  | .error st => .error st
  | .ok (lpn, w1) =>
    match s.walk2 d part lpn with
    | none => .error 2
    | some (g, ppn, w2) =>
      .ok { part := part, tenant := tenant, vpn := vpn, lpn := lpn, out := g * 2 ^ 32 + ppn, wr := w1 && w2 }

/-- Translation at the owning die: a held entry, else a walk (R303, R394, R419). -/
def State.translate (s : State) (d part tenant vpn : Nat) : Except Nat TlbE :=
  match (s.die d).tlb.find? fun e => decide (e.part = part ∧ e.tenant = tenant ∧ e.vpn = vpn) with
  | some e => .ok e
  | none => s.walk d part tenant vpn

/-! Access checks (R304). -/

/-- The kinds of access of R301. -/
inductive Access where
  | read | write | matrix | fetch | record | any
  deriving DecidableEq, Repr

/-- Is session id open and bound to a context tag (R451)? -/
def State.bound (s : State) (id ctag : Nat) : Bool :=
  s.tum.sessions.any fun x => decide (x.id = id ∧ 16 * x.part + x.tenant = ctag)

/-- Does the class of a POT entry admit an access under a context tag (R301)? -/
def State.admits (s : State) (k : Access) (e : PotE) (ctag : Nat) : Bool :=
  match k with
  | .any => true
  | .read => decide (e.cls = 0) || (decide (e.cls = 1) && s.bound e.sess ctag)
  | .write => decide (e.cls = 0) || ((decide (e.cls = 1) || decide (e.cls = 2)) && s.bound e.sess ctag)
  | .matrix => decide (e.cls = 0) || (decide (e.cls = 1) && s.bound e.sess ctag) || decide (e.cls = 3)
  | .fetch => decide (e.cls = 4)
  | .record => decide (e.cls = 0) || decide (e.cls = 4)

/-- Where an access lands: HBM of a module die with its page's POT entry, or memory of another device. -/
inductive Place where
  | hbm (die pa : Nat) (pot : PotE)
  | peer (ctag va : Nat)
  deriving DecidableEq, Repr

/-- Who asks: partition, tenant, the die that 0xFFFF names (R387), and the issuing die with its crossbar port (R409). -/
structure Who where
  part : Nat
  tenant : Nat
  home : Nat
  die : Nat
  port : Nat
  deriving DecidableEq, Repr

def Who.ctag (w : Who) : Nat := 16 * w.part + w.tenant

/-- Is another device in this one's domain (R392, R393, log 6): the peer of a secured hinge link, one to which requests are held (R398), or one that switches reach
from a secured link? -/
def State.inDomain (s : State) (dev : Nat) : Bool :=
  decide (s.devNum ≠ 0x3FFF) &&
    let up := (s.dev.links.take 48).filter fun l => decide (fld l 1 0 = 2)
    up.any (fun l => decide (fld l 15 2 = dev)) || s.noRoute.contains dev || (!up.isEmpty && Config.inDomain dev)

/-- A die field resolved: module die, or the field of another device of the domain (R392). -/
def State.owning (s : State) (home df : Nat) : Except Deny (Nat ⊕ Nat) :=
  if df = 0xFFFF then .ok (.inl home)
  else if 0x9000 ≤ df ∨ s.devNum = 0x3FFF then .error dUnmapped
  else if df / 4 = s.devNum then .ok (.inl (df % 4))
  else if s.inDomain (df / 4) then .ok (.inr df) else .error dUnmapped

/-- The owner of an address whose die field the device has resolved itself: without a domain the fields 0 to 3 name its own dies (R373, R392). -/
def State.resolved (s : State) (home df : Nat) : Except Deny (Nat ⊕ Nat) :=
  if s.devNum = 0x3FFF ∧ df < 4 then .ok (.inl df) else s.owning home df


/-- A virtual address with its die field resolved (R387, R394). -/
def State.resolve (s : State) (home : Nat) (va : W64) : W64 :=
  if va.toNat / 2 ^ 48 = 0xFFFF then BitVec.ofNat 64 (s.dieField home * 2 ^ 48 + va.toNat % 2 ^ 48) else va

/-- Memory-side port of a target as the issuing die's crossbar numbers it (R409). -/
def memPort (from_ dest : Nat) (slice : Nat) : Nat :=
  if from_ = dest then slice else 10 + (if dest < from_ then dest else dest - 1)

/-- Do both matrices of the partition allow a pair on the issuing die (R411)? -/
def State.xbar (s : State) (w : Who) (m : Nat) : Bool :=
  let r := s.partDie w.part w.die
  r.cxm.getLsbD (16 * w.port + m) && r.lcxm.getLsbD (16 * w.port + m)

/-- The key under which memory of other devices is held for a partition's translated requests, by domain physical address (R394, log 6). -/
def peerKey (part : Nat) : Nat := 256 + part

/-- The checks of the die that serves a translated request: partition, write permission, class (R300, R301, R304, R416). -/
def State.potCheck (s : State) (part ctag : Nat) (k : Access) (write wr : Bool) (d pa : Nat) : Except Deny PotE :=
  match s.potAt d pa with
  | none => .error dPot
  | some p =>
    if p.owner ≠ part then .error dPot
    else if write && !wr then .error dClass
    else if !s.admits k p ctag then .error dClass
    else .ok p

/-- A request to memory of another device under a tag: that device's refusal, when it has sent one for the page (R395, log 6). A refusal by the class holds for
its kind of access alone. -/
def State.peerPlace (s : State) (c : Nat) (write : Bool) (a : Nat) : Except Deny Place :=
  match s.refused.find? fun x => decide (x.ctag = c ∧ x.page = a / 65536 ∧ (x.write = write ∨ ¬(x.cls = 3 ∧ x.code = 2))) with
  | some x => .error { cls := x.cls, code := x.code }
  | none => .ok (.peer c a)

/-- Translation, crossbar, POT and class of one byte range inside one page (R300, R301, R304, R394, R411, R416). A page of another device is reached by
the owning die's forward under its domain physical address; without a domain no hinge link carries it (R393, log 6). -/
def State.place (s : State) (w : Who) (k : Access) (write : Bool) (va : W64) : Except Deny Place :=
  match s.owning w.home (va.toNat / 2 ^ 48) with
  | .error e => .error e
  | .ok (.inr _) => if s.xbar w 13 then s.peerPlace w.ctag write va.toNat else .error dXbar
  | .ok (.inl d) =>
    match s.translate d w.part w.tenant (va.toNat / 65536 % 2 ^ 32) with
    | .error st => .error { dUnmapped with stage := st }
    | .ok e =>
      let ppn := e.out % 2 ^ 32
      match s.localDie (e.out / 2 ^ 32) with
      | none =>
        if !s.inDomain (e.out / 2 ^ 32 / 4) then .error dUnmapped
        else if !s.xbar w (if d = w.die then 13 else memPort w.die d 0) then .error dXbar
        else if write && !e.wr then .error dClass
        else s.peerPlace (peerKey w.part) write (e.out / 2 ^ 32 * 2 ^ 48 + ppn * 65536 + va.toNat % 65536)
      | some t =>
        let pa := ppn * 65536 + va.toNat % 65536
        if !s.xbar w (memPort w.die (if d = w.die then t else d) ((s.die t).homeSlice pa)) then .error dXbar
        else (s.potCheck w.part w.ctag k write e.wr t pa).map fun p => .hbm t pa p

/-- The spaces of bits [47:0] (R277). -/
inductive Space where
  | translated
  | scratch (rp core off : Nat)
  | none
  | privileged
  deriving DecidableEq, Repr

def spaceOf (va : W64) : Space :=
  let a := va.toNat % 2 ^ 48
  if a < 0x800000000000 then .translated
  else if a < 0xF00000000000 then .none
  else if a < 0xF00004000000 then
    let x := a - 0xF00000000000
    .scratch (x / 0x400000) ((x / 0x80000) % 8) (x % 0x80000)
  else if a < 0xF80000000000 then .none else .privileged

/-- Is [va, va + n) inside a lease, with 0xFFFF resolved on both (R302)? -/
def State.inLease (s : State) (home : Nat) (base size va : W64) (n : Nat) : Bool :=
  let a := (s.resolve home va).toNat
  let b := (s.resolve home base).toNat
  decide (b ≤ a ∧ a + n ≤ b + size.toNat)

/-- Is a byte range sealed for a partition (R322)? -/
def State.sealed (s : State) (part home : Nat) (va : W64) (n : Nat) : Bool :=
  let a := (s.resolve home va).toNat
  (s.part part).seals.any fun (b, z) => decide (b.toNat < a + n ∧ a < b.toNat + z.toNat)

/-- Is a cached line of 128 bytes of a die, or of another device, inside a sealed range, as a task's tenant maps the ranges (R322)? -/
def State.sealedLine (s : State) (t : Task) (d line : Nat) : Bool :=
  (s.part t.part).seals.any fun (b, z) =>
    (List.range (z.toNat / 65536)).any fun i =>
      match s.resolved (t.home.getD t.die) (b.toNat / 2 ^ 48) with
      | .ok (.inl e) =>
        (match s.translate e t.part t.tenant ((b.toNat / 65536 + i) % 2 ^ 32) with
        | .ok x => decide (s.localDie (x.out / 2 ^ 32) = some d ∧ x.out % 2 ^ 32 = line / 512)
        | .error _ => false)
      | .ok (.inr df) => decide (d = 4 + df ∧ b.toNat % 2 ^ 48 / 65536 + i = line / 512)
      | .error _ => false
/-- The port of a cluster (R409). -/
def clusterPort (page : Nat) : Nat := (page % 40) / 4

/-- A task's identity as requester from one of its pages. -/
def State.who (_s : State) (t : Task) (page : Nat) : Who :=
  { part := t.part, tenant := t.tenant, home := t.home.getD (page / 40), die := page / 40, port := clusterPort page }

/-- The checks of a task's access to n bytes that lie in one 64 KiB page or one scratchpad (R278, R302, R304, R392): the place. -/
def State.taskPlace (s : State) (t : Task) (w : Who) (k : Access) (write : Bool) (va : W64) (n : Nat) : Except Deny (Loc × Option PotE) :=
  match spaceOf va with
  | .none => .error dUnmapped
  | .privileged =>
    match s.owning w.home (va.toNat / 2 ^ 48) with
    | .error e => .error e
    | .ok _ => .error dPriv
  | .scratch rp core off =>
    let df := va.toNat / 2 ^ 48
    if df ≠ 0xFFFF ∧ df ≠ s.dieField w.die then .error dSpRange
    else if t.npages ≤ rp then .error dSpRange
    else if t.img.folded then
      (if 0x40000 < off + n then .error dSpRange else .ok (.sp rp core off, none))
    else if 0x80000 < off + n then .error dSpRange
    else .ok (.sp rp core off, none)
  | .translated =>
    match s.owning w.home (va.toNat / 2 ^ 48) with
    | .error e => .error e
    | .ok _ =>
      if !s.inLease w.home t.rcd.lbase t.rcd.lsize va n then .error dLease
      else
        match s.place w k write va with
        | .error e => .error e
        | .ok (.peer c a) => .ok (.peer c (s.resolve w.home (BitVec.ofNat 64 a)).toNat, none)
        | .ok (.hbm d pa p) => .ok (.hbm d pa, some p)

/-- The next location of a byte. -/
def Loc.add : Loc → Nat → Loc
  | .hbm d pa, i => .hbm d (pa + i)
  | .sp r c o, i => .sp r c (o + i)
  | .peer c a, i => .peer c (a + i)

/-- The 128-byte sector of a location. -/
def Loc.sector : Loc → Loc
  | .hbm d pa => .hbm d (pa / 128)
  | .sp r c o => .sp r c (o / 128)
  | .peer c a => .peer c (a / 128)

/-- Pieces of a byte range that stay within one 64 KiB page (R419: one translation each). -/
def pieces : Nat → W64 → Nat → List (W64 × Nat)
  | 0, _, _ => []
  | fuel + 1, va, n =>
    if n = 0 then []
    else
      let k := min n (65536 - va.toNat % 65536)
      (va, k) :: pieces fuel (va + BitVec.ofNat 64 k) (n - k)

/-- The rank of a refusal in the order of R304. -/
def Deny.rank (d : Deny) : Nat :=
  if d = dMisaligned then 0
  else if d.cls = 2 ∧ (d.code = 2 ∨ d.code = 3) ∧ d.stage = 0 ∨ d = dPriv then 1
  else if d = dLease then 2
  else if d.code = 2 ∧ d.cls = 2 then 3
  else if d = dPot ∨ d = dXbar then 4
  else if d = dClass then 5
  else 6

/-- The refusal of lowest rank among pieces (R304). -/
def firstDeny {α : Type} : List (Except Deny α) → Option Deny
  | [] => none
  | .ok _ :: r => firstDeny r
  | .error e :: r =>
    match firstDeny r with
    | none => some e
    | some d => if d.rank < e.rank then some d else some e

/-- The pieces of an element with their places, or the refusal that comes first (R304). -/
def State.taskPlaces (s : State) (t : Task) (w : Who) (k : Access) (write : Bool) (va : W64) (n : Nat) :
    Except Deny (List (Loc × Nat × Option PotE)) :=
  let rs := (pieces (n / 65536 + 2) va n).map fun (a, m) =>
    match s.taskPlace t w k write a m with
    | .ok (l, p) => Except.ok (l, m, p)
    | .error e => .error e
  match firstDeny rs with
  | some e => .error e
  | none => .ok (rs.filterMap fun r => match r with
    | .ok x => some x
    | .error _ => none)

/-- Does an element touch a keyed bank of a scratchpad of the region (R281)? -/
def State.touchesKeyed (s : State) (t : Task) (ps : List (Loc × Nat × Option PotE)) : Bool :=
  ps.any fun (l, n, _) => match l with
    | .sp rp c off =>
      (match t.holds rp with
      | none => false
      | some p => (List.range 8).any fun b =>
          (s.core p c).ckb.getLsbD b && decide (b * 65536 < t.spOff rp off + n ∧ t.spOff rp off < (b + 1) * 65536))
    | _ => false

/-- The L1 that serves a core's reads: its own, or for a fused task one of its cluster's 32 (R282, R284). -/
def l1Home (t : Task) (p c pa : Nat) : Nat × Nat :=
  if t.fused then
    let i := bitsOf pa 11 7 ^^^ bitsOf pa 16 12
    (p / 4 * 4 + i / 8, i % 8)
  else (p, c)

/-- The requests of 128 bytes that a byte range takes, by line number (R282). -/
def linesOf (a n : Nat) : List Nat := (List.range (if n = 0 then 0 else (a + n - 1) / 128 - a / 128 + 1)).map fun i => a / 128 + i

/-- Does the L1 that serves a core hold a line, unmarked (R282, R284, R308)? -/
def State.inL1 (s : State) (t : Task) (p c die line : Nat) : Bool :=
  let (hp, hc) := l1Home t p c (line * 128)
  (s.core hp hc).l1.any fun x => decide (x.die = die ∧ x.line = line) && !x.marked

/-- Is a line of 512 bytes in the L2 of its die? -/
def State.inL2 (s : State) (d line : Nat) : Bool :=
  (s.die d).slices.any fun sl => sl.lines.any fun l => decide (l.line = line)

/-- Does a site with an uncorrectable error spoil a read of a line of 512 bytes of HBM (R390)? A copy in the L2 serves the read: it is bad only with an error of its
own, which it has when it was filled from a bad line. -/
def State.badLine (s : State) (e : HwSite) (d line : Nat) : Bool :=
  match e with
  | .hbm x a => decide (x = d ∧ a / 512 = line) && !s.inL2 d line
  | .l2 x a => decide (x = d ∧ a / 512 = line) && s.inL2 d line
  | _ => false

/-- Does an element read bytes of a site with an uncorrectable error (R289, R390)? via names the core whose L1 serves the read, if any: its copies are
good. -/
def State.touchesBad (s : State) (t : Task) (ps : List (Loc × Nat × Option PotE)) (via : Option (Nat × Nat)) : Bool :=
  s.errs.any fun e => ps.any fun (l, n, _) => match e, l with
    | .version d a, .hbm d' pa => decide (d = d' ∧ a / 128 * 128 < pa + n ∧ pa < (a / 128 + 1) * 128)
        && t.ver.any fun c => decide (c.loc.sector = Loc.hbm d (a / 128))
    | e, .hbm d pa => (linesOf pa n).any fun x => s.badLine e d (x / 4) && !(via.any fun (p, c) => s.inL1 t p c d x)
    | .scratch p c o, .sp rp c' off => decide (t.holds rp = some p ∧ c = c' ∧ o / 4 * 4 < t.spOff rp off + n ∧ t.spOff rp off < (o / 4 + 1) * 4)
    | _, _ => false

/-- The class that a stream record names, checked after the POT (R351): every translated page's class equals it. -/
def classMatches (cls : Nat) (ps : List (Loc × Nat × Option PotE)) : Bool :=
  ps.all fun (_, _, p) => match p with
    | some e => decide (e.cls = cls)
    | none => true

/-- Every check of an element before its integrity, in the order of R304: alignment, space, lease, POT, class (that of a record first, R351), sealed range
(R322), keyed bank with the trap its path names (with operand, that trap for an O-class page too, R149). -/
def State.elemPlaces (s : State) (t : Task) (w : Who) (k : Access) (write : Bool) (va : W64) (n align : Nat) (cls : Option Nat)
    (keyed : Option Deny) (operand : Bool := false) : Except Deny (List (Loc × Nat × Option PotE)) :=
  let named := fun (ps : List (Loc × Nat × Option PotE)) => cls.all fun c => classMatches c ps
  if va.toNat % align ≠ 0 then .error dMisaligned
  else
    match s.taskPlaces t w k write va n with
    | .error e =>
      if operand && decide (e = dClass) && (match s.taskPlaces t w .any write va n with
        | .ok ps => named ps && ps.any fun (_, _, p) => p.any fun x => decide (x.cls = 3)
        | .error _ => false) then .error (keyed.getD dClass)
      else .error e
    | .ok ps =>
      if !named ps then .error dClass
      else if write && s.sealed t.part w.home va n then .error dSealed
      else if keyed.isSome && s.touchesKeyed t ps then .error (keyed.getD dClass)
      else .ok ps

/-- Every check of an element in the order of R304: those of elemPlaces, then the integrity of what is read, through the L1 of a core or past it. -/
def State.elemAccess (s : State) (t : Task) (w : Who) (k : Access) (write : Bool) (va : W64) (n align : Nat) (cls : Option Nat)
    (keyed : Option Deny) (operand : Bool := false) (via : Option (Nat × Nat) := none) : Except Deny (List (Loc × Nat × Option PotE)) :=
  match s.elemPlaces t w k write va n align cls keyed operand with
  | .error e => .error e
  | .ok ps => if !write && s.touchesBad t ps via then .error dIntegrity else .ok ps

/-! Reads (R308, R309). -/

/-- Memory of other devices as a context tag sees it (log 6). -/
def State.peerOf (s : State) (c : Nat) : List Host.Cell := (assocGet s.peer c).getD []

def State.peerWrite (s : State) (c va : Nat) (bs : List Byte) : State :=
  { s with peer := assocSet s.peer c (cellsWrite (s.peerOf c) va bs) }

/-- A change of committed bytes of another device: tasks of the context whose superstep began before it keep the old values (R308, R314). -/
def State.peerCommit (s : State) (c va : Nat) (bs : List Byte) (not : List Nat := []) : State :=
  let kept := fun (l : List (Loc × Byte)) (i : Nat) => if l.any fun x => decide (x.1 = Loc.peer c (va + i)) then l
    else (Loc.peer c (va + i), cellGet (s.peerOf c) (va + i)) :: l
  let ts := s.tasks.map fun ((k, t) : Nat × Task) =>
    if (t.ctag = c ∨ peerKey t.part = c) ∧ t.inStep = true ∧ not.contains k = false then (k, { t with snap := (List.range bs.length).foldl kept t.snap })
    else (k, t)
  ({ s with tasks := ts }).peerWrite c va bs

/-- The committed value of a location as a superstep of a task sees it (R308 item 2). -/
def State.snapByte (s : State) (t : Task) (l : Loc) : Byte :=
  match t.snap.find? fun x => decide (x.1 = l) with
  | some x => x.2
  | none =>
    match l with
    | .hbm d pa => s.committed d pa
    | .peer c va => cellGet (s.peerOf c) va
    | .sp _ _ _ => 0

/-- Greatest-order cell of a list. -/
def lastCell : List VCell → Option VCell
  | [] => none
  | c :: r =>
    match lastCell r with
    | none => some c
    | some d => if d.ord < c.ord then some c else some d

/-- A byte of translated memory read by a writer slot (R308). -/
def State.verByte (s : State) (t : Task) (w : Nat) (l : Loc) : Byte :=
  match lastCell (t.ver.filter fun c => decide (c.loc = l ∧ c.w = w)) with
  | some c => c.val
  | none => s.snapByte t l

/-- A byte of a scratchpad read by another reader than its owner in this phase: when the owner has written it in the phase, the value at
the phase's start or a value written in it, freely (R309). phase none: any write of the superstep (R359). -/
def State.spByte (s : State) (p c off : Nat) (own : Bool) (phase : Option Nat) : Byte × State :=
  let k := s.core p c
  let cur := cellGet k.sp off
  if own then (cur, s)
  else
    let ws := k.wlog.filter fun x => decide (x.off = off ∧ (phase = none ∨ phase = some x.phase))
    match ws with
    | [] => (cur, s)
    | x :: r =>
      let opts := x.old :: x.new :: r.map (·.new)
      let (i, s1) := s.choose opts.length
      (opts.getD i cur, s1)

/-- The reading core of the page sequencer's own reads: writer slot 0, but an XLD also reads its page's XST on any core (R331). -/
def seqReader : Nat := 8

/-- Was the last own write of a byte in this phase an XST (R331)? -/
def Core.seqWrote (k : Core) (off phase : Nat) : Bool :=
  ((k.wlog.filter fun x => decide (x.off = off ∧ x.phase = phase)).getLast?.map (·.xst)).getD false

/-- Is a scratchpad byte the reader's own: its own core's, and for the sequencer core 0's and what it wrote itself (R309, R331)? -/
def State.ownRead (s : State) (t : Task) (rp c r p k off : Nat) : Bool :=
  decide (r = rp) && (decide (k = c) || (decide (c = seqReader) && (decide (k = 0) || (s.core p k).seqWrote off t.phase)))

/-- n bytes of a location as writer slot w of a task reads them; rp and c name the reading core for scratchpad (R309). -/
def State.readLoc (s : State) (t : Task) (w rp c : Nat) (l : Loc) : Nat → Nat → List Byte × State
  | _, 0 => ([], s)
  | i, n + 1 =>
    let (b, s1) := match l with
      | .sp r k off =>
        (match t.holds r with
        | none => (0, s)
        | some p => s.spByte p k (t.spOff r (off + i)) (s.ownRead t rp c r p k (t.spOff r (off + i))) (some t.phase))
      | l => (s.verByte t w (l.add i), s)
    let (bs, s2) := s1.readLoc t w rp c l (i + 1) n
    (b :: bs, s2)

/-- All pieces of an element read in order. -/
def State.readPlaces (s : State) (t : Task) (w rp c : Nat) : List (Loc × Nat × Option PotE) → List Byte × State
  | [] => ([], s)
  | (l, n, _) :: r =>
    let (bs, s1) := s.readLoc t w rp c l 0 n
    let (cs, s2) := s1.readPlaces t w rp c r
    (bs ++ cs, s2)

/-- Usage counters of one image and tenant raised (R456). -/
def addUsage (us : List Usage) (part tenant image beats kcols : Nat) : List Usage :=
  let hit := us.any fun u => decide (u.part = part ∧ u.tenant = tenant ∧ u.image = image)
  let us1 := if hit then us else us ++ [{ part := part, tenant := tenant, image := image }]
  us1.map fun u => if u.part = part ∧ u.tenant = tenant ∧ u.image = image then
    { u with beats := u.beats + BitVec.ofNat 64 beats, kcols := u.kcols + BitVec.ofNat 64 kcols } else u

/-- Counters of a tenant raised: sessions, decrypted and reply bytes (R456). -/
def addTenant (l : List (Nat × W64 × W64 × W64)) (key : Nat) (a b c : Nat) : List (Nat × W64 × W64 × W64) :=
  let (x, y, z) := (assocGet l key).getD (0, 0, 0)
  assocSet l key (x + BitVec.ofNat 64 a, y + BitVec.ofNat 64 b, z + BitVec.ofNat 64 c)

/-- The images whose O pages an element touches. -/
def imagesOf (ps : List (Loc × Nat × Option PotE)) : List Nat :=
  (ps.filterMap fun (_, _, p) => match p with
    | some e => if e.cls = 3 then some e.image else none
    | none => none).eraseDups

/-- Does every touched image's policy list the signer of the running configuration (R445, R446)? -/
def State.policyOk (s : State) (t : Task) (images : List Nat) : Bool :=
  images.all fun i => s.tum.models.any fun m => decide (m.part = t.part ∧ m.idx = i) &&
    (List.range 4).any fun j => decide ((m.header.drop (0x78 + 48 * j)).take 48 = t.img.signer)

/-- Keyway beats delivered count for their images (R456). -/
def State.countBeats (s : State) (t : Task) (images : List Nat) (n : Nat) : State :=
  { s with tum := { s.tum with usage := images.foldl (fun us i => addUsage us t.part t.tenant i n 0) s.tum.usage } }

/-! Version sectors (R314, R315). -/

/-- Does a task's lease cover a physical sector? Every page of the lease is translated (R315). -/
def State.covers (s : State) (t : Task) (d sector : Nat) : Bool :=
  let base := s.resolve (t.home.getD t.die) t.rcd.lbase
  match s.resolved (t.home.getD t.die) (base.toNat / 2 ^ 48) with
  | .ok (.inl e) =>
    (List.range (t.rcd.lsize.toNat / 65536)).any fun i =>
      match s.translate e t.part t.tenant ((base.toNat / 65536 + i) % 2 ^ 32) with
      | .ok x => decide (s.localDie (x.out / 2 ^ 32) = some d ∧ x.out % 2 ^ 32 = sector / 512)
      | .error _ => false
  | _ => false

/-- The ways that versions take in a set, its lowest k, give up their ordinary lines (R314, R340). -/
def State.displace (s : State) (d sector k : Nat) : State :=
  s.modDie d fun x =>
    { x with slices := modAt x.slices (x.homeSlice (sector * 128)) fun sl =>
        { sl with lines := sl.lines.filter fun l => decide (¬(l2Set (l.line * 512) = l2Set (sector * 128) ∧ l.way < k)) } }

/-- Room for one more version or snapshot sector in its set (24), else in the spill area of the owning partition; none when both are full
(R314, R315). -/
def State.addSector (s : State) (v : VSect) : Option State :=
  let x := s.die v.die
  let key := fun sec => (x.homeSlice (sec * 128), l2Set (sec * 128))
  let inSet := (s.vsects.filter fun y => decide (y.die = v.die ∧ y.spilled = false ∧ key y.sector = key v.sector)).length
  if inSet < 24 then
    some { s.displace v.die v.sector ((inSet + 4) / 4) with vsects := s.vsects ++ [{ v with spilled := false }] }
  else
    let room := fld (s.part v.part).vspill 95 64 * 512
    let used := (s.vsects.filter fun y => decide (y.part = v.part ∧ y.spilled = true)).length
    if used < room then
      some (({ s with vsects := s.vsects ++ [{ v with spilled := true }] } : State).modPart v.part fun p => { p with vstat := setFld p.vstat 63 63 1 })
    else none

/-- A version sector of a task: held already, or room for it (R314). -/
def State.takeSector (s : State) (tid d sector part : Nat) : Option State :=
  if s.vsects.any fun v => decide (v.die = d ∧ v.sector = sector ∧ v.snap = false ∧ v.tid = tid) then some s
  else s.addSector { tid := tid, snap := false, die := d, sector := sector, part := part, spilled := false }

/-- One more version-overflow trap (R315, R317). -/
def State.countVofl (s : State) (part : Nat) : State :=
  s.modPart part fun p => { p with vstat := setFld p.vstat 47 32 (min (fld p.vstat 47 32 + 1) 0xFFFF) }

/-- The tasks of a partition in a superstep whose leases cover a sector and for whom no snapshot of it is held yet: a change gives them all one
previous value (R314, R315). -/
def State.newReaders (s : State) (part d sector : Nat) (not : List Nat) : List Task :=
  (s.tasks.map (·.2)).filter fun t =>
    decide (t.part = part ∧ t.inStep = true ∧ not.contains t.tid = false ∧ t.overrun = false) && s.covers t d sector
      && !s.vsects.any fun v => v.snap && decide (v.die = d ∧ v.sector = sector) && v.readers.contains t.tid

/-- Has a task a trap of this cycle or one that waits? A queue that finds no room tries again without a second trap (R315). -/
def Task.trapping (t : Task) : Bool := t.trap.isSome || !t.causes.isEmpty

/-- Can a task still issue, so that a snapshot that finds no room traps it in this cycle (R315)? -/
def Task.reads (t : Task) : Bool := decide (t.state = .running) && t.trap.isNone

/-- The snapshot of a sector that is about to change (R314); without room the running readers raise version_overflow and the others will when they are restored
or resumed (R315). True when a running one has. -/
def State.needSnapshot (s : State) (part d sector : Nat) (not : List Nat) : State × Bool :=
  match s.newReaders part d sector not with
  | [] => (s, false)
  | readers =>
    match s.addSector { tid := 0, snap := true, die := d, sector := sector, part := part, spilled := false, readers := readers.map (·.tid) } with
    | some s1 => (s1, false)
    | none => (readers.foldl (fun s t =>
        if t.reads then
          (s.countVofl part).raise t.tid { cls := 2, code := 6, flags := 8, addr := BitVec.ofNat 64 (s.dieField d * 2 ^ 48 + sector * 128), snap := true }
        else s.modTask t.tid fun t => { t with ovfl := true }) s, readers.any Task.reads)

/-- The snapshots that a change of bytes of a die needs. True: it is held, since running tasks have raised version_overflow in this cycle (R315). -/
def State.needSnapshots (s : State) (part d : Nat) (pas : List Nat) (not : List Nat) : State × Bool :=
  (pas.map (· / 128)).eraseDups.foldl (fun (s, held) x =>
    let (s1, h) := s.needSnapshot part d x not
    (s1, held || h)) (s, false)

/-- The bytes of a die that a change of some bytes alters: those, and the bytes of their compressed lines that the encoding of the line
changes (R295, R308). -/
def State.altered (s : State) (d : Nat) (bs : List (Nat × Byte)) : List Nat :=
  let pas := bs.map (·.1)
  let lines := (pas.filter fun pa => (s.cmpAt d pa).isSome).map (· / 512) |>.eraseDups
  if lines.isEmpty then pas
  else
    let s1 := s.store d bs
    pas ++ lines.flatMap fun l => ((List.range 512).map (l * 512 + ·)).filter fun pa => !pas.contains pa && decide (s.committed d pa ≠ s1.committed d pa)

/-- A change of committed bytes at a home slice: snapshots, storage, dirty log, migration marks (R295, R314, R405, R424). not names the
tasks whose superstep ends with this change. -/
def State.commitBytes (s : State) (part d : Nat) (bs : List (Nat × Byte)) (not : List Nat := []) : State :=
  let pas := s.altered d bs
  let s0 := (s.needSnapshots part d pas not).1
  let s1 := ((s0.snapshot part d pas not).tamper d pas).store d bs
  let pages := (pas.map (· / 65536)).eraseDups
  pages.foldl (fun s2 pg =>
    let secs := ((pas.filter fun pa => decide (pa / 65536 = pg)).map fun pa => (pa % 65536) / 128).eraseDups
    (s2.logDirty part d pg secs).markMig d pg secs) s1

/-- The number under which a scratchpad sector waits for a boundary: that of its address on the task's die (R314, log 87). -/
def spSector (rp c off : Nat) : Nat := (0xF00000000000 + rp * 0x400000 + c * 0x80000 + off) / 128

/-- Version sectors of the translated pieces of a write: of translated memory and of scratchpads that are not the writer's own (R314). -/
def sectorsOf (t : Task) (own : Nat × Nat) (ps : List (Loc × Nat × Option PotE)) : List (Nat × Nat) :=
  (ps.flatMap fun (l, n, _) => match l with
    | .hbm d pa => (linesOf pa n).map fun x => (d, x)
    | .sp rp c off => if (rp, c) = own then [] else (linesOf off n).map fun x => (t.die, spSector rp c (x * 128))
    | .peer _ _ => []).eraseDups

/-- Takes every sector that a write needs, or none (R315). -/
def State.takeSectors (s : State) (t : Task) (ss : List (Nat × Nat)) : Option State :=
  ss.foldlM (fun s1 (d, x) => s1.takeSector t.tid d x t.part) s

/-- No writer's own scratchpad: engines own none (R280). -/
def ownNone : Nat × Nat := (16, 0)

/-! Own and remote scratchpad writes (R280, R310, R312, R318). -/

/-- The undo entry of a carry sector before its first change in the superstep (R318). -/
def Core.logUndo (k : Core) (carry : List (Nat × Nat)) (off : Nat) : Core :=
  let sec := off / 128 * 128
  let at_ := if k.fold then off % 0x40000 else off
  if !carry.any (fun (o, z) => decide (o ≤ at_ ∧ at_ < o + z)) then k
  else if k.undoOut || k.undo.any (fun u => decide (u.off = sec)) then k
  else if k.undo.length < 256 then { k with undo := { off := sec, bytes := cellsRead k.sp sec 128 } :: k.undo }
  else { k with undoOut := true }

/-- Writes landing in one cycle rank output port 0, macro 1, ST 2, XST 3, and the last stands (R312): a byte that a higher rank has
written in this cycle keeps it. -/
def Core.putByte (k : Core) (carry : List (Nat × Nat)) (phase rank off : Nat) (b : Byte) : Core :=
  if k.fresh.any fun (o, r) => decide (o = off ∧ rank < r) then k
  else
    let k1 := k.logUndo carry off
    { k1 with sp := cellSet k1.sp off b, fresh := (off, rank) :: k1.fresh,
              wlog := k1.wlog ++ [{ off := off, phase := phase, old := cellGet k1.sp off, new := b, xst := decide (rank = 3) }] }

/-- Own write of bytes into a core's scratchpad. -/
def State.ownWrite (s : State) (t : Task) (p c rank off : Nat) (bs : List Byte) : State :=
  s.modCore p c fun k => bs.zipIdx.foldl (fun k (b, i) => k.putByte t.rcd.carry t.phase rank (off + i) b) k

/-- An uncommitted byte entering a version, replacing an older one of the same writer index. -/
def putCell (v : List VCell) (c : VCell) : List VCell :=
  if v.any fun x => decide (x.loc = c.loc ∧ x.w = c.w ∧ c.ord < x.ord) then v
  else c :: v.filter fun x => decide (¬(x.loc = c.loc ∧ x.w = c.w))

/-- Bytes entering the version of a task under a writer index and order (R307, R314). -/
def State.verWrite (s : State) (tid w ord : Nat) (l : Loc) (bs : List Byte) : State :=
  s.modTask tid fun t =>
    { t with ver := bs.zipIdx.foldl (fun v (b, i) => putCell v { loc := l.add i, w := w, ord := ord, val := b }) t.ver }

/-- The bytes of an element given to its pieces: own scratchpad at once, the rest into the version (R280, R307). own names the page of the image and the
core whose scratchpad the writer owns; keep drops bytes. -/
def State.writePlaces (s : State) (t : Task) (w ord rank : Nat) (own : Nat × Nat) (keep : Nat → Bool) :
    List (Loc × Nat × Option PotE) → Nat → List Byte → State
  | [], _, _ => s
  | (l, n, _) :: r, i, bs =>
    let s1 := (bs.take n).zipIdx.foldl (fun s (b, j) =>
      if !keep (i + j) then s
      else
        match l with
        | .sp rp c off =>
          (if (rp, c) = own then
            (match t.holds rp with
            | none => s
            | some p => s.ownWrite t p c rank (t.spOff rp (off + j)) [b])
          else s.verWrite t.tid w ord (l.add j) [b])
        | l => s.verWrite t.tid w ord (l.add j) [b]) s
    let kept := (List.range (min n bs.length)).filter fun j => keep (i + j)
    let s2 := match l with
      | .sp rp c off => if (rp, c) = own then
          (match t.holds rp with
          | none => s1
          | some p => s1.mendWords p c (kept.map fun j => t.spOff rp (off + j))) else s1
      | .hbm d pa => s1.mendSectors d (kept.map (pa + ·))
      | .peer _ _ => s1
    s2.writePlaces t w ord rank own keep r (i + n) (bs.drop n)

/-- Order number of a write of this cycle with a rank (R312). -/
def State.ordNow (s : State) (rank : Nat) : Nat := s.cycle * 4 + rank

/-- Writer index of a slot of a region page (R307). -/
def Task.windex (t : Task) (rp slot : Nat) : Nat := 256 * t.midx + 16 * rp + slot

/-- Committed bytes of a location (R321). -/
def State.committedLoc (s : State) : Loc → Nat → List Byte
  | .hbm d pa, n => s.committedN d pa n
  | .peer c va, n => cellsRead (s.peerOf c) va n
  | .sp _ _ _, _ => []

/-- Bytes committed at once at a location (R321). -/
def State.commitLoc (s : State) (part : Nat) (l : Loc) (bs : List Byte) : State :=
  match l with
  | .hbm d pa => s.commitBytes part d (bs.zipIdx.map fun (b, i) => (pa + i, b))
  | .peer c va => s.peerCommit c va bs
  | .sp _ _ _ => s

/-! Addresses that functions hand the device (24 R481). -/

/-- A physical address from PF0, or a lessee address from a VF through stage 2 only: module die and physical address. -/
def State.fnAddr (s : State) (fn : Nat) (a : W64) : Option (Nat × Nat) :=
  let df := a.toNat / 2 ^ 48
  let d? := if df = 0xFFFF then some 0 else if df < 4 then some df else none
  match d? with
  | none => none
  | some d =>
    if fn = 0 then (if a.toNat % 2 ^ 48 < 2 ^ 37 then some (d, a.toNat % 2 ^ 48) else none)
    else
      match s.walk2 d (fn - 1) (a.toNat / 65536 % 2 ^ 32) with
      | none => none
      | some (g, ppn, _) => (s.localDie g).map fun e => (e, ppn * 65536 + a.toNat % 65536)

/-- The owner code of a function in the POT (R440). -/
def fnOwner (fn : Nat) : Nat := if fn = 0 then 16 else fn - 1

end Sys2Proof.Machine
end

