-- ==== Sys2Proof/Machine/L2.lean ====
section
/-! DEFINITION. The L2 slices: retention (12 R297, R298, 14 R340), fills and victims (12 R288), the expander and the metadata cache (12
R296), and their counters (14 R342 to R344, 15 R345, R346). -/
namespace Sys2Proof.Machine

/-- Fields of a retention register (R297). -/
def retWays (r : BitVec 192) : Nat := fld r 131 128
def retEf (r : BitVec 192) : Bool := r.getLsbD 132
def retOn (r : BitVec 192) : Bool := decide (fld r 127 64 ≠ 0)

/-- Does register i own ways? -/
def retOwns (r : BitVec 192) : Nat := if retOn r ∧ retEf r = false then retWays r else 0

/-- Ways owned by all registers of a slice but one. -/
def Slice.total (sl : Slice) (but : Nat) : Nat :=
  (sl.retain.zipIdx.map fun (r, i) => if i = but then 0 else retOwns r).sum

/-- The n highest-numbered ways that no other register owns (R297). -/
def Slice.pickWays (sl : Slice) (i n : Nat) : List Nat :=
  let used := (sl.own.zipIdx.filter fun (_, j) => decide (j ≠ i)).flatMap (·.1)
  (((List.range 24).reverse).filter fun w => !used.contains w).take n

/-- A retention register takes a new value in a slice: ways are kept, released or taken, and lines become retained, become ordinary or are
written back and invalidated (R297, R298, R340). -/
def Slice.setRetain (sl : Slice) (i : Nat) (r : BitVec 192) : Slice :=
  let old := sl.retain.getD i 0
  let n := retOwns r
  let own := if n = retOwns old then sl.own.getD i [] else sl.pickWays i n
  let inside := fun (l : L2Line) => inRange r (l.line * 512) && decide (l.part = fld r 136 133)
  let lines := sl.lines.filterMap fun l =>
    let l1 : L2Line := if l.ret = some i then { l with ret := none } else l
    if own.contains l.way then (if inside l then some { l1 with ret := some i } else none) else some l1
  { sl with retain := sl.retain.set i r, own := sl.own.set i own, lines := lines }

/-- The victim among the lines of the candidate ways (R288): the evict-first line inserted longest ago, else the least recently used. -/
def victimOf (ls : List L2Line) : Option L2Line :=
  let oldest := fun (key : L2Line → Nat) (xs : List L2Line) => xs.foldl (fun (v : Option L2Line) x => match v with
    | none => some x
    | some y => if key x < key y then some x else some y) none
  match oldest (·.filled) (ls.filter (·.evf)) with
  | some l => some l
  | none => oldest (·.used) ls

/-- A retention register that holds a line for a partition: the lowest-numbered enabled one (R297, R340). -/
def Slice.retAt (sl : Slice) (part pa : Nat) : Option (Nat × BitVec 192) :=
  (sl.retain.zipIdx.find? fun (r, _) => decide (fld r 127 64 ≠ 0 ∧ fld r 136 133 = part) && inRange r pa).map fun (r, i) => (i, r)

def bump32 (c : BitVec 128) (lo : Nat) : BitVec 128 := setFld c (lo + 31) lo (min (fld c (lo + 31) lo + 1) 0xFFFFFFFF)

/-! L2 cycles: 1.4 GHz beside the module's 1.05 GHz, four L2 cycles in three cycles (R4). -/

/-- The L2 cycles that have begun by a cycle (R4). -/
def l2Cycle (c : Nat) : Nat := c * 4 / 3

/-- The first cycle by which an L2 cycle has begun. -/
def coreCycle (u : Nat) : Nat := (u * 3 + 3) / 4

/-- The cycle in which the data of a fill have arrived: from HBM, or as the expander delivers them (R288, R296). -/
def Fill.arrival (f : Fill) : Nat := if f.rng.isNone then f.due else coreCycle f.out

/-! Fills (R288, R290, R296, R298, R345, R422). -/

/-- The context tag that owns a page: its session's for S and Y, tenant 0 of its partition else (R290, R451). -/
def State.ownerTag (s : State) (e : PotE) : Nat :=
  match (if e.cls = 1 ∨ e.cls = 2 then s.tum.sessions.find? fun x => decide (x.id = e.sess ∧ x.part = e.owner) else none) with
  | some x => 16 * x.part + x.tenant
  | none => 16 * e.owner

/-- Lines of a slice in the set of a line. -/
def Slice.setOf (sl : Slice) (line : Nat) : List L2Line := sl.lines.filter fun l => decide (l2Set (l.line * 512) = l2Set (line * 512))

/-- Ways of a set that ordinary lines may take: no owned way, no way of a version or snapshot (R288, R314, R340). -/
def State.plainWays (s : State) (d si line : Nat) : List Nat :=
  let x := s.die d
  let vways := ((s.vsects.filter fun v => decide (v.die = d ∧ v.spilled = false ∧ x.homeSlice (v.sector * 128) = si
    ∧ l2Set (v.sector * 128) = l2Set (line * 512))).length + 3) / 4
  (List.range 24).filter fun w => !((x.slices.getD si {}).own.flatten).contains w && decide (vways ≤ w)

/-- The way that a fill takes: its way, the line that leaves it, whether it is an owned way of the range's register; none while every way that it may take
has a fill in progress (R288, R298, R422). -/
def State.pickWay (s : State) (d si : Nat) (f : Fill) : Option (Nat × Option L2Line × Bool) :=
  let sl := (s.die d).slices.getD si {}
  let inSet := sl.setOf f.line
  let held := inSet.map (·.way)
  let own := match sl.retAt f.part (f.line * 512) with
    | some (i, r) => if retEf r then none else (sl.own.getD i []).find? fun w => !held.contains w
    | none => none
  match own with
  | some w => some (w, none, true)
  | none =>
    let cand := s.plainWays d si f.line
    let most := fld (s.partDie f.part d).qos 4 0
    let plain := inSet.filter fun l => cand.contains l.way && l.ret.isNone
    let mine := plain.filter fun l => decide (l.part = f.part)
    let out := fun (ls : List L2Line) => (victimOf (ls.filter fun l => !l.busy)).map fun v => (v.way, some v, false)
    if most ≠ 0 ∧ most ≤ mine.length then out mine
    else
      match cand.find? fun w => !held.contains w with
      | some w => some (w, none, false)
      | none => out plain

/-- A fill takes its way: the line is resident from now on, waiting for its data, and its victim is gone; the counters of R342 and R343 (R345). A bad line of HBM
makes a bad copy (R390). -/
def State.takeWay (s : State) (d si : Nat) (f : Fill) (pick : Nat × Option L2Line × Bool) : State :=
  let x := s.die d
  let sl := x.slices.getD si {}
  let (w, gone, owned) := pick
  let reg := sl.retAt f.part (f.line * 512)
  let pot := s.potAt d (f.line * 512)
  let l : L2Line :=
    { line := f.line, way := w, part := f.part, used := x.stamp, filled := x.stamp, busy := true
      evf := !owned && (match reg with
        | some (_, r) => retEf r
        | none => false)
      ret := if owned then reg.map (·.1) else none
      cls := (pot.map (·.cls)).getD 0, ctag := (pot.map s.ownerTag).getD 0 }
  let count := match reg with
    | some (i, _) => modAt sl.rcnt i fun v => bump32 v (if owned then 64 else 96)
    | none => sl.rcnt
  let sl1 := { sl with lines := l :: sl.lines.filter (fun y => decide (some y ≠ gone)), rcnt := count }
  let of := fun (line : Nat) (e : HwSite) => match e with
    | .l2 x a => decide (x = d ∧ a / 512 = line)
    | _ => false
  let bad := s.errs.any fun e => match e with
    | .hbm x a => decide (x = d ∧ a / 512 = f.line)
    | _ => false
  let errs := if s.errs.isEmpty then s.errs
    else (s.errs.filter fun e => !of f.line e && !gone.any fun v => of v.line e) ++ (if bad then [.l2 d (f.line * 512)] else [])
  let s1 := ({ s with errs := errs } : State).modDie d fun x => { x with stamp := x.stamp + 1, slices := x.slices.set si sl1 }
  match gone with
  | none => s1
  | some v => s1.modPartDie v.part d fun r =>
      { r with l2pcnt := modAt r.l2pcnt si fun c => if v.evf then bump32 (bump32 c 96) 64 else bump32 c 96 }

/-- The metadata cache of a die, 4,096 lines of 64 bytes: looked up for a line of range i, with whether it missed, which counts for its range (R296,
R344). -/
def State.metaLookup (s : State) (d i line : Nat) : State × Bool :=
  let x := s.die d
  let key := (fld (x.cmprange.getD i 0) 255 192 + (line * 512 - fld (x.cmprange.getD i 0) 63 0) / 512) / 64
  if x.mcache.contains key then (s, false)
  else (s.modDie d fun x =>
    { x with mcache := key :: x.mcache.take 4095, cmpcnt := modAt x.cmpcnt i fun c => bump32 c 96 }, true)

/-- The number k of the list's numbers in ascending order. -/
def nthLeast : Nat → List Nat → Nat
  | 0, l => (l.min?).getD 0
  | k + 1, l => nthLeast k (match l.min? with
    | some m => l.erase m
    | none => l)

/-- When the expander passes a fill of a range whose backing bytes are there at a cycle: the L2 cycles in which it joins the queue, behind the fills
before it and with room among 64, and in which it is delivered (R296). -/
def Slice.expand (sl : Slice) (due : Nat) (hard : Bool) : Nat × Nat :=
  let ahead := sl.xq ++ sl.fills.filter fun f => f.rng.isSome
  let room := if ahead.length < 64 then 0 else ((ahead[ahead.length - 64]?).map (·.out)).getD 0
  let join := max (max (l2Cycle due) ((ahead.getLast?.map (·.join)).getD 0)) room
  (join, max join ((ahead.getLast?.map (·.out)).getD 0) + if hard then 4 else 1)

/-- A fill starts for a line that is not resident (R288, R296, R345): it takes a way, or waits for the first way of its set whose fill
completes; from HBM its data take Config.latHbm, and as long again for a metadata line that the cache lacks. -/
def State.startFill (s : State) (part d si line : Nat) : State :=
  let rng := s.cmpAt d (line * 512)
  let hard := match rng with
    | none => false
    | some (_, r) => decide (cellGet s.hbm (hbmKey d (fld r 255 192 + (line * 512 - fld r 63 0) / 512)) ≠ 0)
  let (s1, miss) := match rng with
    | none => (s, false)
    | some (i, _) => s.metaLookup d i line
  let f0 : Fill := { line := line, part := part, due := 0, rng := rng.map (·.1), hard := hard }
  let pick := s1.pickWay d si f0
  let sl := (s1.die d).slices.getD si {}
  let wait := sl.fills.filter fun f => !f.taken && decide (l2Set (f.line * 512) = l2Set (line * 512))
  let busy := ((sl.setOf line).filter (·.busy)).flatMap fun l => ((sl.fills ++ sl.xq).filter fun f => decide (f.line = l.line)).map (·.arrival)
  let start := if pick.isSome then s.cycle else max s.cycle (nthLeast wait.length (busy ++ wait.map (·.arrival)))
  let due := start + Config.latHbm + if miss then Config.latHbm else 0
  let (join, out) := sl.expand due hard
  let f : Fill := { f0 with due := due, start := start, taken := pick.isSome, join := join, out := out }
  let s2 := match pick with
    | some k => s1.takeWay d si f k
    | none => s1
  s2.modDie d fun x => { x with slices := modAt x.slices si fun sl => { sl with fills := sl.fills ++ [f] } }

/-- A read request at the slice that holds the line, else at its home slice (R287, R288, R342, R343, R345): counters, recency, and a fill when the line is
neither resident nor on its way. -/
def State.l2Request (s : State) (part d pa : Nat) : State :=
  let x := s.die d
  let line := pa / 512
  let si := (x.slices.findIdx? fun sl => sl.lines.any fun l => decide (l.line = line)).getD (x.homeSlice pa)
  let sl := x.slices.getD si {}
  let hit := sl.lines.any (fun l => decide (l.line = line)) || sl.fills.any fun f => !f.taken && decide (f.line = line)
  let sl1 := { sl with
    lines := sl.lines.map fun l => if l.line = line then { l with used := x.stamp } else l
    rcnt := match sl.retAt part pa with
      | none => sl.rcnt
      | some (i, _) => modAt sl.rcnt i fun c => bump32 c (if hit then 0 else 32) }
  let s1 := (s.modDie d fun x => { x with slices := x.slices.set si sl1, stamp := x.stamp + 1 }).modPartDie part d fun r =>
    { r with l2pcnt := modAt r.l2pcnt si fun c => bump32 c (if hit then 0 else 32) }
  if hit then s1 else s1.startFill part d si line

/-- Cycles until the data of a line have arrived, on top of the hit latency (R285, R345, log 4). -/
def State.fillWait (s : State) (d pa : Nat) : Nat :=
  (s.die d).slices.foldl (fun m sl =>
    ((sl.fills ++ sl.xq).filter fun f => decide (f.line = pa / 512)).foldl (fun m f => max m (f.arrival - s.cycle)) m) 0

/-- A read request with the wait for the line it needs. -/
def State.l2Read (s : State) (part d pa : Nat) : State × Nat :=
  let s1 := s.l2Request part d pa
  (s1, s1.fillWait d pa)

/-- The data of a line have arrived. -/
def Slice.arrived (sl : Slice) (line : Nat) : Slice :=
  { sl with lines := sl.lines.map fun l => if l.line = line then { l with busy := false } else l }

/-- Has a fill of a slice something to do by a cycle: take its way, bring its data, or join the expander queue (R288, R296)? -/
def Fill.ripe (f : Fill) (now : Nat) : Bool :=
  if !f.taken then decide (f.start ≤ now) else if f.rng.isNone then decide (f.due ≤ now) else decide (f.join ≤ l2Cycle now)

/-- L2_FILL: a waiting fill takes its way; the data of an ordinary line arrive; a line of a compression range joins the expander queue
(R288, R296). -/
def execVL2Fill (s : State) : Res :=
  match s.focus.ev with
  | .l2Fill d si =>
    let sl := (s.die d).slices.getD si {}
    match sl.fills.find? fun f => f.ripe s.cycle with
    | none => .next s
    | some f =>
      let put := fun (s : State) (g : Slice → Slice) => s.modDie d fun x => { x with slices := modAt x.slices si g }
      let rest := sl.fills.filter fun g => decide (g ≠ f)
      if !f.taken then
        (match s.pickWay d si f with
        | none => .next (put s fun sl => { sl with fills := sl.fills.map fun g => if g = f then { g with start := s.cycle + 1 } else g })
        | some k => .next (put (s.takeWay d si f k) fun sl => { sl with fills := sl.fills.map fun g => if g = f then { g with taken := true } else g }))
      else if f.rng.isNone then .next (put s fun sl => { sl.arrived f.line with fills := rest })
      else .next (put s fun sl => { sl with fills := rest, xq := sl.xq ++ [f] })
  | _ => .next s

/-- EXPANDER_DELIVER: the head of the expander queue is delivered, one line per L2 cycle in fast mode and per four in hard mode (R296). -/
def execVExpanderDeliver (s : State) : Res :=
  match s.focus.ev with
  | .expanderDeliver d si =>
    match ((s.die d).slices.getD si {}).xq with
    | [] => .next s
    | f :: r =>
      if l2Cycle s.cycle < f.out then .next s
      else .next (s.modDie d fun x => { x with slices := modAt x.slices si fun sl => { sl.arrived f.line with xq := r } })
  | _ => .next s

/-- Lines that the expander of a slice delivers by a cycle. -/
def Slice.delivers (sl : Slice) (now : Nat) : Nat :=
  ((sl.xq ++ sl.fills.filter fun f => f.rng.isSome && f.taken).filter fun f => decide (f.out ≤ l2Cycle now)).length

/-- Every L2 cycle in which an expander queue is full counts for the ranges of its lines (R4, R344). -/
def Die.countFull (x : Die) (now : Nat) : Die :=
  { x with cmpcnt := x.slices.foldl (fun cs (sl : Slice) =>
      (List.range (l2Cycle (now + 1) - l2Cycle now)).foldl (fun cs i =>
        let u := l2Cycle now + i
        let queued := (sl.xq ++ sl.fills.filter fun f => f.rng.isSome).filter fun f => decide (f.join ≤ u ∧ u < f.out)
        if queued.length < 64 then cs
        else ((queued.filterMap (·.rng)).eraseDups).foldl (fun cs i => modAt cs i fun c => bump32 c 64) cs) cs) x.cmpcnt }

/-! L1 (R282 to R284), walks (R303) and the reads that pass them. -/

/-- An entry enters a TLB of 32,768 entries, an unpinned one making room; which one is open, and none does when all are pinned (R396, log 5). -/
def State.tlbAdd (s : State) (d : Nat) (e : TlbE) : State :=
  let x := s.die d
  if x.tlb.length < 32768 then s.modDie d fun x => { x with tlb := x.tlb ++ [e] }
  else
    let spare := x.tlb.filter fun y => !y.pinned
    if spare.isEmpty then s
    else
      let (k, s1) := s.choose spare.length
      s1.modDie d fun x => { x with tlb := (x.tlb.filter fun y => decide (some y ≠ spare[k]?)) ++ [e] }

/-- The cycle in which a walk that starts now ends: one of the 64 walkers takes it when the walk 64 before it has ended (R396). -/
def Die.walkEnd (x : Die) (now : Nat) : Nat :=
  max now (if x.walks.length < 64 then 0 else ((x.walks[x.walks.length - 64]?).map (·.1)).getD 0) + Config.latWalk

/-- A request's translation at the owning die: held it costs nothing; else the request joins the walk of its page, or starts one, and waits until it
ends (R303, R394, R396). -/
def State.noteWalk (s : State) (w : Who) (va : W64) : State × Nat :=
  match spaceOf va, s.owning w.home (va.toNat / 2 ^ 48) with
  | .translated, .ok (.inl d) =>
    let q : WalkReq := { part := w.part, tenant := w.tenant, vpn := va.toNat / 65536 % 2 ^ 32 }
    let x := s.die d
    if x.tlb.any fun e => decide (e.part = q.part ∧ e.tenant = q.tenant ∧ e.vpn = q.vpn) then (s, 0)
    else
      match x.walks.find? fun y => decide (y.2 = q) with
      | some y => (s, y.1 - s.cycle)
      | none => (s.modDie d fun x => { x with walks := x.walks ++ [(x.walkEnd s.cycle, q)] }, x.walkEnd s.cycle - s.cycle)
  | _, _ => (s, 0)

/-- The walks of a byte range, one for each page (R419), and the longest wait for them. -/
def State.noteWalks (s : State) (w : Who) (va : W64) (n : Nat) : State × Nat :=
  (pieces (n / 65536 + 2) va n).foldl (fun (s1, m) (a, _) =>
    let (s2, k) := s1.noteWalk w a
    (s2, max m k)) (s, 0)

/-- The bytes of a list of pieces. -/
def piecesLen (ps : List (Loc × Nat × Option PotE)) : Nat := (ps.map fun x => x.2.1).sum

/-- Cycles until the L2 of a line answers a page: the slice beside its cluster, another of its die, another die (R285). -/
def State.l2Hit (s : State) (p d pa : Nat) : Nat :=
  if d = p / 40 then (if (s.die d).homeSlice pa = clusterPort p then Config.latL2Near else Config.latL2Far) else Config.latL2Die

/-- Cycles that an owning die adds when it forwards a request of another die to a third one after translation (R394, R397). -/
def State.forwardLat (s : State) (w : Who) (va : W64) (d : Nat) : Nat :=
  match s.owning w.home (va.toNat / 2 ^ 48) with
  | .ok (.inl e) => if e = w.die ∨ e = d then 0 else Config.latForward
  | _ => 0

/-- Cycles until a write of a page's core is accepted at its target, once it is translated (R279, R285, R331). -/
def State.acceptLat (s : State) (t : Task) (p c : Nat) (va : W64) (ps : List (Loc × Nat × Option PotE)) : Nat :=
  ps.foldl (fun m (l, _, _) => max m (match l with
    | .hbm d pa => s.l2Hit p d pa + s.forwardLat (s.who t p) va d
    | .sp rp k _ => match t.holds rp with
      | none => Config.latFar
      | some q => if q = p ∧ k = c then 3 else if q / 4 = p / 4 then Config.latCluster else Config.latFar
    | .peer _ _ => Config.latDevice)) 0

/-- The die number of a cached line of another device: its global die's, after the module's own four. -/
def peerDie (va : Nat) : Nat := 4 + va / 2 ^ 48

/-- A read of a line through a core's L1: on a hit recency alone; else the request below with allocation by least recent use in the set (R282,
R284). A fused line marked by a store is read below (R308). -/
def State.l1Read (s : State) (t : Task) (p c die line : Nat) (hit : Nat) (below : State → State × Nat) : State × Nat :=
  let (hp, hc) := l1Home t p c (line * 128)
  let k := s.core hp hc
  let setOf := fun (x : Nat) => if t.fused then (x / 2 ^ 10) % 64 else x % 64
  match k.l1.find? fun l => decide (l.die = die ∧ l.line = line) with
  | some l =>
    if l.marked then below s
    else
      (s.modCore hp hc fun k => { k with l1 := k.l1.map fun x => if x.die = die ∧ x.line = line then { x with used := s.cycle } else x },
        max (if t.fused then Config.latL1Fused else Config.latL1) hit)
  | none =>
    let same := k.l1.filter fun x => decide (setOf x.line = setOf line)
    let victim := same.foldl (fun (v : Option L1Line) x => match v with
      | none => some x
      | some y => if x.used < y.used then some x else some y) none
    let rest := if same.length < 8 then k.l1
      else k.l1.filter fun x => decide (some x ≠ victim)
    let (s1, w) := below s
    (s1.modCore hp hc fun k => { k with l1 := { die := die, line := line, used := s.cycle } :: rest }, w)

/-- A read of a line of this device: class G and C through the L1, the others past it (R282, R283). -/
def State.hbmRead (s : State) (t : Task) (p c d line cls extra : Nat) : State × Nat :=
  let below := fun (s : State) =>
    let (s1, w) := s.l2Read t.part d (line * 128)
    (s1, extra + s.l2Hit p d (line * 128) + w)
  if cls = 1 ∨ cls = 2 ∨ cls = 3 then below s else s.l1Read t p c d line (s.fillWait d (line * 128)) below

/-- Does the L1 hold every 128-byte line of the pieces, so that no request leaves the core (R282, R284)? -/
def State.allInL1 (s : State) (t : Task) (p c : Nat) (ps : List (Loc × Nat × Option PotE)) : Bool :=
  ps.all fun (l, n, _) => match l with
    | .hbm d pa => (linesOf pa n).all (s.inL1 t p c d)
    | .sp _ _ _ => true
    | .peer _ va => (linesOf (va % 2 ^ 48) n).all (s.inL1 t p c (peerDie va))

/-- A read of the pieces at an address through a core's L1 in 128-byte requests: the longest latency, behind the walks that its requests
need. -/
def State.touchL1 (s : State) (t : Task) (p c : Nat) (va : W64) (ps : List (Loc × Nat × Option PotE)) : State × Nat :=
  let w := s.who t p
  let hit := s.allInL1 t p c ps
  let (s0, wait) := if hit then (s, 0) else s.noteWalks w va (piecesLen ps)
  ps.foldl (fun (s1, lat) (l, n, e) =>
    match l with
    | .hbm d pa =>
      let cls := match e with
        | some e => e.cls
        | none => 0
      (linesOf pa n).foldl (fun (s2, m) x =>
        let (s3, k) := s2.hbmRead t p c d x cls (wait + if hit then 0 else s.forwardLat w va d)
        (s3, max m k)) (s1, lat)
    | .sp rp k _ =>
      let far := match t.holds rp with
        | none => Config.latFar
        | some q => if q = p ∧ k = c then 0 else if q / 4 = p / 4 then Config.latCluster else Config.latFar
      (s1, max lat far)
    | .peer _ a =>
      (linesOf (a % 2 ^ 48) n).foldl (fun (s2, m) x =>
        let (s3, k) := s2.l1Read t p c (peerDie a) x 0 fun s => (s, wait + Config.latDevice)
        (s3, max m k)) (s1, lat)) (s0, 0)

/-- A read of the pieces at an address that goes to the home L2 without an L1, behind the walks that it needs (R282, R303, R345). -/
def State.touchL2 (s : State) (w : Who) (va : W64) (ps : List (Loc × Nat × Option PotE)) : State × Nat :=
  let (s0, wait) := s.noteWalks w va (piecesLen ps)
  ps.foldl (fun (s1, lat) (l, n, _) =>
    match l with
    | .hbm d pa =>
      (linesOf pa n).foldl (fun (s2, m) x =>
        let hit := if d ≠ w.die then Config.latL2Die
          else if (s.die d).homeSlice (x * 128) = w.port then Config.latL2Near else Config.latL2Far
        let (s3, k) := s2.l2Read w.part d (x * 128)
        (s3, max m (wait + s.forwardLat w va d + hit + k))) (s1, lat)
    | .sp _ _ _ => (s1, max lat Config.latFar)
    | .peer _ _ => (s1, max lat Config.latDevice)) (s0, 0)

/-- A store that hits a fused L1 marks its sector (R284, R308). -/
def State.markL1 (s : State) (t : Task) (p c : Nat) (ps : List (Loc × Nat × Option PotE)) : State :=
  if !t.fused then s
  else ps.foldl (fun s1 (l, n, _) => match l with
    | .hbm d pa => mark s1 d (linesOf pa n)
    | .peer _ va => mark s1 (peerDie va) (linesOf (va % 2 ^ 48) n)
    | .sp _ _ _ => s1) s
where
  mark (s : State) (die : Nat) (lines : List Nat) : State :=
    lines.foldl (fun s line =>
      let (hp, hc) := l1Home t p c (line * 128)
      s.modCore hp hc fun k => { k with l1 := k.l1.map fun x => if x.die = die ∧ x.line = line then { x with marked := true } else x }) s

/-- Lines of a physical interval leave every slice of a die (R442, R406). -/
def State.dropLines (s : State) (d pa n : Nat) : State :=
  s.modDie d fun x =>
    { x with slices := x.slices.map fun sl =>
        { sl with lines := sl.lines.filter fun l => decide (¬(l.line * 512 < pa + n ∧ pa < (l.line + 1) * 512)) } }

end Sys2Proof.Machine
end

