-- ==== Sys2Proof/Machine/Ports.lean ====
section
/-! DEFINITION. Stream pattern records (16 R348 to R353), events and their homes (06 R169), and the stream ports (01 R26, 05 R134 to R139,
06 R172, 17 R368, R369). -/
namespace Sys2Proof.Machine

/-! Stream pattern records (R348). -/

def patBase (p : BitVec 512) : W64 := p.extractLsb' 0 64
def patEsz (p : BitVec 512) : Nat := fld p 95 64
def patEm (p : BitVec 512) : Bool := p.getLsbD 96
def patEv (p : BitVec 512) : Bool := p.getLsbD 97
def patOut (p : BitVec 512) : Bool := p.getLsbD 98
def patCls (p : BitVec 512) : Nat := fld p 101 99
def patEvn (p : BitVec 512) : Nat := fld p 111 104
def patCount (p : BitVec 512) (j : Nat) : Nat := fld p (159 + 96 * j) (128 + 96 * j)
def patStride (p : BitVec 512) (j : Nat) : W64 := p.extractLsb' (160 + 96 * j) 64

/-- Number of elements (R349). -/
def patN (p : BitVec 512) : Nat := patCount p 0 * patCount p 1 * patCount p 2 * patCount p 3

/-- Address of element e (R349). -/
def patAddr (p : BitVec 512) (e : Nat) : W64 :=
  let c0 := patCount p 0
  let c1 := patCount p 1
  let c2 := patCount p 2
  let ix := fun n => BitVec.ofNat 64 n
  patBase p + ix (e % c0) * patStride p 0 + ix (e / c0 % c1) * patStride p 1 + ix (e / (c0 * c1) % c2) * patStride p 2
    + ix (e / (c0 * c1 * c2)) * patStride p 3

/-- Is a record malformed (R350)? noEv: an engine command names it as its source or index record (item 7). -/
def patBad (p : BitVec 512) (noEv : Bool) : Bool :=
  decide (fld p 103 102 ≠ 0 ∨ fld p 127 112 ≠ 0 ∨ patEsz p = 0 ∨ 1048576 < patEsz p ∨ 4 ≤ patCls p
    ∨ (patCls p = 3 ∧ patOut p = true) ∨ (patEm p = false ∧ patN p = 0) ∨ 2 ^ 48 < patN p
    ∨ (patEv p = false ∧ patEvn p ≠ 0)) || (noEv && patEv p)

/-- FIFO entries of one pass of a window (R352). -/
def patEntries (p : BitVec 512) : Nat := (patN p * patEsz p + 63) / 64

/-- Bytes of entry k inside the window's data (R352). -/
def patBytes (p : BitVec 512) (k : Nat) : Nat := min 64 (patN p * patEsz p - 64 * k)

/-- Runs of entry k that lie inside one element: byte place in the entry, address, length (R352). -/
def patRuns (p : BitVec 512) (k : Nat) : Nat → Nat → List (Nat × W64 × Nat)
  | 0, _ => []
  | fuel + 1, i =>
    let n := patBytes p k
    if n ≤ i then []
    else
      let o := 64 * k + i
      let len := min (patEsz p - o % patEsz p) (n - i)
      (i, patAddr p (o / patEsz p) + BitVec.ofNat 64 (o % patEsz p), len) :: patRuns p k fuel (i + len)

/-- The mask of the low n bytes of an entry. -/
def lowMask (n : Nat) : W64 := BitVec.ofNat 64 (2 ^ n - 1)

/-- The event that the end marker of entry k signals, when k holds the last element and ev is set (R353). -/
def patMark (p : BitVec 512) (k : Nat) : Option Nat :=
  if patEm p ∧ patEv p = true ∧ k + 1 = patEntries p then some (patEvn p) else none

/-! Events (R169). -/

def Part.event (x : Part) (n : Nat) : Event := (assocGet x.events n).getD {}

/-- Can the head of the queue of an event be granted? -/
def Event.ready (e : Event) : Bool :=
  match e.queue with
  | [] => false
  | (_, n) :: _ => decide (n ≤ e.count.toNat)

def State.modEvent (s : State) (part n : Nat) (f : Event → Event) : State :=
  let s1 := s.modPart part fun x => { x with events := assocSet x.events n (f (x.event n)) }
  if ((s1.part part).event n).ready then s1.later (.event (.eventGrant part n)) else s1

/-- A signal at the home of an event: count := min(count + inc, 2^32 − 1) (R169). -/
def State.signal (s : State) (part n inc : Nat) : State :=
  s.modEvent part n fun e => { e with count := BitVec.ofNat 32 (min (e.count.toNat + inc) (2 ^ 32 - 1)) }

/-- A wait request joins the queue of an event (R169). -/
def State.queueWait (s : State) (part n : Nat) (w : Waiter) (need : Nat) : State :=
  s.modEvent part n fun e => { e with queue := e.queue ++ [(w, need)] }

/-- Does a task's record grant an event (R169, R230)? -/
def TaskRec.grants (r : TaskRec) (n : Nat) : Bool := decide (r.evbase ≤ n ∧ n < r.evbase + r.evcount)

/-! Effects done once for a dual-run pair (R247). -/

/-- The k-th effect of a unit of a copy. -/
def Task.dualOp (t : Task) (src k : Nat) : Option DualOp := (t.dualOps.filter fun o => decide (o.src = src))[k]?

/-- Number of effects that a unit of a copy has issued. -/
def Task.dualCount (t : Task) (src : Nat) : Nat := (t.dualOps.filter fun o => decide (o.src = src)).length

/-- The other copy of a dual-run pair. -/
def State.partner (s : State) (t : Task) : Option Task :=
  match t.dual with
  | none => none
  | some k => s.task k

/-- Two copies disagree: a signature mismatch at this point (R247, R391), raised on copy A. -/
def State.mismatch (s : State) (t : Task) : State := s.raise (if t.copyB then t.dual.getD t.tid else t.tid) { cls := 5, code := 1 }

/-- A copy issues an effect: true when the other copy has issued it as well, with the same operands (R247). -/
def State.dualIssue (s : State) (t : Task) (src : Nat) (ops : List Nat) : Bool × State :=
  match s.partner t with
  | none => (true, s)
  | some u =>
    let k := t.dualCount src
    let s1 := s.modTask t.tid fun t => { t with dualOps := t.dualOps ++ [{ src := src, ops := ops }] }
    match u.dualOp src k with
    | none => (false, s1)
    | some o => if o.ops = ops then (true, s1) else (false, s1.mismatch t)

/-- A signal of a task's unit; of a dual-run pair it takes effect when both copies have issued it (R169, R247). The
superstep is no longer idempotent (R319). -/
def State.taskSignal (s : State) (t : Task) (src n inc : Nat) : State :=
  let (go, s1) := (s.modTask t.tid fun t => { t with nonIdem := true }).dualIssue ((s.task t.tid).getD t) src [0, n, inc]
  if go then s1.signal t.part n inc else s1

/-! Windows of a port. -/

def Port.win (p : Port) (k : Bool) : Win := if k then p.win1 else p.win0
def Port.setWin (p : Port) (k : Bool) (w : Win) : Port := if k then { p with win1 := w } else { p with win0 := w }
def Port.pat (p : Port) : BitVec 512 :=
  match p.cur with
  | none => 0
  | some k => (p.win k).pat

/-- The region page and core number that a port stands for (R282, R307, R229). -/
def Port.ident (p : Port) (rp n : Nat) : Nat × Nat := p.orig.getD (rp, n)

def State.port (s : State) (p n : Nat) : Port := (s.page p).port n
def State.modPort (s : State) (p n : Nat) (f : Port → Port) : State := s.modPage p fun pg => pg.setPort n (f (pg.port n))

/-- The port moves to the other window when that holds a pattern not yet run, else it has ended; a window taken up is checked for its
direction and its event, and one with n = 0 gives its marker at once (R26, R172, R352, R353). -/
def State.portNext (s : State) (p n : Nat) : Nat → State
  | 0 => s
  | fuel + 1 =>
    let x := s.port p n
    let want : Option Bool := match x.cur with
      | none => if x.win0.pat ≠ 0 ∧ x.win0.fresh then some false else if x.win1.pat ≠ 0 ∧ x.win1.fresh then some true else none
      | some k => if (x.win !k).pat ≠ 0 ∧ (x.win !k).fresh then some !k else none
    match want with
    | none => s.modPort p n fun x => { x with ended := true, cur := none }
    | some k =>
      let pat := (x.win k).pat
      if patOut pat ≠ x.out then (s.modPort p n fun x => { x with cur := none }).portTrap p n 1 13
      else
        match s.owner p with
        | none => s
        | some t =>
          if patEv pat && !t.rcd.grants (patEvn pat) then (s.modPort p n fun x => { x with cur := none }).portTrap p n 3 8
          else
            let s1 := s.modPort p n fun x => { x.setWin k { pat := pat, fresh := false } with cur := some k, pos := 0 }
            if patN pat = 0 then
              (if patEv pat then s1.taskSignal t (32 * (s.page p).rp + 1 + n) (patEvn pat) 1 else s1).portNext p n fuel
            else s1

/-- One entry of the current window used: its position moves, and a finished window gives way (R352, R172). -/
def State.portStep (s : State) (p n : Nat) : State :=
  let x := s.port p n
  if x.pos + 1 < patEntries x.pat then s.modPort p n fun x => { x with pos := x.pos + 1 }
  else if !patEm x.pat then s.modPort p n fun x => { x with pos := 0 }
  else (s.modPort p n fun x => { x with pos := 0 }).portNext p n 3

/-- SPSET once its hold is over (R172): FIFO empty, ended and reservations cleared, windows back to their start. -/
def State.portSet (s : State) (p n : Nat) (en out : Bool) : State :=
  let s1 := s.modPage p fun pg =>
    { (pg.setPort n
        (let x := pg.port n
        { x with en := en, out := if en then out else x.out, cur := none, pos := 0, fifo := [], resv := 0, ended := false,
                 win0 := { x.win0 with fresh := decide (x.win0.pat ≠ 0) }, win1 := { x.win1 with fresh := decide (x.win1.pat ≠ 0) } }))
      with feed := if pg.mode && decide (n = 0) then [] else pg.feed
           feedResv := if pg.mode && decide (n = 0) then 0 else pg.feedResv }
  if en then s1.portNext p n 3 else s1

/-- Entry of an input window's bytes: data and mask from the runs' bytes. -/
def entryOf (rs : List (Nat × List Byte)) : BitVec 512 × W64 :=
  rs.foldl (fun (d, m) (i, bs) =>
    (d ||| BitVec.ofNat 512 (leNat bs * 2 ^ (8 * i)), m ||| BitVec.ofNat 64 ((2 ^ bs.length - 1) * 2 ^ i))) (0, 0)

/-- Bytes of an entry as a list. -/
def entryBytes (d : BitVec 512) : List Byte := (List.range 64).map fun i => d.extractLsb' (8 * i) 8

/-- The eight feed segments of an entry (R218). -/
def segments (d : BitVec 512) (m : W64) (mark : Option Nat) (now : Nat) : List Seg :=
  (List.range 8).map fun i =>
    { data := d.extractLsb' (64 * i) 64, valid := decide (m.extractLsb' (8 * i) 8 ≠ 0), from_ := now + 1,
      mark := if (m.extractLsb' (8 * i) 8 ≠ 0) ∧ (i = 7 ∨ m.extractLsb' (8 * (i + 1)) 8 = 0) then mark else none }

/-- Is port n of a page the feed port of a matrix page (R218), its weight port (R222)? -/
def Page.feedPort (pg : Page) (n : Nat) : Bool := pg.mode && decide (n = 0)
def Page.weightPort (pg : Page) (n : Nat) : Bool := pg.mode && decide (n = 1)

/-- Does an input port fetch in this cycle (R134)? -/
def State.portFetches (s : State) (p n : Nat) : Bool :=
  let pg := s.page p
  let x := pg.port n
  x.en && !x.out && !x.ended && !pg.frozen && pg.owner.isSome
    && (if pg.feedPort n then decide (pg.feed.length + 8 ≤ 512) else decide (x.fifo.length < 64))

/-- Does an output port write an entry, or drop skipped ones, in this cycle (R134, R353)? An entry pushed in this cycle waits. -/
def State.portWrites (s : State) (p n : Nat) : Bool :=
  let pg := s.page p
  let x := pg.port n
  x.en && x.out && pg.owner.isSome && (match x.fifo with
    | [] => false
    | e :: _ => decide (e.at_ < s.cycle))

/-- PORT_FETCH (R134, R149, R351, R352): one entry of the window into the FIFO, there after the latency of its read and of the entries before
it (log 4); a weight port's beats of operand-class memory pass the image's
policy and count for it (R222, R445, R456). -/
def execVPortFetch (s : State) : Res :=
  match s.focus.ev with
  | .portFetch p n =>
    let x := s.port p n
    if !s.portFetches p n then .next s
    else if x.cur = none then .next (s.portNext p n 3)
    else
      match s.owner p with
      | none => .next s
      | some t =>
        let pg := s.page p
        let (rp, c) := x.ident pg.rp n
        let w := s.who t p
        let kind := if pg.weightPort n then Access.matrix else Access.read
        let keyed : Option Deny := if pg.weightPort n then none else some { cls := 3, code := 6 }
        let runs := patRuns x.pat x.pos 64 0
        let go := runs.foldl (fun (acc : State × List (Nat × List Byte) × Nat × Bool × Option (Deny × W64)) (i, va, len) =>
          let (s1, bs, lat, key, bad) := acc
          if bad.isSome then acc
          else
            match s1.elemPlaces t w kind false va len 1 (some (patCls x.pat)) keyed true with
            | .error e => (s1, bs, lat, key, some (e, va))
            | .ok ps =>
              if !s1.policyOk t (imagesOf ps) then (s1, bs, lat, key, some (dClass, va))
              else if s1.touchesBad t ps (some (p, c % 8)) then (s1, bs, lat, key, some (dIntegrity, va))
              else
              let (s2, l) := (s1.countBeats t (imagesOf ps) 1).touchL1 t p (c % 8) va ps
              let (b, s3) := s2.readPlaces t (t.windex rp c) rp c ps
              let k := s1.touchesKeyed t ps || ps.any fun (_, _, e) => match e with
                | some y => decide (y.cls = 3)
                | none => false
              (s3, bs ++ [(i, b)], max lat l, key || k, none)) (s, [], 0, false, none)
        let (s1, bs, lat, key, bad) := go
        match bad with
        | some (e, va) => .next (s.portTrap p n e.cls e.code (some (s.resolve w.home va)))
        | none =>
          let (d, m) := entryOf bs
          let mark := patMark x.pat x.pos
          let s2 := if pg.feedPort n then s1.modPage p fun pg =>
                let last := (pg.feed.getLast?.map (·.from_)).getD 0
                { pg with feed := pg.feed ++ segments d m mark (max (last - 1) (s.cycle + lat)) }
            else s1.modPort p n fun x =>
              let last := (x.fifo.getLast?.map (·.at_)).getD 0
              { x with fifo := x.fifo ++ [{ data := d, mask := m, pat := x.pat, idx := x.pos, at_ := max last (s.cycle + lat), mark := mark,
                                            skip := key }] }
          .next (s2.portStep p n)
  | _ => .next s

/-- Skipped entries at the head of an output FIFO leave with their markers (R353). -/
def State.dropSkips (s : State) (t : Task) (p n : Nat) : Nat → State
  | 0 => s
  | fuel + 1 =>
    match (s.port p n).fifo with
    | [] => s
    | e :: r =>
      if e.skip && decide (e.at_ < s.cycle) then
        let s1 := s.modPort p n fun x => { x with fifo := r }
        (match e.mark with
        | none => s1
        | some v => s1.taskSignal t (32 * (s.page p).rp + 1 + n) v 1).dropSkips t p n fuel
      else s

/-- The oldest pushed entry of an output port goes to its window (R134, R136, R280, R307). -/
def State.portWriteOne (s0 : State) (t : Task) (p n : Nat) : State :=
  let pg := s0.page p
  let x := pg.port n
  match x.fifo with
  | [] => s0
  | e :: r =>
    if s0.cycle ≤ e.at_ then s0
    else
      let (rp, c) := x.ident pg.rp n
      let w := s0.who t p
      let runs := patRuns e.pat e.idx 64 0
      let bad := runs.findSome? fun (_, va, len) =>
        match s0.elemAccess t w .write true va len 1 (some (patCls e.pat)) (some { cls := 3, code := 6 }) true with
        | .error d => some (d, va)
        | .ok _ => none
      match bad with
      | some (d, va) => s0.portTrap p n d.cls d.code (some (s0.resolve w.home va))
      | none =>
        let places := fun (s : State) (va : W64) (len : Nat) => match s.taskPlaces t w .write true va len with
          | .ok ps => ps
          | .error _ => []
        match s0.takeSectors t (runs.flatMap fun (_, va, len) => sectorsOf t (rp, c) (places s0 va len)) with
        | none => if t.trapping then s0 else (s0.countVofl t.part).portTrap p n 2 6 (runs.head?.map fun r => s0.resolve w.home r.2.1)
        | some s1 =>
          let bytes := entryBytes e.data
          let s2 := runs.foldl (fun s2 (i, va, len) =>
            let ps := places s2 va len
            ((s2.noteWalks w va len).1.markL1 t p (c % 8) ps).writePlaces t (t.windex rp c) (s0.ordNow 0) 0 (rp, c)
              (fun j => e.mask.getLsbD (i + j)) ps 0 ((bytes.drop i).take len)) s1
          let s3 := s2.modPort p n fun x => { x with fifo := r }
          match e.mark with
          | none => s3
          | some v => s3.taskSignal t (32 * pg.rp + 1 + n) v 1

/-- PORT_WRITEOUT (R134, R353): skipped entries leave, then one entry is written. -/
def execVPortWriteout (s : State) : Res :=
  match s.focus.ev with
  | .portWriteout p n =>
    match s.owner p with
    | none => .next s
    | some t => .next (if s.portWrites p n then (s.dropSkips t p n 64).portWriteOne t p n else s)
  | _ => .next s

/-! Element words on ports (R135 to R137, R139). -/

/-- The oldest entry of an input FIFO leaves, its marker is signalled and its reservation released (R23, R353). -/
def State.portPop (s : State) (p n : Nat) : Option Entry × State :=
  match (s.port p n).fifo with
  | [] => (none, s)
  | e :: r =>
    let s1 := s.modPort p n fun x => { x with fifo := r, resv := x.resv - 1 }
    match e.mark, s.owner p with
    | some v, some t => (some e, s1.taskSignal t (32 * (s.page p).rp + 1 + n) v 1)
    | _, _ => (some e, s1)

def State.portPops (s : State) (p n : Nat) : Nat → State
  | 0 => s
  | k + 1 => (s.portPop p n).2.portPops p n k

/-- One entry pushed, or skipped, on an output port: it takes the next entry of the window (R136, R137). -/
def State.portPush (s : State) (p n : Nat) (data : BitVec 512) (mask : W64) (skip : Bool) : State :=
  let x := s.port p n
  if x.cur = none then s
  else
    let e : Entry :=
      { data := data, mask := mask &&& lowMask (patBytes x.pat x.pos), pat := x.pat, idx := x.pos, at_ := s.cycle,
        mark := patMark x.pat x.pos, skip := skip }
    (s.modPort p n fun x => { x with fifo := x.fifo ++ [e], resv := x.resv - 1 }).portStep p n

def State.portSkips (s : State) (p n : Nat) : Nat → State
  | 0 => s
  | k + 1 => (s.portPush p n 0 0 true).portSkips p n k

/-- The number n of SSKIP from its operand: bits 5:0 of lane 0 (R137). -/
def skipCount (x : W32) : Nat := x.toNat % 64

/-- spst of a page in a cycle: what has arrived in each FIFO, the feed row's entries as the feed port's level (R30, R218). -/
def Page.portStatus (pg : Page) (now n : Nat) : Nat :=
  let x := pg.port n
  let level := if pg.feedPort n then ((pg.feed.filter fun g => decide (g.from_ ≤ now)).length + 7) / 8
    else (x.fifo.filter fun e => decide (e.at_ < now)).length
  level % 128 + x.ended.toNat * 128

def Page.spstReg (pg : Page) (now : Nat) : W64 :=
  BitVec.ofNat 64 ((List.range 8).foldr (fun n acc => pg.portStatus now n + 256 * acc) 0)

end Sys2Proof.Machine
end

