-- ==== Sys2Proof/Machine/ElemLocal.lean ====
section
/-! DEFINITION. Element words 0x60 to 0x76: scratchpad, streams, constant cache, reductions, weights, matrix cells, feed and control
registers (05 R132 to R149, 14 R326 to R329, 08 R217 to R223). -/
namespace Sys2Proof.Machine

/-- A value that the spec does not state, for lane i of the word in focus (log 5). -/
def State.freeLane (s : State) (i : Nat) : W32 := BitVec.ofNat 32 (Config.freeNat (s.free + i))

/-- A word that pops, stores or loads nothing uses no free value; one that may uses sixteen (log 5). -/
def State.useFree (s : State) : State := { s with free := s.free + 16 }

/-- Bytes that a core's LD and ST reach, and where they start in its scratchpad: half of it for a folded core (R132, R229). -/
def Core.spWindow (k : Core) (f : Focus) : Nat × Nat :=
  if k.fold then (0x40000, if k.odd f then 0x40000 else 0) else (0x80000, 0)

/-- The trap of an LD or ST lane in the precedence of R132. -/
def Core.spTrap (k : Core) (f : Focus) (addr : Nat) : Option (Nat × Nat) :=
  let (size, base) := k.spWindow f
  if size ≤ addr then some (2, 3)
  else if addr % 4 ≠ 0 then some (2, 1)
  else if k.ckb.getLsbD ((base + addr) / 65536) then some (3, 4)
  else none

/-- Lanes of the word in focus: one for a scalar word (R69). -/
def lanesOf (w : EWord) : List Nat := List.range (if isScalar w then 1 else 16)

/-- The lowest taking-part lane with a trap: lane, class, code. -/
def firstTrap (lanes : List Nat) (eff : Nat → Bool) (trap : Nat → Option (Nat × Nat)) : Option (Nat × Nat × Nat) :=
  lanes.findSome? fun i => if eff i then (trap i).map fun x => (i, x.1, x.2) else none

/-- A load from a byte source of the core: LD and LDC (R132, R327). plain: a lane whose side effects do not occur under R21 reads its bytes all the same where its
offset has some, as R327 says of LDC; the spec states no value for the others (log 80). -/
def State.loadOp (s : State) (op : Nat) (w : EWord) (trap : Nat → Option (Nat × Nat)) (mem : List Host.Cell) (base : Nat) (plain : Bool := false) :
    State :=
  let r := s.srcs op w
  let s1 := s.keyCheck op w
  if !s.focus.live then s1.issue op w 0 0 0xFFFF 0
  else
    let addr := fun i => (r.a.lane i + r.b.lane i).toNat
    let ok := fun i => r.a.ok i && r.b.ok i
    let setv := fun i => decide (r.c.lane i ≠ 0)
    let eff := effect w.vm ok setv
    match firstTrap (lanesOf w) eff fun i => trap (addr i) with
    | some (i, cls, code) => s1.elemTrap cls code i (some (BitVec.ofNat 64 (addr i)))
    | none =>
      let (l, v, m, f) := vmLanes w ok setv fun i =>
        (if eff i || (plain && (trap (addr i)).isNone) then BitVec.ofNat 32 (leNat (cellsRead mem (base + addr i) 4)) else s.freeLane i, 0)
      s1.useFree.issue op w l v m f

/-- LD (R132, R133): memory as it stands after every store that has landed by this cycle. -/
def execELd (w : EWord) (s : State) : Res :=
  let k := s.fcore
  .next (s.loadOp 0x60 w (k.spTrap s.focus) k.sp (k.spWindow s.focus).2)

/-- LDC: the constant cache as the last CFILL or configuration load left it (R327). -/
def execELdc (w : EWord) (s : State) : Res :=
  .next (s.loadOp 0x62 w (fun a => if 0x2000 ≤ a then some (2, 9) else if a % 4 ≠ 0 then some (2, 1) else none) s.fcore.cc 0
    true)

/-- ST: memory is written in the cycle after issue; the highest-numbered lane of one address stands (R132, R133). -/
def execESt (w : EWord) (s : State) : Res :=
  let r := s.srcs 0x61 w
  let s1 := s.keyCheck 0x61 w
  if !s.focus.live then .next s1
  else
    let k := s.fcore
    let addr := fun i => (r.a.lane i + r.b.lane i).toNat
    let eff := effect w.vm (fun i => r.a.ok i && r.b.ok i && r.c.ok i) fun _ => false
    match firstTrap (lanesOf w) eff fun i => k.spTrap s.focus (addr i) with
    | some (i, cls, code) => .next (s1.elemTrap cls code i (some (BitVec.ofNat 64 (addr i))))
    | none =>
      let base := (k.spWindow s.focus).2
      let cells := (lanesOf w).flatMap fun i =>
        if eff i then (List.range 4).map fun j => (base + addr i + j, (r.c.lane i).extractLsb' (8 * j) 8) else []
      .next (s1.launchAct 1 (.store cells))

/-- The lanes of a popped entry (R135). -/
def Entry.lanes (e : Entry) : VReg :=
  { lanes := e.data, valid := mkBits fun i => decide (e.mask.extractLsb' (4 * i) 4 ≠ 0) }

/-- SRD pops one entry of input port a into d; with no entry it delivers invalid zero and pops nothing (R135). -/
def execESrd (w : EWord) (s : State) : Res :=
  let c := s.src w.c
  let s1 := s.keyCheck 0x63 w
  if !s.focus.live then .next (s1.issue 0x63 w 0 0 0xFFFF 0)
  else
    let (e, s2) := s1.portPop s.focus.page w.a.toNat
    match e with
    | none => .next (s2.issue 0x63 w 0 0 0xFFFF 0)
    | some e =>
      let x := e.lanes
      let (l, v, m, f) := vmLanes w x.ok (fun i => decide (c.lane i ≠ 0)) fun i => (x.lane i, 0)
      .next (s2.issue 0x63 w l v m f)

/-- SWR pushes one entry whose lanes with side effects are written (R136). -/
def execESwr (w : EWord) (s : State) : Res :=
  let r := s.srcs 0x64 w
  let s1 := s.keyCheck 0x64 w
  if !s.focus.live then .next s1
  else
    let eff := effect w.vm r.b.ok fun i => decide (r.c.lane i ≠ 0)
    let mask : W64 := BitVec.ofNat 64 ((List.range 16).foldl (fun n i => n + (if eff i then 15 else 0) * 2 ^ (4 * i)) 0)
    .next (s1.portPush s.focus.page w.a.toNat r.b.lanes mask false)

/-- SSKIP advances a port by n entries (R137). -/
def execESskip (w : EWord) (s : State) : Res :=
  if !s.focus.live then .next s
  else
    let n := skipCount ((s.src w.b).lane 0)
    let p := s.focus.page
    if (s.port p w.a.toNat).out then .next (s.portSkips p w.a.toNat n) else .next (s.portPops p w.a.toNat n)

/-- SCOUNT: byte a of spst as it stands at issue; always valid (R138). -/
def execEScount (w : EWord) (s : State) : Res :=
  let x := BitVec.ofNat 32 ((s.page s.focus.page).portStatus s.cycle w.a.toNat)
  .next (s.issue 0x66 w (mkLanes fun i => if isScalar w ∧ i ≠ 0 then 0 else x) (if isScalar w then 1 else 0xFFFF)
    (if isScalar w then 1 else 0xFFFF) 0)

/-- The target of a reduction lane checked in the order of R304 as R328 narrows it: its place, or the trap. -/
def State.redPlace (s : State) (t : Task) (p : Nat) (va : W64) (n : Nat) : Except (Nat × Nat) Loc :=
  if va.toNat % n ≠ 0 then .error (2, 1)
  else
    match spaceOf va with
    | .scratch _ _ _ => .error (2, 10)
    | _ =>
      match s.elemAccess t (s.who t p) .write true va n n none none with
      | .error e => .error (e.cls, e.code)
      | .ok ps => match ps with
        | [] => .error (2, 2)
        | (l, _, _) :: _ => .ok l

/-- The trap of a reduction lane, if any. -/
def State.redCheck (s : State) (t : Task) (p : Nat) (va : W64) (n : Nat) : Option (Nat × Nat) :=
  match s.redPlace t p va n with
  | .error e => some e
  | .ok _ => none

/-- AREDF and AREDI: lanes taking part queue one entry each (R328, R329). -/
def State.redOp (s : State) (op : Nat) (w : EWord) (size ty : Nat) : State :=
  let r := s.srcs op w
  let s1 := s.keyCheck op w
  let p := s.focus.page
  match s.owner p with
  | none => s1
  | some t =>
    if !s.focus.live then s1
    else
      let eff := effect w.vm (fun i => r.a.ok i && r.b.ok i) fun i => decide (r.c.lane i ≠ 0)
      let target := fun i => t.rcd.lbase + (r.a.lane i).setWidth 64
      match firstTrap (List.range 16) eff fun i => s.redCheck t p (target i) size with
      | some (i, cls, code) => s1.elemTrap cls code i (some (s.resolve (s.who t p).home (target i)))
      | none =>
        let es : List RedEntry := (List.range 16).filterMap fun i =>
          match eff i, s.redPlace t p (target i) size with
          | true, .ok l => some { va := target i, loc := l, cell := decide (op = 0x67), ty := ty, addends := [r.b.lane i] }
          | _, _ => none
        s1.modCore p s.focus.core fun k => { k with redq := k.redq ++ es, redResv := k.redResv - 16 }

/-- AREDF (R328). -/
def execEAredf (w : EWord) (s : State) : Res := .next (s.redOp 0x67 w 16 w.ty.toNat)

/-- AREDI (R328). -/
def execEAredi (w : EWord) (s : State) : Res := .next (s.redOp 0x68 w 4 0)

/-- WLD: the whole of a into a weight register of the inactive bank when every lane is valid; it passes a's value, key flag and source on
(R141, R142, R150). -/
def execEWld (w : EWord) (s : State) : Res :=
  if !s.focus.live then .next (s.launchAct 1 (.result { sides := w.fwd, odd := s.fcore.odd s.focus }))
  else
    let k := s.fcore
    let a := w.a.toNat
    let l : LinkIn := if 40 ≤ a ∧ a < 44 then k.lin.getD (k.side s.focus (a - 40)) {} else { v := s.src w.a }
    let n := w.d.toNat
    let s1 := s.launchAct 1
      (.result { lanes := l.v.lanes, valid := l.v.valid, sides := w.fwd, key := l.key, src := l.src, odd := k.odd s.focus })
    if decide (n / 8 = 1) = k.wsel then .next (s1.elemTrap 1 8)
    else if l.v.valid = 0xFFFF then .next (s1.launchAct 1 (.weight n l.v.lanes l.key))
    else .next s1

/-- WSEL flips wsel for the words of the next cycle; with part of a fill delivered it traps (R143, R223). -/
def execEWsel (_w : EWord) (s : State) : Res :=
  if !s.focus.live then .next s
  else if 1 ≤ s.fcore.got.length ∧ s.fcore.got.length ≤ 7 then .next (s.elemTrap 1 9)
  else .next (s.launchAct 1 .wsel)

/-- Is the region page beyond a link input's side a matrix page, or for E and W the neighbouring cell of the page (R145)? -/
def State.matrixBeyond (s : State) (p side core : Nat) : Bool :=
  match s.owner p with
  | none => false
  | some t =>
    let rp := (s.page p).rp
    let isM := fun q => match t.phys q with
      | none => false
      | some x => (s.page x).mode
    if side = 0 then decide (0 < rp) && isM (rp - 1)
    else if side = 1 then decide (core < 7)
    else if side = 2 then isM (rp + 1)
    else true

/-- Core 0 of a matrix page takes the oldest segment of its feed row into lW (R218). -/
def State.feedPop (s : State) (p : Nat) : State :=
  let pg := s.page p
  match pg.feed with
  | [] => s.modCore p 0 fun k => { k with lin := k.lin.set 3 {} }
  | g :: r =>
    let v : VReg := { lanes := g.data.setWidth 512, valid := if g.valid then 3 else 0 }
    let s1 := (s.modPage p fun pg => { pg with feed := r, feedResv := pg.feedResv - 1 }).modCore p 0 fun k =>
      { k with lin := k.lin.set 3 { v := v } }
    match g.mark, s.owner p with
    | some e, some t => s1.taskSignal t (32 * pg.rp + 1) e 1
    | _, _ => s1

/-- The pairs of a matrix cell for column n: activations of a with the weights of a block (R141, R145). -/
def cellPairs (ty : Nat) (bx : Bool) (a : Lanes) (wt : Lanes) (n : Nat) : List (Val × Val) :=
  let cols := if ty = 7 then 8 else 4
  let ew := tyWidth ty
  (List.range (if ty = 2 ∨ ty = 3 then 4 else 8)).map fun k =>
    let x := (a.toNat / 2 ^ (ew * k)) % 2 ^ ew
    let y := (wt.toNat / 2 ^ (ew * (cols * k + n))) % 2 ^ ew
    if ty = 7 then
      (fp4Val bx ((a.toNat / 2 ^ 32) % 256) ((a.toNat / 2 ^ 40) % 256) x,
        fp4Val bx ((wt.toNat / 2 ^ (256 + 8 * n)) % 256) ((wt.toNat / 2 ^ (320 + 8 * n)) % 256) y)
    else (elemVal ty x, elemVal ty y)

/-- SMAC: one column through a cell of the weight-stationary array (R145, R217, R218). -/
def execESmac (w : EWord) (s : State) : Res :=
  let p := s.focus.page
  let c := s.focus.core
  if !s.focus.live then .next ((s.issue 0x72 w 0 0 0xFFFF 0).launchAct 1 (.result { sides := 4 }))
  else
    let s0 := if c = 0 ∧ w.a = 43 then s.feedPop p else s
    let s1 := s0.keyCheck 0x72 w
    let k := s0.fcore
    let pg := s0.page p
    let ring := pg.ring
    let a := s0.src w.a
    let bcode := w.b.toNat
    let b : VReg :=
      if 40 ≤ bcode ∧ bcode < 44 ∧ s0.matrixBeyond p (bcode - 40) c = false then bcast (ringIdentity ring) true else s0.src w.b
    let wt := (k.w.getD (8 * k.wsel.toNat + s0.wimm.toNat % 8) {}).val
    let ty := w.ty.toNat
    let cols := if ty = 7 then 8 else 4
    let live := a.ok 0 && a.ok 1
    let res := fun n =>
      if cols ≤ n then ((0 : W32), (0 : FlagSet))
      else if !live then (b.lane n, 0)
      else mergeChunk ring ty k.rm (b.lane n) (cellPairs ty k.f4 a.lanes wt n)
    let valid := mkBits fun n => if cols ≤ n then live && b.ok 0 else live && b.ok n
    let flags := (List.range cols).foldl (fun f n => if live && b.ok n then f ||| (res n).2 else f) 0
    .next ((s1.issue 0x72 w (mkLanes fun n => (res n).1) valid 0xFFFF flags).launchAct 1
      (.result { lanes := a.lanes, valid := a.valid, sides := 4 }))

/-- The operand type of a matrix page: that of its SMACs (R217). -/
def Core.opType (k : Core) : Nat := (k.ctab.getD 0 0).toNat % 8

/-- SDRN delivers a to d and drains it: one entry on sp7 of a general page, a part of the column's drain record on a matrix page (R146,
R220). -/
def execESdrn (w : EWord) (s : State) : Res :=
  let p := s.focus.page
  let c := s.focus.core
  let a := s.src w.a
  let s1 := (s.keyCheck 0x73 w).issue 0x73 w a.lanes a.valid 0xFFFF 0
  if !s.focus.live then .next s1
  else if !(s.page p).mode then
    let mask : W64 := BitVec.ofNat 64 ((List.range 16).foldl (fun n i => n + (if a.ok i then 15 else 0) * 2 ^ (4 * i)) 0)
    .next (if a.ok 0 then s1.portPush p 7 a.lanes mask false else s1)
  else
    let cols := if s.fcore.opType = 7 then 8 else 4
    let tag := s.focus.tag
    .next (s1.modPage p fun pg =>
      let d0 : Drain := (pg.drains.find? fun d => decide (d.tag = tag ∧ d.ready = none)).getD { tag := tag }
      let d1 : Drain := if a.ok 0 then
          { d0 with
            data := d0.data ||| (((a.lanes.setWidth 2048) &&& BitVec.ofNat 2048 (2 ^ (32 * cols) - 1)) <<< (32 * cols * c))
            mask := d0.mask ||| (BitVec.ofNat 256 (2 ^ (4 * cols) - 1) <<< (4 * cols * c)) }
        else d0
      let d2 : Drain := if c = 7 then { d1 with ready := some s.cycle } else d1
      { pg with drains := (pg.drains.filter fun d => decide (¬(d.tag = tag ∧ d.ready = none))) ++ [d2] })

/-- The c-th matrix page of a region, counting from 0 (R147). -/
def State.matrixPage (s : State) (t : Task) (c : Nat) : Option Nat := (t.pages.filter fun q => (s.page q).mode)[c]?

/-- FEED pushes one segment to the feed row of the c-th matrix page; it counts two cycles later (R147, R218). -/
def execEFeed (w : EWord) (s : State) : Res :=
  let p := s.focus.page
  let r := s.srcs 0x74 w
  let s1 := s.keyCheck 0x74 w
  match s.owner p with
  | none => .next s1
  | some t =>
    match s.matrixPage t s.focus.core with
    | none => .next s1
    | some q =>
      if s.focus.live && (decide (w.vm = 1) || (r.a.ok 0 && r.a.ok 1)) then
        let hi := if w.ty = 7 then (r.a.lane 1).toNat % 65536 else (r.a.lane 1).toNat
        let g : Seg := { data := BitVec.ofNat 64 ((r.a.lane 0).toNat + hi * 2 ^ 32), valid := true, from_ := s.cycle + 2 }
        .next (s1.modPage q fun pg => { pg with feed := pg.feed ++ [g], feedSpace := pg.feedSpace - 1 })
      else .next (if s.focus.live then s1.modPage q fun pg => { pg with feedSpace := pg.feedSpace - 1 } else s1)

/-- The control register of an index as 64 bits (R27, R30, R355). -/
def State.ctlReg (s : State) (p c idx : Nat) : W64 :=
  let k := s.core p c
  if idx = 0 then k.cfr.setWidth 64
  else if idx = 1 then k.ckb.setWidth 64
  else if idx = 2 then (s.page p).spstReg s.cycle
  else if idx = 3 then k.mprog
  else if idx = 4 then k.kprog.setWidth 64
  else if idx = 5 then ((s.page p).eslot c).eprog
  else 0

/-- RDCTL: bits 31:0 in lane 0 and bits 63:32 in lane 1 of a vector destination, the low word of a scalar one; valid (R140). Index 5 on
core c reads eprog of slot c (R355). -/
def execERdctl (w : EWord) (s : State) : Res :=
  let x := s.ctlReg s.focus.page s.focus.core w.a.toNat
  let m : W16 := if isScalar w then 1 else 0xFFFF
  .next (s.issue 0x75 w
    (mkLanes fun i => if i = 0 then x.setWidth 32 else if i = 1 ∧ isScalar w = false then (x >>> 32).setWidth 32 else 0) m m 0)

/-- WRCTL: lane 0 and, for a vector b, lane 1; it lands in the next cycle (R28, R33, R140). -/
def execEWrctl (w : EWord) (s : State) : Res :=
  let r := s.srcs 0x76 w
  let s1 := s.keyCheck 0x76 w
  let one := oneWord w.b.toNat
  let acts := if w.vm = 3 then decide (r.c.lane 0 ≠ 0) else r.b.ok 0 && (one || r.b.ok 1)
  if s.focus.live && acts then
    let hi : W64 := if one then 0 else (r.b.lane 1).setWidth 64
    .next (s1.launchAct 1 (.ctl w.a.toNat ((r.b.lane 0).setWidth 64 ||| (hi <<< 32))))
  else .next s1

end Sys2Proof.Machine
end

