-- ==== Sys2Proof/Machine/Wave.lean ====
section
/-! DEFINITION. Kernels of a region: wave words, the stage history and record selection (01 R14 to R19), landings and hops (04 R94, 08 R212), the
entry decision and its reservations (01 R23 to R25, 08 R211, R219), the kernel's end (06 R158), steering (08 R215), drain records (08 R220)
and the weight port (08 R222). -/
namespace Sys2Proof.Machine

/-! The end of a sequencer word (R151, R156). -/

/-- The word at index k has completed: the repeat stack (head is the top) and the next program counter. -/
def stepRep : List RepE → Nat → List RepE × Nat
  | [], k => ([], k + 1)
  | e :: r, k =>
    if e.last = k then (if 1 < e.left then ({ e with left := e.left - 1 } :: r, e.first) else stepRep r k)
    else (e :: r, k + 1)

/-- A sequencer word completes: the next one issues in the next cycle. -/
def Page.complete (pg : Page) : Page :=
  let (rep, pc) := stepRep pg.rep pg.pc.toNat
  { pg with rep := rep, pc := BitVec.ofNat 11 pc, phase := .ready }

/-! Wave words at a core (R14, R210). -/

/-- Offset δ of a region page (R208). -/
def Task.deltaOf (t : Task) (rp : Nat) : Nat := t.delta.getD rp 0

/-- The skew of core c of a region page (R210). -/
def Task.skew (t : Task) (rp c : Nat) : Nat := c + t.deltaOf rp

/-- The wave word that reaches core c of region page rp in a cycle (R210). -/
def Task.waveAt (t : Task) (rp c cycle : Nat) : Option Wave :=
  let k := t.skew rp c
  if cycle < k then none else t.waves.find? fun w => decide (w.at_ = cycle - k)

def Wave.hold (w : Wave) : Bool := w.ctl.getLsbD 5

/-- Are wave words still on their way to a core of a region page? A page's KRUN can complete while words of earlier intervals, which a schedule switch
has left behind on cores of higher skew, are still to run (R17, R210). -/
def Task.flowing (t : Task) (rp cycle : Nat) : Bool := t.waves.any fun w => decide (cycle ≤ w.at_ + t.skew rp 7)

/-- Bubbles that a receiver of skew k' meets by cycle now and a sender of skew k had not met when it sent in cycle at_. A value on a hop, and a
condition on the return path, waits for them, so that it keeps its distance in schedule cycles (R25, R212, R214, R215). -/
def Task.bubblesBetween (t : Task) (k at_ k' now : Nat) : Nat :=
  (t.waves.filter fun w => w.hold && decide (at_ < w.at_ + k ∧ w.at_ + k' ≤ now)).length

/-- A new interval at a core: the resets of R18 at the kernel's first, else one rotation step (R19); the entry record is pushed. -/
def Core.enter (k : Core) (w : Wave) : Core :=
  let r : HRec := { live := w.live, sched := w.sched, tag := w.tag }
  if w.first then
    { k with rbase := 0, kprog := 0, v := k.v.take 8 ++ List.replicate 32 {}, hist := r :: List.replicate 31 {} }
  else { k with rbase := k.rbase - 1, hist := r :: k.hist.take 31 }

/-- The word that a slot executes: its schedule and the record it acts for (R16); none when nothing is selected or the word is NOP. -/
def Core.select (k : Core) (slot : Nat) : Option (Bool × HRec) :=
  let pick := fun (b : Bool) =>
    let e := k.ctab.getD ((if b then 32 else 0) + slot) 0
    let r := k.hist.getD (fld e 44 40) {}
    if fld e 39 33 ≠ 0 ∧ r.sched = b then some (b, r) else none
  match pick false with
  | some x => some x
  | none => pick true

/-- The word that a slot executes, a NOP among them: it does nothing (R16, R102). -/
def Core.selectWord (k : Core) (slot : Nat) : Option (Bool × HRec) :=
  let rec_ := fun (b : Bool) => k.hist.getD (fld (k.ctab.getD ((if b then 32 else 0) + slot) 0) 44 40) {}
  match k.select slot with
  | some x => some x
  | none =>
    if (rec_ false).sched = false then some (false, rec_ false)
    else if (rec_ true).sched then some (true, rec_ true)
    else none

/-- The end of a cycle at a core: kprog counts at the end of an interval whose last stage was live (R24, R34). -/
def Core.endSlot (k : Core) (w : Wave) (ii stages : Nat) : Core :=
  if !w.hold && w.counts && decide (w.slot + 1 = ii) && (k.hist.getD (stages - 1) {}).live then { k with kprog := k.kprog + 1 } else k

/-- The end of the cycle on the pages of a task. -/
def State.endCycle (s : State) (t : Task) : State :=
  t.pages.foldl (fun s p =>
    s.modPage p fun pg =>
      if pg.frozen then { pg with wave := 0 }
      else
        let cs := pg.cores.zipIdx.map fun (k, c) =>
          let k1 := { k with fresh := [] }
          match t.waveAt pg.rp c s.cycle with
          | none => k1
          | some w => k1.endSlot w pg.ii pg.stages
        { pg with cores := cs, kprog := (cs.headD {}).kprog, wave := 0 }) s

/-! Landings (R94, R28, R109, R133, R142, R143, R212). -/

/-- The core that side X of a core faces, the side of its input, and the hop delay (R212); odd virtual pages of a folded image count
apart (R229). -/
def State.facing (s : State) (t : Task) (p c side : Nat) (odd : Bool) : Option (Nat × Nat × Nat × Nat) :=
  let pg := s.page p
  let fold := (pg.core c).fold
  let own := if odd then 4 else 0
  if side = 1 then (if c < 7 then some (p, c + 1, 3 + own, 1) else none)
  else if side = 3 then (if 0 < c then some (p, c - 1, 1 + own, 1) else none)
  else if side = 2 then
    if fold && !odd && decide (2 * pg.rp + 1 < t.npages) then some (p, c, 0 + 4, 1)
    else
      match t.phys (pg.rp + 1) with
      | none => none
      | some q => some (q, c, 0, t.deltaOf (pg.rp + 1) - t.deltaOf pg.rp)
  else if fold && odd then some (p, c, 2, 1)
  else if pg.rp = 0 then none
  else
    match t.phys (pg.rp - 1) with
    | none => none
    | some q => some (q, c, if fold then 6 else 2, t.deltaOf pg.rp - t.deltaOf (pg.rp - 1))

/-- A forwarded value sent on a side. -/
def State.forward (s : State) (t : Task) (p c side : Nat) (odd narrow : Bool) (v : VReg) (key : Bool) (src : W64) : State :=
  match s.facing t p c side odd with
  | none => s
  | some (q, c', side', d) =>
    let a : Arrival :=
      { hop := d, at_ := s.cycle, skew := t.skew (s.page p).rp c, side := side', narrow := narrow, v := v, key := key, src := src }
    s.modCore q c' fun k => { k with arrive := k.arrive ++ [a] }

/-- Lanes of a new value laid over an old one. -/
def overlay (old : VReg) (lanes : Lanes) (valid mask : W16) : VReg :=
  { lanes := mkLanes fun i => if mask.getLsbD i then laneOf lanes i else old.lane i
    valid := (valid &&& mask) ||| (old.valid &&& ~~~mask) }

/-- A result lands in its register with its flags (R94, R28). -/
def Core.landReg (k : Core) (r : Result) : Core :=
  let k1 := { k with cfr := k.cfr ||| (r.flags.setWidth 32 <<< 8) }
  match r.reg with
  | .none => k1
  | .vec n => { k1 with v := modAt k1.v n fun o => overlay o r.lanes r.valid r.mask }
  | .scal n => if r.mask.getLsbD 0 then
      { k1 with s := modAt k1.s n fun o =>
          { val := ((o.val >>> 32) <<< 32) ||| ((laneOf r.lanes 0).setWidth 64), valid := r.valid.getLsbD 0 } }
    else k1

/-- A write of a control register lands (R27, R28, R33). -/
def Core.landCtl (k : Core) (index : Nat) (v : W64) : Core :=
  if index = 0 then { k with cfr := (v.setWidth 32) &&& 0x1F07 }
  else if index = 3 ∧ k.busy = false then { k with mprog := v &&& 0xFFFFFFFFFF }
  else k

/-- The value that each side forwards from the results that land together: later words win their lanes (R94). A LANEI forwards its whole register and so
replaces every lane of an earlier word's forward: R109's words are taken before R94's lanes that LANEI leaves unchanged (log 96). -/
def sideValue (rs : List Result) (k : Core) (side : Nat) (narrow odd : Bool) : Option (VReg × Bool × W64) :=
  let on := rs.filter fun r => r.sides.getLsbD (3 - side) && decide (r.narrow = narrow ∧ r.odd = odd)
  if on.isEmpty then none
  else some (on.foldl (fun (v, _, _) r =>
    if r.whole then
      (match r.reg with
      | .vec n => k.v.getD n {}
      | _ => {}, r.key, r.src)
    else (overlay v r.lanes r.valid r.mask, r.key, r.src)) (({} : VReg), false, (0 : W64)))

/-- Everything that lands at a core in this cycle: control writes, results in issue order, stores, weights, bank flips; then the forwards of the
results (R94, R109, R212). -/
def State.landActs (s : State) (t : Task) (p c : Nat) (as : List LandAct) : State :=
  let s1 := as.foldl (fun s a => match a with
    | .ctl i v => s.modCore p c fun k => k.landCtl i v
    | _ => s) s
  let s2 := as.foldl (fun s a => match a with
    | .result r => s.modCore p c fun k => k.landReg r
    | .store cells => cells.foldl (fun s (o, b) => s.ownWrite t p c 2 o [b]) s
    | .weight n v key => s.modCore p c fun k => { k with w := k.w.set n { val := v, key := key } }
    | .wsel => s.modCore p c fun k => { k with wsel := !k.wsel, ready := true, got := [] }
    | .ctl _ _ => s) s1
  let rs := as.filterMap fun a => match a with
    | .result r => some r
    | _ => none
  let k := s2.core p c
  [(0, false, false), (1, false, false), (2, false, false), (3, false, false), (0, true, false), (1, true, false), (2, true, false),
    (3, true, false), (0, false, true), (1, false, true), (2, false, true), (3, false, true), (0, true, true), (1, true, true),
    (2, true, true), (3, true, true)].foldl (fun s (side, narrow, odd) =>
      match sideValue rs k side narrow odd with
      | none => s
      | some (v, key, src) => s.forward t p c side odd narrow v key src) s2

/-- An arrival takes its place in a link input or token (R11, R141, R150). -/
def Core.receive (k : Core) (a : Arrival) : Core :=
  if a.narrow then { k with qin := k.qin.set a.side { val := a.v.lane 0, valid := a.v.ok 0 } }
  else { k with lin := k.lin.set a.side { v := a.v, key := a.key, src := if a.key then a.src else 0 } }

/-- Does a value on its hop land at a core of skew k in this cycle: D cycles after it landed on its producer's core, and later by the bubbles of the
receiver that the producer had yet to meet (R212, R25)? On a frozen page it lands after D cycles (R372). -/
def Arrival.due (a : Arrival) (t : Task) (k now : Nat) (frozen : Bool) : Bool :=
  decide (a.at_ + a.hop + (if frozen then 0 else t.bubblesBetween a.skew a.at_ k now) ≤ now)

/-- The landing turn of a core. A bubble cycle lands nothing (R25); otherwise arrivals and results whose time has come land and slot 0 of an
interval enters it (R18, R19). -/
def State.land (s : State) (p c : Nat) : State :=
  match s.owner p with
  | none => s
  | some t =>
    let pg := s.page p
    let w := if pg.frozen then none else t.waveAt pg.rp c s.cycle
    if (match w with
      | some w => w.hold
      | none => false) then s
    else
      let k := pg.core c
      let fl := k.flight.map fun f => { f with left := f.left - 1 }
      let due := fun (a : Arrival) => a.due t (t.skew pg.rp c) s.cycle pg.frozen
      let k1 := (k.arrive.filter due).foldl Core.receive
        { k with flight := fl.filter fun f => decide (f.left ≠ 0), arrive := k.arrive.filter fun a => !due a }
      let s1 := (s.setCore p c k1).landActs t p c ((fl.filter fun f => decide (f.left = 0)).map (·.act))
      match w with
      | some w => if w.slot = 0 then s1.modCore p c fun k => k.enter w else s1
      | none => s1

/-- The focus of an element word turn: none when the core executes no word in this cycle (R16, R144). -/
def State.wordFocus (s : State) (p c side : Nat) : Option Focus :=
  match s.owner p with
  | none => none
  | some t =>
    let pg := s.page p
    if pg.frozen then none
    else
      match t.waveAt pg.rp c s.cycle with
      | none => none
      | some w =>
        if w.hold then none
        else
          match (pg.core c).selectWord (w.slot + side) with
          | none => none
          | some (b, r) => some { s.focus with
              page := p, core := c, slot := w.slot + side, sched := b, live := r.live, tag := r.tag, iv := w.iv
              wimm := w.wimm.getD pg.rp 0 }

/-! Entry gating (R23, R24, R211, R219, R220). -/

/-- Places an iteration needs, keyed by region page × 64 + place: port n at n, the page's feed row 10, the feed row of matrix page c at
20 + c, the reduction queue of core c at 30 + c. -/
abbrev Needs := List (Nat × Nat)

def addNeed (l : Needs) (key n : Nat) : Needs := if n = 0 then l else assocSet l key ((assocGet l key).getD 0 + n)

/-- The needs of one element word (R23, R137, R146, R147, R218, R329): places of its own page, but a feed row is one place for every general page (R211). -/
def wordNeeds (pg : Page) (k : Core) (c : Nat) (sched : Bool) (slot : Nat) (l : Needs) : Needs :=
  let e := (k.ctab.getD ((if sched then 32 else 0) + slot) 0).setWidth 40
  let w := elemFields e
  let op := e.toNat / 2 ^ 33
  let key := fun n => 64 * pg.rp + n
  if op = 0x63 ∨ op = 0x64 then addNeed l (key w.a.toNat) 1
  else if op = 0x65 then
    let x : W32 := if w.b = 56 then pg.wload.getD ((if sched then 32 else 0) + slot) 0
      else if 60 ≤ w.b.toNat then laneOf (k.k.getD (w.b.toNat - 60) 0) 0 else 0
    addNeed l (key w.a.toNat) (skipCount x)
  else if op = 0x67 ∨ op = 0x68 then addNeed l (key (30 + c)) 16
  else if op = 0x72 ∧ c = 0 then addNeed l (key 10) 1
  else if op = 0x73 then
    (if pg.mode then assocSet l (key 7) (if k.opType = 7 then 4 else 2) else addNeed l (key 7) 1)
  else if op = 0x74 then addNeed l (20 + c) 1
  else l

/-- The needs of a region page for an iteration of a schedule. -/
def pageNeeds (pg : Page) (sched : Bool) (l : Needs) : Needs :=
  pg.cores.zipIdx.foldl (fun l (k, c) =>
    (List.range (if pg.mode then 2 else pg.ii)).foldl (fun l slot => wordNeeds pg k c sched slot l) l) l

def State.regionNeeds (s : State) (t : Task) (sched : Bool) : Needs :=
  t.pages.foldl (fun l p => pageNeeds (s.page p) sched l) []

/-- Entries that an output port's windows still take, none when endless (R24). -/
def Port.room (x : Port) : Option Nat :=
  match x.cur with
  | none => some 0
  | some k =>
    let other := x.win !k
    let rest := patEntries x.pat - x.pos
    if !patEm x.pat then none
    else if other.pat ≠ 0 ∧ other.fresh then (if patEm other.pat then some (rest + patEntries other.pat) else none)
    else some rest

/-- What a place of the needs offers now, less reservations (R23), and whether it can never offer n again (R24). An output port counts as past the end of its
last window for entry as soon as the entries that its windows have left, less those reserved, are fewer than an iteration pushes, so that every live push
finds one (R139; log 92). A drain port's reservation can come back unused (log 20): until its columns have drained, the columns behind them are bubbles, and
entry ends on what the windows have left, so that the records do not depend on when that is (R219, R276). -/
def State.offers (s : State) (t : Task) (key n : Nat) : Bool × Bool :=
  match t.phys (key / 64) with
  | none => (false, false)
  | some p =>
    let pg := s.page p
    let place := key % 64
    let segs := (pg.feed.filter fun g => decide (g.from_ ≤ s.cycle)).length
    if place < 8 then
      let x := pg.port place
      if x.out then
        let fits := decide (n + x.resv + x.fifo.length ≤ 64)
        match x.room with
        | none => (fits, false)
        | some r => if pg.mode then (fits && decide (n + x.resv ≤ r), decide (r < n)) else (fits, decide (r < n + x.resv))
      else
        let ready := (x.fifo.filter fun e => decide (e.at_ < s.cycle)).length
        (decide (n + x.resv ≤ ready), x.ended && decide (x.fifo.length < n + x.resv))
    else if place = 10 then
      (decide (n + pg.feedResv ≤ segs),
        decide ((pg.port 0).win0.pat ≠ 0 ∨ (pg.port 0).win1.pat ≠ 0) && (pg.port 0).ended && decide (pg.feed.length < n + pg.feedResv))
    else if place < 30 then
      match s.matrixPage t (place - 20) with
      | none => (false, false)
      | some q => (decide (n + (s.page q).feed.length + (s.page q).feedSpace ≤ 512), false)
    else
      let k := pg.core (place - 30)
      (decide (n + k.redq.length + k.redResv ≤ 64), false)

/-- A live entry reserves its needs on every page (R23, R211). -/
def State.reserve (s : State) (t : Task) (key n : Nat) : State :=
  match t.phys (key / 64) with
  | none => s
  | some p =>
    let place := key % 64
    if place < 8 then s.modPort p place fun x => { x with resv := x.resv + n }
    else if place = 10 then s.modPage p fun pg => { pg with feedResv := pg.feedResv + n }
    else if place < 30 then
      match s.matrixPage t (place - 20) with
      | none => s
      | some q => s.modPage q fun pg => { pg with feedSpace := pg.feedSpace + n }
    else s.modCore p (place - 30) fun k => { k with redResv := k.redResv + n }

/-- Cycle by which every result of the interval whose record is recs.head is readable on a page (R158): last selected word's issue plus its
latency; with no word the cycle after the last wave word at core 0. base is the cycle of the interval's slot 0 at the lead. -/
def Page.endOf (pg : Page) (recs : List HRec) (base delta : Nat) : Nat :=
  let slots := List.range (if pg.mode then 2 else pg.ii)
  let one := fun (k : Core) (c : Nat) (m : Nat) (slot : Nat) =>
    match ({ k with hist := recs ++ List.replicate 32 {} } : Core).select slot with
    | none => m
    | some (b, _) =>
      let op := fld (k.ctab.getD ((if b then 32 else 0) + slot) 0) 39 33
      max m (base + (if pg.mode then 0 else slot) + c + delta + max 1 (latOf op))
  let e := pg.cores.zipIdx.foldl (fun m (k, c) => slots.foldl (one k c) m) 0
  if e = 0 then base + pg.ii + delta else e

/-- The ends of a kernel's pages once its last interval is known (base: its slot 0 at the lead; none: no interval entered); a page whose end
has come ends in this cycle. -/
def State.setEnds (s : State) (t : Task) (k : Kern) (base : Option Nat) : State :=
  let es := t.pages.zipIdx.map fun (p, rp) => match base with
    | none => s.cycle
    | some b => max s.cycle ((s.page p).endOf k.recs b (t.deltaOf rp))
  let s1 := s.modTask t.tid fun t => { t with kern := some { k with ends := es } }
  es.zipIdx.foldl (fun s (e, rp) => if e = s.cycle then s.later (.event (.kernelEnd t.tid rp)) else s) s1

/-- Is some page of a task a matrix page (R384)? -/
def State.matrixRegion (s : State) (t : Task) : Bool := t.pages.any fun p => (s.page p).mode

/-- Why no further live iteration enters (R24, R160, R166, R384): end cause and the ports at fault by page. A cut is asked for by preq on a
yieldable kernel or on a region with matrix pages. -/
def State.stopCause (s : State) (t : Task) (k : Kern) (needs : Needs) : Nat × List (Nat × Byte) :=
  if k.trip ≤ k.entered then (1, [])
  else
    let dry := needs.filter fun (key, n) => (s.offers t key n).2
    if !dry.isEmpty then
      (2, dry.map fun (key, _) => (key / 64, BitVec.ofNat 8 (2 ^ (if key % 64 = 10 then 0 else key % 64))))
    else
      let asked := match t.pages.head? with
        | none => false
        | some p => (s.page p).preq.getLsbD 0
      if asked && (k.yieldable || s.matrixRegion t) then (3, []) else (0, [])

/-- Bits of the ctl field (R15): mstart 0, yield 1, cut 2, freeze 3, spill 4, hold 5. -/
def ctlBit (n : Nat) : BitVec 9 := BitVec.ofNat 9 (2 ^ n)

/-- The II wave words of an interval, after two bubbles when the schedule changes (R14, R25), newest first. cut is the cut bit of a matrix stream that
preq has cut (R384); wimm gives a slot's entry of every region page (R210). -/
def makeWaves (t0 ii : Nat) (live sched first switch : Bool) (iv : Nat) (cut : Bool) (wimm : Nat → List W32) : List Wave :=
  let tag := BitVec.ofNat 16 iv
  let start := if switch then t0 + 2 else t0
  let ctl := if cut then ctlBit 2 else 0
  let body := (List.range ii).map fun s =>
    ({ at_ := start + s, live := live, sched := sched, slot := s, tag := tag, ctl := ctl, wimm := wimm s, iv := iv
       first := first && decide (s = 0) } : Wave)
  let bub := (List.range (if switch then 2 else 0)).map fun i =>
    ({ at_ := t0 + i, live := live, sched := sched, slot := 0, tag := tag, ctl := ctl ||| ctlBit 5, wimm := wimm 0, iv := iv } : Wave)
  (bub ++ body).reverse

/-- The wave immediate entry (sched, slot) of every page of a task, in region order (R14, R210). -/
def State.wimmOf (s : State) (t : Task) (sched : Bool) (slot : Nat) : List W32 :=
  t.pages.map fun p => (s.page p).wimm.getD ((if sched then 32 else 0) + slot) 0

/-- Wave words that a region's wire keeps: enough for the highest skew (7 + 15 × 16 cycles, R208) and what is still on a hop behind it. -/
def waveDepth : Nat := 512

/-- The deciding cycle of the next interval of a kernel (R23 to R25). A cause of R24 or of preq (R160) stands from this cycle on, and its interval,
which is void, is the first of the S − 1 drain intervals (log 84). -/
def State.decideEntry (s : State) (t : Task) (k : Kern) : State :=
  match t.pages.head? with
  | none => s
  | some lead =>
    let pg := s.page lead
    let sched := pg.latch
    let needs := s.regionNeeds t sched
    let (cause, kport) := match k.drain with
      | none => s.stopCause t k needs
      | some _ => (k.cause.toNat, k.kport)
    let left := match k.drain with
      | some n => some n
      | none => if cause = 0 then none else some (pg.stages - 1)
    let k1 := { k with cause := BitVec.ofNat 2 cause, kport := kport,
                       cutTag := if cause = 3 ∧ k.drain = none then some (BitVec.ofNat 16 k.intervals) else k.cutTag }
    match left with
    | some 0 => s.setEnds t { k1 with drain := some 0 } (if k.intervals = 0 then none else some (k.next + 1 - pg.ii))
    | _ =>
      let live := left.isNone && needs.all fun (key, n) => (s.offers t key n).1
      let switch := decide (k.intervals ≠ 0) && decide (sched ≠ k.sched)
      let ws := makeWaves (s.cycle + 1) pg.ii live sched (decide (k.intervals = 0)) switch k.intervals
        (decide (cause = 3) && s.matrixRegion t) (s.wimmOf t sched)
      let next := s.cycle + pg.ii + (if switch then 2 else 0)
      let k2 := { k1 with
        intervals := k.intervals + 1, sched := sched, next := next
        entered := if live then k.entered + 1 else k.entered
        drain := left.map (· - 1)
        recs := ({ live := live, sched := sched, tag := BitVec.ofNat 16 k.intervals } : HRec) :: k.recs.take 31 }
      let s1 := if live then needs.foldl (fun s (key, n) => s.reserve t key n) s else s
      let s2 := s1.modTask t.tid fun t => { t with kern := some k2, waves := ws ++ t.waves.take waveDepth }
      if k2.drain = some 0 then s2.setEnds t k2 (some (next + 1 - pg.ii))
      else if k2.drain = none ∧ pg.stages = 1 ∧ k2.trip ≤ k2.entered then
        s2.setEnds t { k2 with cause := 1, drain := some 0 } (some (next + 1 - pg.ii))
      else s2

/-- INTERVAL_DECIDE (R23). -/
def execVIntervalDecide (s : State) : Res :=
  match s.focus.ev with
  | .intervalDecide tid =>
    match s.task tid with
    | none => .next s
    | some t =>
      match t.kern with
      | none => .next s
      | some k => .next (if k.next = s.cycle ∧ k.ends = [] then s.decideEntry t k else s)
  | _ => .next s

/-- KERNEL_END of a region page (R158, R160, R209): xd receives the live count, seqst the end cause, and KRUN completes; a kernel that preq cut
leaves the program counter on the KRUN word. After the last page the kernel is gone and its reservations with it. Wave words on their way to cores of
higher skew go on, each at its own cycle (R17, R210). -/
def execVKernelEnd (s : State) : Res :=
  match s.focus.ev with
  | .kernelEnd tid rp =>
    match s.task tid with
    | none => .next s
    | some t =>
      match t.kern, t.phys rp with
      | some k, some p =>
        if k.ends.getD rp 0 = 0 ∨ s.cycle < k.ends.getD rp 0 then .next s
        else
          let xd : BitVec 5 := (s.page p).word.extractLsb' 51 5
          let total := k.base + k.entered
          let bits : Byte := k.kport.foldl (fun b (q, m) => if q = rp then b ||| m else b) 0
          let s1 := s.modPage p fun pg =>
            let pg1 := { pg with kend := k.cause, kport := if k.cause = 2 then bits else 0 }
            if k.cause = 3 then { pg1 with phase := .ready, yielded := pg.preq.getLsbD 0 }
            else { (pg1.setX xd total).complete with phase := .after }
          let es := k.ends.set rp 0
          if es.all (· = 0) then
            let s2 := t.pages.foldl (fun s q => s.modPage q fun pg =>
              { pg with feedResv := 0, feedSpace := 0, ports := pg.ports.map fun x => { x with resv := 0 }
                        cores := pg.cores.map fun c => { c with redResv := 0 } }) s1
            let s3 := s2.modTask tid fun t => { t with kern := if k.cause = 3 then some { k with ends := es } else none }
            .next (if s.matrixRegion t then
              { s3 with tum := { s3.tum with
                  usage := t.images.foldl (fun us i => addUsage us t.part t.tenant i 0 k.entered.toNat) s3.tum.usage } }
              else s3)
          else .next (s1.modTask tid fun t => { t with kern := some { k with ends := es } })
      | _, _ => .next s
  | _ => .next s

/-- Does a condition reach the latch in a cycle: 1 + c + δ(p) cycles after its issue, and later by the bubbles of the lead that its core had yet to
meet, since each core's return path holds in its own bubble cycles (R215)? -/
def Task.steerDue (t : Task) (x : Steer) (now : Nat) : Bool :=
  decide (x.at_ + 1 + x.skew + t.bubblesBetween x.skew x.at_ 0 now ≤ now)

/-- STEER_ARRIVAL: the condition that is due overwrites the lead's next-schedule latch and leaves the return path (R25, R215). -/
def execVSteerArrival (s : State) : Res :=
  match s.focus.ev with
  | .steerArrival tid cond =>
    match s.task tid with
    | none => .next s
    | some t =>
      match t.pages.head? with
      | none => .next s
      | some p =>
        .next ((s.modPage p fun pg => { pg with latch := decide (cond ≠ 0) }).modTask tid fun t =>
          { t with steers := t.steers.filter fun x => !(t.steerDue x s.cycle && decide (x.cond = decide (cond ≠ 0))) })
  | _ => .next s

/-- DRAIN_RECORD_WRITE: a column's record goes to the window of sp7 as whole entries in the cycle after core 7's SDRN (R220). A column that every
core discarded leaves no record. -/
def execVDrainRecordWrite (s : State) : Res :=
  match s.focus.ev with
  | .drainRecordWrite p =>
    match s.owner p with
    | none => .next s
    | some t =>
      let pg := s.page p
      match pg.drains.find? fun d => match d.ready with
        | some c => decide (c < s.cycle)
        | none => false with
      | none => .next s
      | some d =>
        let n := if (pg.core 0).opType = 7 then 4 else 2
        let s1 := s.modPage p fun pg => { pg with drains := pg.drains.filter fun x => decide (x ≠ d) }
        if d.mask = 0 then .next (s1.modPort p 7 fun x => { x with resv := x.resv - n })
        else
          let s2 := (List.range n).foldl (fun s i =>
            s.portPush p 7 (d.data.extractLsb' (512 * i) 512) (d.mask.extractLsb' (64 * i) 64) false) s1
          let s3 := s2.modPort p 7 fun x => { x with fifo := x.fifo.map fun e => { e with at_ := min e.at_ (s.cycle - 1) } }
          .next ((List.range n).foldl (fun s _ => s.portWriteOne t p 7) s3)
  | _ => .next s

/-- WEIGHT_PORT_BEAT: one beat into the bank that the core in turn does not use (R222). Each beat of operand-class memory counts for its image
(R456). -/
def execVWeightPortBeat (s : State) : Res :=
  match s.focus.ev with
  | .weightPortBeat p =>
    let pg := s.page p
    match (pg.port 1).fifo with
    | [] => .next s
    | e :: r =>
      if s.cycle ≤ e.at_ ∨ pg.frozen then .next s
      else
        let c := pg.wfill / 8
        let k := pg.core c
        if !k.ready then .next s
        else
          let n := (if k.wsel then 0 else 8) + pg.wfill % 8
          let k1 := { k with w := k.w.set n { val := e.data, key := e.skip }, ready := decide (pg.wfill % 8 ≠ 7), got := k.got ++ [(e.pat, e.idx)] }
          let s1 := s.modPage p fun pg =>
            ({ pg with wfill := (pg.wfill + 1) % 64 }.setCore c k1).setPort 1 { pg.port 1 with fifo := r }
          .next (match e.mark, s.owner p with
            | some v, some t => s1.taskSignal t (32 * pg.rp + 2) v 1
            | _, _ => s1)
  | _ => .next s

end Sys2Proof.Machine
end

