-- ==== Sys2Proof/Machine/SeqScalar.lean ====
section
/-! DEFINITION. Sequencer words 0x00 to 0x10: scalars, XLD and XST (06 R151, R154, R155, 14 R331). -/
namespace Sys2Proof.Machine

/-- Changes the page in focus. -/
def State.onPage (s : State) (f : Page → Page) : State := s.modPage s.focus.page f

/-- The page in focus. -/
def State.fpage (s : State) : Page := s.page s.focus.page

/-- Operand b: imm sign-extended when i = 1, else xb (R75, R154). -/
def State.seqB (s : State) (w : SWord) : W64 := if w.mod.getLsbD 0 then sext w.imm else s.fpage.xr w.xb

/-- Operand a. -/
def State.seqA (s : State) (w : SWord) : W64 := s.fpage.xr w.xa

/-- A word of n cycles: it completes with f in its last one (R151). -/
def State.holdFor (s : State) (n : Nat) (f : Page → Page) : State :=
  match s.fpage.phase with
  | .until c => if c ≤ s.cycle then s.onPage fun pg => (f pg).complete else s
  | _ => if n ≤ 1 then s.onPage fun pg => (f pg).complete else s.onPage fun pg => { pg with phase := .until (s.cycle + n - 1) }

/-- A scalar result into xd (R154). -/
def State.scalar (s : State) (w : SWord) (cycles : Nat) (v : W64) : State := s.holdFor cycles fun pg => pg.setX w.xd v

/-- The word holds until its data or acknowledgement returns after a latency (R155, R331): DATA_RETURN then writes xd. -/
def State.await (s : State) (lat : Nat) (xd : Option (BitVec 5 × W64)) : State :=
  s.onPage fun pg => { pg with phase := .mem (s.cycle + max 1 lat) xd, since := s.cycle }

/-- The word holds for a latency and then acts (R152): DATA_RETURN. -/
def State.landAfter (s : State) (lat : Nat) (act : SeqLand) : State :=
  s.onPage fun pg => { pg with phase := .land (s.cycle + max 1 lat) act, since := s.cycle }

/-- XLI (R154). -/
def execSXli (w : SWord) (s : State) : Res := .next (s.scalar w 1 (s.seqB w))

/-- XLIH: imm above the low half of xa (R154). -/
def execSXlih (w : SWord) (s : State) : Res := .next (s.scalar w 1 (w.imm ++ (s.seqA w).setWidth 32))

/-- XADD (R154). -/
def execSXadd (w : SWord) (s : State) : Res := .next (s.scalar w 1 (s.seqA w + s.seqB w))

/-- XSUB (R154). -/
def execSXsub (w : SWord) (s : State) : Res := .next (s.scalar w 1 (s.seqA w - s.seqB w))

/-- XMUL: low 64 bits, three cycles (R154). -/
def execSXmul (w : SWord) (s : State) : Res := .next (s.scalar w 3 (s.seqA w * s.seqB w))

/-- XAND (R154). -/
def execSXand (w : SWord) (s : State) : Res := .next (s.scalar w 1 (s.seqA w &&& s.seqB w))

/-- XIOR (R154). -/
def execSXior (w : SWord) (s : State) : Res := .next (s.scalar w 1 (s.seqA w ||| s.seqB w))

/-- XXOR (R154). -/
def execSXxor (w : SWord) (s : State) : Res := .next (s.scalar w 1 (s.seqA w ^^^ s.seqB w))

/-- XSHL by bits(b, 5, 0) (R154). -/
def execSXshl (w : SWord) (s : State) : Res := .next (s.scalar w 1 (s.seqA w <<< ((s.seqB w).toNat % 64)))

/-- XSHR (R154). -/
def execSXshr (w : SWord) (s : State) : Res := .next (s.scalar w 1 (s.seqA w >>> ((s.seqB w).toNat % 64)))

/-- XSRA (R154). -/
def execSXsra (w : SWord) (s : State) : Res := .next (s.scalar w 1 ((s.seqA w).sshiftRight ((s.seqB w).toNat % 64)))

/-- Is a below b, by ux when u = 1 and by sx otherwise (R154)? -/
def seqLess (w : SWord) (a b : W64) : Bool := if w.mod.getLsbD 3 then decide (a.toNat < b.toNat) else decide (a.toInt < b.toInt)

/-- XMIN (R154). -/
def execSXmin (w : SWord) (s : State) : Res :=
  .next (s.scalar w 1 (if seqLess w (s.seqB w) (s.seqA w) then s.seqB w else s.seqA w))

/-- XMAX (R154). -/
def execSXmax (w : SWord) (s : State) : Res :=
  .next (s.scalar w 1 (if seqLess w (s.seqA w) (s.seqB w) then s.seqB w else s.seqA w))

/-- XSLT (R154). -/
def execSXslt (w : SWord) (s : State) : Res := .next (s.scalar w 1 (if seqLess w (s.seqA w) (s.seqB w) then 1 else 0))

/-- XSEL: xa if xc ≠ 0 else xb, xc named by imm[4:0] (R154). -/
def execSXsel (w : SWord) (s : State) : Res :=
  .next (s.scalar w 1 (if s.fpage.xr (w.imm.setWidth 5) ≠ 0 then s.seqA w else s.fpage.xr w.xb))

/-- Access width in bytes of XLD, XST and the immediate atomics (R155, R330). -/
def accessBytes (w : SWord) : Nat := 2 ^ (w.mod.extractLsb' 1 2).toNat

/-- The trap of a refused access of the sequencer, with its address (R304, R373). -/
def State.denied (s : State) (w : Who) (e : Deny) (va : W64) : State :=
  s.seqTrap s.focus.page e.cls e.code (some (s.resolve w.home va))

/-- XLD: W bits at xa + b through core 0's L1, sign- or zero-extended (R155, R331). -/
def execSXld (w : SWord) (s : State) : Res :=
  match s.owner s.focus.page, s.fpage.phase with
  | some t, .ready =>
    let p := s.focus.page
    let rp := s.fpage.vrp
    let va := s.seqA w + s.seqB w
    let n := accessBytes w
    let who := s.who t p
    match s.elemAccess t who .read false va n n none (some { cls := 3, code := 5 }) false (some (p, 0)) with
    | .error e => .next (s.denied who e va)
    | .ok ps =>
      let (s1, lat) := s.touchL1 t p 0 va ps
      let (bs, s2) := s1.readPlaces t (t.windex rp 0) rp seqReader ps
      let x := leNat bs
      let v : W64 := if w.mod.getLsbD 3 then BitVec.ofNat 64 x else BitVec.ofInt 64 (sx (8 * n) x)
      .next (s2.await (max 3 lat) (some (w.xd, v)))
  | _, _ => .next s

/-- What a page's sequencer owns of a scratchpad place: any core of its page (R280, R331). -/
def State.seqOwn (s : State) (p : Nat) (l : Loc) : Nat × Nat :=
  ((s.page p).vrp, match l with
    | .sp _ c _ => c
    | _ => 0)

/-- Version sectors of a write of the page sequencer (R314). -/
def State.seqSectors (s : State) (t : Task) (p : Nat) (ps : List (Loc × Nat × Option PotE)) : List (Nat × Nat) :=
  ps.flatMap fun x => sectorsOf t (s.seqOwn p x.1) [x]

/-- A plain write of writer slot 0 lands: an own write in a scratchpad of its page, a remote write in another, a version write in translated
memory (R331). -/
def State.seqWrite (s : State) (t : Task) (p : Nat) : List (Loc × Nat) → List Byte → State
  | [], _ => s
  | (l, n) :: r, bs =>
    ((s.markL1 t p 0 [(l, n, none)]).writePlaces t (t.windex (s.page p).vrp 0) (s.ordNow 3) 3 (s.seqOwn p l) (fun _ => true) [(l, n, none)] 0
      (bs.take n)).seqWrite t p r (bs.drop n)

/-- trap(memory, version_overflow) of the sequencer (R315, R317). -/
def State.overflowed (s : State) (t : Task) (who : Who) (va : W64) : State :=
  (s.countVofl t.part).denied who dVersion va

/-- XST: the low W bits of the register named by the xd field land when the write is accepted (R152, R155, R186, R331). -/
def execSXst (w : SWord) (s : State) : Res :=
  match s.owner s.focus.page, s.fpage.phase with
  | some t, .ready =>
    let p := s.focus.page
    let va := s.seqA w + s.seqB w
    let n := accessBytes w
    let who := s.who t p
    match s.elemAccess t who .write true va n n none (some { cls := 3, code := 4 }) with
    | .error e => .next (s.denied who e va)
    | .ok ps =>
      match s.takeSectors t (s.seqSectors t p ps) with
      | none => .next (s.overflowed t who va)
      | some s1 =>
        let (s2, wait) := s1.noteWalks who va n
        .next (s2.landAfter (wait + max 3 (s.acceptLat t p 0 va ps))
          (.write (ps.map fun x => (x.1, x.2.1)) (leBytes n ((s.fpage.xr w.xd).toNat % 2 ^ (8 * n)))))
  | _, _ => .next s

end Sys2Proof.Machine
end

