-- ==== Sys2Proof/Machine/SeqControl.lean ====
section
/-! DEFINITION. Sequencer words 0x20 to 0x33: repeats, kernels, yield, halt, trap, waits, boundaries and events (06 R156 to R169, 08 R209),
and EVENT_GRANT. -/
namespace Sys2Proof.Machine

/-- The word completes in this cycle. -/
def State.done (s : State) (f : Page → Page) : State := s.onPage fun pg => (f pg).complete

/-- REP (R156): a count of 0 skips the body and steps the enclosing bodies that end with it. -/
def execSRep (w : SWord) (s : State) : Res :=
  let n := if w.mod.getLsbD 0 then fld w.imm 31 10 else fld (s.seqA w) 31 0
  let len := fld w.imm 9 0
  .next (s.onPage fun pg =>
    let pc := pg.pc.toNat
    if n = 0 then
      let (rep, next) := stepRep pg.rep (pc + len)
      { pg with rep := rep, pc := BitVec.ofNat 11 next, phase := .ready }
    else { pg with rep := { first := pc + 1, last := pc + len, left := n } :: pg.rep, pc := BitVec.ofNat 11 (pc + 1), phase := .ready })

/-! Meeting points of a region (R168, R209). -/

/-- What a page stands at: 1 KRUN, 2 LSYNC, 3 SSEND, 4 halted, 0 none of them. -/
def Page.atSync (pg : Page) : Nat :=
  if pg.halted.isSome then 4
  else match pg.phase with
    | .kern => 1
    | .join => 1
    | .arrived => if pg.word.toNat / 2 ^ 56 = 0x31 then 2 else 3
    | _ => 0

/-- Do two pages of a region stand at words that do not meet (R168, R209)? -/
def clash (rp k rq m : Nat) : Bool :=
  decide ((k = 2 ∧ m = 3) ∨ (k = 3 ∧ m = 2) ∨ ((rp = 0 ∨ rq = 0) ∧ ((k = 1 ∧ 2 ≤ m) ∨ (m = 1 ∧ 2 ≤ k))))

/-- Is a kernel of the task running? One cut by preq is not: it waits to be issued again (R160). -/
def Task.kernelRuns (t : Task) : Bool :=
  match t.kern with
  | none => false
  | some k => !(decide (k.cause = 3 ∧ k.ends ≠ []) && k.ends.all (· = 0))

/-- Is a region page inside the task's kernel: its own last interval has not ended (R209)? -/
def Task.inKernel (t : Task) (rp : Nat) : Bool :=
  match t.kern with
  | none => false
  | some k => t.kernelRuns && (k.ends.isEmpty || decide (k.ends.getD rp 0 ≠ 0))

/-- What a page of a task stands at, as Page.atSync, but for a page inside the kernel, whose KRUN no longer waits (R209). -/
def State.atSync (s : State) (t : Task) (q : Nat) : Nat :=
  let k := (s.page q).atSync
  if k = 1 ∧ t.inKernel (s.page q).rp = true then 0 else k

/-- The page in focus reaches a meeting word: trap(program, sync_mismatch) when another page stands at one that does not meet it; the record
names the second page, and the lower of two in one cycle (R168, R209). -/
def State.reach (s : State) (t : Task) (kind : Nat) : Option State :=
  let rp := s.fpage.rp
  match t.pages.find? fun q => decide (q ≠ s.focus.page) && clash rp kind (s.page q).rp (s.atSync t q) with
  | none => none
  | some q =>
    let named := if (s.page q).since = s.cycle ∧ (s.page q).rp < rp then q else s.focus.page
    some (s.seqTrap named 1 11)

/-! Kernels (R158 to R160, R209). -/

/-- Ports that a page's element words use, with the direction asked for: 0 in, 1 out, 2 either (R159). -/
def Page.portUses (pg : Page) : List (Nat × Nat) :=
  let one := fun (e : BitVec 45) =>
    let op := fld e 39 33
    let a := fld e 26 21
    if op = 0x63 then [(a, 0)] else if op = 0x64 then [(a, 1)] else if op = 0x65 then [(a, 2)] else if op = 0x73 then [(7, 1)] else []
  (pg.cores.flatMap fun k => k.ctab.flatMap one)
    ++ (if pg.mode ∧ ((pg.port 0).win0.pat ≠ 0 ∨ (pg.port 0).win1.pat ≠ 0) then [(0, 0)] else [])

/-- Is some port of the page disabled or turned against its words (R159)? -/
def Page.portOff (pg : Page) : Bool :=
  pg.portUses.any fun (n, d) => let x := pg.port n; !x.en || (decide (d = 0) && x.out) || (decide (d = 1) && !x.out)

/-- The lead's hold ends when no macro runs on the region and every follower holds at KRUN: the ports are checked and interval 0 is decided; a
trip count of 0 completes at once (R158, R159, R209). Wave words of the kernel before that the lead has sent travel on (R210); those it has not sent,
which stand behind the last word of the last interval, give way to the new kernel's. -/
def State.tryStart (s : State) (tid : Nat) : State :=
  match s.task tid with
  | none => s
  | some t =>
    if t.kernelRuns || !(t.pages.all fun p => decide ((s.page p).atSync = 1) && (s.page p).idle) then s
    else
      match t.pages.head? with
      | none => s
      | some lead =>
        let pg := s.page lead
        let w := seqFields pg.word
        let base : W64 := match t.kern with
          | none => 0
          | some k => k.base + k.entered
        let count : W64 := if w.mod.getLsbD 0 then w.imm.setWidth 64 else (pg.xr w.xa).setWidth 32 |>.setWidth 64
        if t.pages.any fun p => (s.page p).portOff then s.seqTrap lead 1 21
        else if count ≤ base then
          let s1 := t.pages.foldl (fun s p => s.modPage p fun pg =>
            let pg1 := pg.setX ((seqFields pg.word).xd) base
            { pg1.complete with
              kend := 1, kport := 0, phase := .after, cores := pg1.cores.map fun k => { k with kprog := 0 } }) s
          s1.modTask tid fun t => { t with kern := none, waves := t.waves.map fun w => { w with counts := false } }
        else
          let s1 := s.modPage lead fun pg => { pg with latch := w.mod.getLsbD 1 }
          let k : Kern := { t0 := s.cycle + 1, trip := count - base, base := base, yieldable := w.mod.getLsbD 2, next := s.cycle }
          let t1 := { t with kern := some k, waves := t.waves.filter fun w => decide (w.at_ ≤ s.cycle) }
          (s1.setTask t1).decideEntry t1 k

/-- KRUN: the lead starts the region's kernel, a follower joins it (R158, R209). -/
def execSKrun (_w : SWord) (s : State) : Res :=
  match s.owner s.focus.page with
  | none => .next s
  | some t =>
    match s.fpage.phase with
    | .kern => .next (s.tryStart t.tid)
    | .join => .next (s.tryStart t.tid)
    | _ =>
      match s.reach t 1 with
      | some s1 => .next s1
      | none =>
        .next ((s.onPage fun pg => { pg with phase := if pg.rp = 0 then .kern else .join, since := s.cycle }).tryStart t.tid)

/-- The wave immediate entry that KSW names: on a folded page, whose program is that of virtual page 2j, virtual slot s stands in physical slot 2s,
and a slot of 16 or above in none (R161, R229). -/
def Page.kswEntry (pg : Page) (n : Nat) : Nat :=
  if (pg.core 0).fold then (if n % 32 < 16 then n / 32 * 32 + 2 * (n % 32) else 64) else n

/-- KSW: wave immediate entry (sched, slot) for the next KRUN (R161). -/
def execSKsw (w : SWord) (s : State) : Res :=
  .next (s.done fun pg => { pg with wimm := pg.wimm.set (pg.kswEntry (fld w.imm 5 0)) ((s.seqA w).setWidth 32) })

/-- YIELD completes; with preq.req = 1 the sequencer sends its cores a wave word with the yield bit and the page yields after it (R15, R162,
R380). -/
def execSYield (_w : SWord) (s : State) : Res :=
  .next (s.done fun pg => if pg.preq.getLsbD 0 then { pg with yielded := true, wave := ctlWave 1 } else pg)

/-- HALT ends the page's program once no macro runs; the code of region page 0 is the task's exit code (R163). -/
def execSHalt (w : SWord) (s : State) : Res :=
  match s.owner s.focus.page with
  | none => .next s
  | some t =>
    if !s.fpage.idle then .next s
    else
      match s.reach t 4 with
      | some s1 => .next s1
      | none =>
        let s1 := s.onPage fun pg => { pg with halted := some w.imm, phase := .parked, since := s.cycle }
        .next (if s.fpage.rp = 0 then s1.modTask t.tid fun t => { t with exit := some w.imm } else s1)

/-- TRAP raises trap(program, user) with its code (R164). -/
def execSTrap (w : SWord) (s : State) : Res :=
  .next (s.seqTrap s.focus.page 1 1 none ((w.imm.setWidth 16).setWidth 128))

/-- NOPQ holds for max(1, n) cycles (R165). -/
def execSNopq (w : SWord) (s : State) : Res := .next (s.holdFor (fld w.imm 15 0) id)

/-- Arrival at a boundary: the page holds until the boundary completes (R167, R168). -/
def State.arrive (s : State) (t : Task) (kind : Nat) : State :=
  match s.reach t kind with
  | some s1 => s1
  | none => s.onPage fun pg => { pg with phase := .arrived, since := s.cycle }

/-- SSEND bgN (R167): a member arrives at its group's boundary once no macro runs. -/
def execSSsend (w : SWord) (s : State) : Res :=
  match s.owner s.focus.page, s.fpage.phase with
  | some t, .ready =>
    if t.rcd.bg.getLsbD 7 = false ∨ fld t.rcd.bg 5 0 ≠ fld w.imm 5 0 then .next (s.seqTrap s.focus.page 1 10)
    else if !s.fpage.idle then .next s
    else .next (s.arrive t 3)
  | _, _ => .next s

/-- LSYNC (R168, R190, R310): once no macro runs on its page's cores the page arrives; the last page of the region to arrive starts the 24 cycles of
the local boundary. -/
def execSLsync (_w : SWord) (s : State) : Res :=
  match s.owner s.focus.page, s.fpage.phase with
  | some t, .ready =>
    if !s.fpage.idle then .next s
    else
    let s1 := s.arrive t 2
    if t.pages.all fun p => decide ((s1.page p).atSync = 2) then
      .next (s1.modTask t.tid fun t => { t with localDue := some (s.cycle + 24) })
    else .next s1
  | _, _ => .next s

/-- SIGE evN, inc (R169). -/
def execSSige (w : SWord) (s : State) : Res :=
  match s.owner s.focus.page with
  | none => .next s
  | some t =>
    let n := fld w.imm 7 0
    if !t.rcd.grants n then .next (s.seqTrap s.focus.page 3 8)
    else .next ((s.taskSignal t (32 * s.fpage.rp) n (fld w.imm 31 16)).done id)

/-- WAITE evN, n: the request joins the event's queue and the word holds until its grant; n = 0 is granted at once; a dual-run pair queues one
request for both copies (R169, R247). -/
def execSWaite (w : SWord) (s : State) : Res :=
  match s.owner s.focus.page, s.fpage.phase with
  | some t, .ready =>
    let n := fld w.imm 7 0
    let need := if w.mod.getLsbD 0 then fld w.imm 31 16 else fld (s.seqA w) 31 0
    if !t.rcd.grants n then .next (s.seqTrap s.focus.page 3 8)
    else if need = 0 then .next ((s.modTask t.tid fun t => { t with nonIdem := true }).done id)
    else
      let rp := s.fpage.rp
      let s1 := s.onPage fun pg => { pg with phase := .queued, since := s.cycle }
      let (go, s2) := s1.dualIssue t (32 * rp) [1, n, need]
      .next (if go then s2.queueWait t.part n (.page (if t.copyB then t.dual.getD t.tid else t.tid) rp) need else s2)
  | some _, .granted => .next (s.done id)
  | _, _ => .next s

/-- The wait of a page is granted: WAITE completes, in the saved state when the task is saved, and the superstep is no longer idempotent
(R152, R319). On a page that a trap or a pre-emption has frozen no word completes (R372): the grant is held there, and WAITE completes when the page
goes on. -/
def State.grantPage (s : State) (tid rp : Nat) : State :=
  match s.task tid with
  | none => s
  | some t =>
    let s1 := s.modTask tid fun t => { t with nonIdem := true }
    match t.phys rp with
    | none => s1.modTask tid fun t => { t with save := modAt t.save rp fun pg => if pg.phase = .queued then pg.complete else pg }
    | some p => s1.modPage p fun pg =>
      if pg.phase ≠ .queued then pg else if pg.frozen then { pg with phase := .granted } else { pg.complete with phase := .after }

/-- EVENT_GRANT: the head of the queue is granted when the count allows (R169); a grant goes to both copies of a dual-run pair (R247). -/
def execVEventGrant (s : State) : Res :=
  match s.focus.ev with
  | .eventGrant part n =>
    let e := (s.part part).event n
    match e.queue with
    | [] => .next s
    | (w, need) :: r =>
      if e.count.toNat < need then .next s
      else
        let s1 := s.modEvent part n fun e => { e with count := e.count - BitVec.ofNat 32 need, queue := r }
        match w with
        | .page tid rp =>
          let s2 := s1.grantPage tid rp
          (match s.task tid with
          | none => .next s2
          | some t =>
            match t.dual with
            | none => .next s2
            | some u => .next (s2.grantPage u rp))
        | .graph d k =>
          let gen := (s1.inst d k).gen
          let mark := fun (x : Nat × Task) =>
            if x.2.inst.die = d ∧ x.2.inst.slot = k ∧ x.2.inst.gen = gen then (x.1, { x.2 with nonIdem := true }) else x
          let s2 : State := { s1 with tasks := s1.tasks.map mark }
          .next (s2.modInst d k fun g => if g.phase = .queued then { g with phase := .ready, pc := g.pc + 1 } else g)
  | _ => .next s

end Sys2Proof.Machine
end

