-- ==== Sys2Proof/Machine/SeqSetup.lean ====
section
/-! DEFINITION. Sequencer words 0x60 to 0x65, 0x90 and 0x91: shapes, ports, windows, core scalars and special registers (06 R171 to R175). -/
namespace Sys2Proof.Machine

/-- Element width in bits of a shape: 4, 8, 16 or 32 (R31). -/
def shapeEw (m : W32) : Nat := 4 * 2 ^ fld m 1 0
def shapeRows (m : W32) : Nat := fld m 7 2 + 1
def shapeCols (m : W32) : Nat := fld m 20 8 + 1

/-- Is a shape illegal (R31)? -/
def shapeBad (m : W32) : Bool :=
  decide (32768 < shapeRows m * shapeCols m * shapeEw m ∨ shapeCols m * shapeEw m % 32 ≠ 0 ∨ fld m 31 21 ≠ 0)

/-- MSHP mN, v: all eight cores, once no macro runs (R171). -/
def execSMshp (w : SWord) (s : State) : Res :=
  let v : W32 := if w.mod.getLsbD 0 then w.imm else (s.seqA w).setWidth 32
  if !s.fpage.idle then .next s
  else if shapeBad v then .next (s.seqTrap s.focus.page 1 5)
  else .next (s.done fun pg => { pg with cores := pg.cores.map fun k => { k with mshape := k.mshape.set (fld w.mod 3 1) v } })

/-- MSHR xd, mN (R171). -/
def execSMshr (w : SWord) (s : State) : Res :=
  .next (s.done fun pg => pg.setX w.xd (((pg.core 0).mshape.getD (fld w.mod 3 1) 0).setWidth 64))

/-- SPSET spN, dir: holds until an output port has written every pushed entry (R172). -/
def execSSpset (w : SWord) (s : State) : Res :=
  let n := fld w.imm 2 0
  let x := s.fpage.port n
  if x.out && !x.fifo.isEmpty then .next s
  else .next ((s.portSet s.focus.page n (w.imm.getLsbD 4) (w.imm.getLsbD 3)).done id)

/-- WIN spN, winK, xa, off: reads a pattern record and installs it as a window at the end of its hold (R152, R172, R368, R369). -/
def execSWin (w : SWord) (s : State) : Res :=
  match s.owner s.focus.page, s.fpage.phase with
  | some t, .ready =>
    let p := s.focus.page
    let va := s.seqA w + sext w.imm
    let who := s.who t p
    let rp := s.fpage.vrp
    match s.elemAccess t who .read false va 64 64 none (some { cls := 3, code := 5 }) false (some (p, 0)) with
    | .error e => .next (s.denied who e va)
    | .ok ps =>
      let (s1, lat) := s.touchL1 t p 0 va ps
      let (bs, s2) := s1.readPlaces t (t.windex rp 0) rp seqReader ps
      let pat := recOf bs
      let n := fld w.mod 2 0
      let k := w.mod.getLsbD 3
      let x := s.fpage.port n
      if patBad pat false then .next (s2.seqTrap p 1 13)
      else if x.en && decide (x.cur = some k) && !x.ended then .next (s2.seqTrap p 1 12)
      else .next (s2.landAfter (max 3 lat) (.install n k pat))
  | _, _ => .next s

/-- CSET c, sN, xa: all 64 bits, marked valid, of one core or of all (R171). -/
def execSCset (w : SWord) (s : State) : Res :=
  let v := s.seqA w
  .next (s.done fun pg =>
    { pg with cores := pg.cores.zipIdx.map fun (k, c) =>
        if w.mod.getLsbD 6 ∨ c = fld w.mod 5 3 then { k with s := k.s.set (fld w.mod 2 0) { val := v, valid := true } } else k })

/-- CGET xd, c, sN: all 64 bits, whatever the validity (R171). -/
def execSCget (w : SWord) (s : State) : Res :=
  .next (s.done fun pg => pg.setX w.xd (((pg.core (fld w.mod 5 3)).s.getD (fld w.mod 2 0) {}).val))

/-- A repeat stack entry as rptN shows it, rpt0 the outermost (R175). -/
def Page.rpt (pg : Page) (n : Nat) : W64 :=
  match pg.rep.reverse[n]? with
  | none => 0
  | some e => BitVec.ofNat 64 (e.first % 1024 + (e.last % 1024) * 2 ^ 10 + e.left * 2 ^ 32)

/-- A special register (R173). -/
def Page.special (pg : Page) (n : Nat) : W64 :=
  if n = 0 then pg.tid.setWidth 64
  else if n = 1 then pg.tco
  else if n = 2 then pg.preq
  else if n = 3 then pg.pdl.setWidth 64
  else if n = 4 then pg.sstep
  else if n = 5 then pg.seqst
  else pg.rpt (n - 6)

/-- RDSR xd, sr (R173). -/
def execSRdsr (w : SWord) (s : State) : Res := .next (s.done fun pg => pg.setX w.xd (pg.special (fld w.imm 4 0)))

/-- WRSR seqst, xa: only the user field changes (R166, R173). -/
def execSWrsr (w : SWord) (s : State) : Res :=
  .next (s.done fun pg => { pg with user := (pg.xr w.xa).extractLsb' 32 16 })

end Sys2Proof.Machine
end

