-- ==== Sys2Proof/Machine/SeqMem.lean ====
section
/-! DEFINITION. The sequencer's memory class, 0x80 to 0x8B, and the reduction queue (14 R329 to R341, 13 R320 to R323). -/
namespace Sys2Proof.Machine

/-! Immediate atomics (R332, R333). -/

/-- The checks of an atomic (R333): alignment, scratchpad space, then R304 for a read and for a write. -/
def State.atomicAccess (s : State) (t : Task) (who : Who) (va : W64) (n : Nat) : Except Deny (List (Loc × Nat × Option PotE)) :=
  if va.toNat % n ≠ 0 then .error dMisaligned
  else
    match spaceOf va with
    | .scratch _ _ _ => .error { cls := 2, code := 11 }
    | _ =>
      match s.elemPlaces t who .read false va n n none none with
      | .error e => .error e
      | .ok rs =>
        match s.elemPlaces t who .write true va n n none none with
        | .error e => .error e
        | .ok ps => if s.touchesBad t rs none then .error dIntegrity else .ok ps

/-- The snapshots that a change at one location needs; none when it may go on, else the state with the traps of the readers, while it is held (R315). -/
def State.changeHeld (s : State) (part : Nat) (l : Loc) (bs : List Byte) : Option State :=
  match l with
  | .hbm d pa =>
    let (s1, held) := s.needSnapshots part d (s.altered d (bs.zipIdx.map fun (b, i) => (pa + i, b))) []
    if held then some s1 else none
  | _ => none

/-- The result of the last effect of a unit of a copy, once it is known (R247). -/
def Task.dualRes (t : Task) (src : Nat) : Option W64 :=
  match t.dualOp src (t.dualCount src - 1) with
  | none => none
  | some o => o.res

/-- The result of the k-th effect of a unit of a copy. -/
def setDualRes (os : List DualOp) (src : Nat) (v : W64) : Nat → List DualOp
  | k => match os with
    | [] => []
    | o :: r =>
      if o.src = src then (match k with
        | 0 => { o with res := some v } :: r
        | k + 1 => o :: setDualRes r src v k)
      else o :: setDualRes r src v k

/-- An immediate atomic at its home L2: one indivisible step on committed bits; a dual-run pair executes it once, when both copies have issued it
(R332, R247). -/
def State.atomicOp (s : State) (w : SWord) (f : Nat → Nat) : State :=
  match s.owner s.focus.page with
  | none => s
  | some t =>
    let p := s.focus.page
    let src := 32 * s.fpage.rp
    let va := s.seqA w + sext w.imm
    let n := accessBytes w
    let who := s.who t p
    let held := fun (ps : List (Loc × Nat × Option PotE)) => ps.head?.bind fun x =>
      s.changeHeld t.part x.1 (leBytes n (f (leNat (s.committedLoc x.1 n)) % 2 ^ (8 * n)))
    let run := fun (s : State) (ps : List (Loc × Nat × Option PotE)) =>
      match ps.head? with
      | none => ((0 : W64), 0, s)
      | some (l, _, _) =>
        let old := leNat (s.committedLoc l n)
        let (s1, lat) := s.touchL2 who va ps
        let s2 := s1.commitLoc t.part l (leBytes n (f old % 2 ^ (8 * n)))
        (BitVec.ofNat 64 old, lat, s2.modTask t.tid fun t => { t with nonIdem := true })
    match s.fpage.phase with
    | .ready =>
      (match s.atomicAccess t who va n with
      | .error e => s.denied who e va
      | .ok ps =>
        match t.dual, held ps with
        | _, some s1 => s1
        | none, none =>
          let (v, lat, s1) := run s ps
          s1.await lat (some (w.xd, v))
        | some u, none =>
          let key := [2, va.toNat, w.mod.toNat, (s.fpage.xr w.xb).toNat, (s.fpage.xr w.xd).toNat, s.fpage.word.toNat / 2 ^ 56]
          let k := t.dualCount src
          let (go, s1) := s.dualIssue t src key
          if go then
            let (v, lat, s2) := run s1 ps
            let put := fun (t : Task) => { t with nonIdem := true, dualOps := setDualRes t.dualOps src v k }
            ((s2.modTask t.tid put).modTask u put).await lat (some (w.xd, v))
          else s1.onPage fun pg => { pg with phase := .granted, since := s.cycle })
    | .granted =>
      (match t.dualRes src with
      | none => s
      | some v => s.await Config.latL2Far (some (w.xd, v)))
    | _ => s

/-- XAADD (R332). -/
def execSXaadd (w : SWord) (s : State) : Res := .next (s.atomicOp w fun old => old + (s.fpage.xr w.xb).toNat)

/-- XACAS: the new value is the low W bits of xd (R332). -/
def execSXacas (w : SWord) (s : State) : Res :=
  let m := 2 ^ (8 * accessBytes w)
  .next (s.atomicOp w fun old => if old = (s.fpage.xr w.xb).toNat % m then (s.fpage.xr w.xd).toNat else old)

/-- XASWP (R332). -/
def execSXaswp (w : SWord) (s : State) : Res := .next (s.atomicOp w fun _ => (s.fpage.xr w.xb).toNat)

/-! Cells (R334, R335). -/

/-- CELLINIT: n consecutive cells, all checked before any is written; plain writes of writer slot 0 (R334). -/
def execSCellinit (w : SWord) (s : State) : Res :=
  match s.owner s.focus.page, s.fpage.phase with
  | some t, .ready =>
    let p := s.focus.page
    let a := s.seqA w
    let n := fld w.mod 8 0 + 1
    let who := s.who t p
    let addr := fun i => a + BitVec.ofNat 64 (16 * i)
    let bad := (List.range n).findSome? fun i =>
      match s.elemAccess t who .write true (addr i) 16 16 none (some { cls := 3, code := 4 }) with
      | .error e => some (e, addr i)
      | .ok _ => none
    match bad with
    | some (e, va) => .next (s.denied who e va)
    | none =>
      let places := (List.range n).flatMap fun i => match s.taskPlaces t who .write true (addr i) 16 with
        | .ok ps => ps
        | .error _ => []
      match s.takeSectors t (s.seqSectors t p places) with
      | none => .next (s.overflowed t who a)
      | some s1 =>
        let bytes := leBytes 16 (cellNew (w.imm.setWidth 13)).toNat
        let (s2, wait) := s1.noteWalks who a (16 * n)
        .next (s2.landAfter (wait + max (s.acceptLat t p 0 a places) Config.latL2Near + (n + 7) / 8)
          (.write (places.map fun x => (x.1, x.2.1)) ((List.range n).flatMap fun _ => bytes)))
  | _, _ => .next s

/-- I saturated to the signed 64-bit range (R335). -/
def sat64 (x : Int) : W64 := BitVec.ofInt 64 (satInt 64 x).1

/-- XCELL: a cell read with the checks and visibility of XLD (R335). -/
def execSXcell (w : SWord) (s : State) : Res :=
  match s.owner s.focus.page, s.fpage.phase with
  | some t, .ready =>
    let p := s.focus.page
    let rp := s.fpage.vrp
    let va := s.seqA w
    let who := s.who t p
    match s.elemAccess t who .read false va 16 16 none (some { cls := 3, code := 5 }) false (some (p, 0)) with
    | .error e => .next (s.denied who e va)
    | .ok ps =>
      let (s1, lat) := s.touchL1 t p 0 va ps
      let (bs, s2) := s1.readPlaces t (t.windex rp 0) rp seqReader ps
      let c : BitVec 128 := BitVec.ofNat 128 (leNat bs)
      let mode := fld w.imm 1 0
      let v : W64 := if mode = 0 then cellRead c else if mode = 1 then sat64 (cellI c) else BitVec.ofInt 64 (cellE c)
      .next (s2.await (max 3 lat) (some (w.xd, v)))
  | _, _ => .next s

/-! CFILL (R336, R323). -/

/-- The n lines of a CFILL as core c reads them, or the first refusal. -/
def State.cfillRead (s : State) (t : Task) (p c : Nat) (a : W64) : Nat → Nat → Except (Deny × W64) (List Byte × Nat × State)
  | _, 0 => .ok ([], 0, s)
  | i, n + 1 =>
    let va := a + BitVec.ofNat 64 (64 * i)
    let rp := (s.page p).vrp
    match s.elemAccess t (s.who t p) .read false va 64 64 none (some { cls := 3, code := 5 }) true (some (p, c)) with
    | .error e => .error (e, va)
    | .ok ps =>
      let (s1, lat) := s.touchL1 t p c va ps
      let (bs, s2) := s1.readPlaces t (t.windex rp c) rp c ps
      match s2.cfillRead t p c a (i + 1) n with
      | .error e => .error e
      | .ok (cs, l, s3) => .ok (bs ++ cs, max lat l, s3)

/-- CFILL c, xa, line, n (R336). -/
def execSCfill (w : SWord) (s : State) : Res :=
  match s.owner s.focus.page, s.fpage.phase with
  | some t, .ready =>
    let p := s.focus.page
    let line := fld w.imm 6 0
    let n := fld w.imm 13 7 + 1
    let all := w.imm.getLsbD 17
    let cores := if all then List.range 8 else [fld w.imm 16 14]
    if cores.any fun c => (s.fpage.core c).busy then .next s
    else
      let r : Except (Deny × W64) (Nat × List (Nat × List Byte) × State) := cores.foldlM (fun (acc : Nat × List (Nat × List Byte) × State) c =>
        match acc.2.2.cfillRead t p c (s.seqA w) 0 n with
        | .error e => .error e
        | .ok (bs, lat, s1) =>
          .ok (max acc.1 lat, acc.2.1 ++ [(c, bs)], s1)) (0, [], s)
      match r with
      | .error (e, va) => .next (s.denied (s.who t p) e va)
      | .ok (lat, data, s1) => .next (s1.landAfter (lat + (if all then 8 * n else n)) (.fill line data))
  | _, _ => .next s

/-! Seals (R337, R322). -/

/-- The 64 KiB pages of a range of whole pages. -/
def rangePages (a size : W64) : List W64 := (List.range (size.toNat / 65536)).map fun i => a + BitVec.ofNat 64 (65536 * i)

/-- The checks of SEAL and UNSEAL on their range: granules, lease, partition, and for SEAL the class (R337). -/
def State.sealCheck (s : State) (t : Task) (who : Who) (a size : W64) (on : Bool) : Option Deny :=
  if a.toNat % 65536 ≠ 0 ∨ size.toNat % 65536 ≠ 0 ∨ size = 0 then some { cls := 1, code := 14 }
  else if spaceOf a ≠ .translated ∨ !s.inLease who.home t.rcd.lbase t.rcd.lsize a size.toNat then some dLease
  else (rangePages a size).findSome? fun v =>
    match s.place who .any false v with
    | .error e => some e
    | .ok (.peer _ _) => none
    | .ok (.hbm _ _ e) => if on && !(decide (e.cls = 0) || (decide (e.cls = 1) && s.bound e.sess who.ctag)) then some dClass else none

/-- Seal ranges held by a partition and those requested by its tasks: request kind, base, size. -/
def State.sealRequests (s : State) (part : Nat) : List (Bool × W64 × W64) :=
  (s.tasks.map (·.2)).flatMap fun t => if t.part = part then t.seals.map fun (k, _, b, z) => (k, b, z) else []

/-- The cases of R337: overlap with another range, a full table, no such range. -/
def State.sealCase (s : State) (part : Nat) (a size : W64) (on : Bool) : Option Deny :=
  let held := (s.part part).seals
  let req := ((s.sealRequests part).filter (·.1)).map (·.2)
  let all := (held ++ req).eraseDups
  if on then
    if all.any fun (b, z) => decide ((b, z) ≠ (a, size) ∧ b.toNat < a.toNat + size.toNat ∧ a.toNat < b.toNat + z.toNat) then
      some { cls := 1, code := 15 }
    else if !held.contains (a, size) && decide (64 ≤ all.length) then some { cls := 1, code := 16 }
    else none
  else if all.contains (a, size) then none else some { cls := 1, code := 17 }

def State.sealOp (s : State) (w : SWord) (on : Bool) : State :=
  match s.owner s.focus.page with
  | none => s
  | some t =>
    let who := s.who t s.focus.page
    let va := s.seqA w
    let size := s.fpage.xr w.xb
    match s.sealCheck t who va size on with
    | some e => if e.cls = 1 then s.seqTrap s.focus.page 1 14 else s.denied who e va
    | none =>
      let a := s.resolve who.home va
      match s.sealCase t.part a size on with
      | some e => s.seqTrap s.focus.page e.cls e.code
      | none =>
        let s1 := if on && (s.part t.part).seals.contains (a, size) then s
          else s.modTask t.tid fun t => { t with seals := t.seals ++ [(on, t.windex s.fpage.vrp 0, a, size)] }
        s1.done id

/-- SEAL xa, xb (R337): the request takes effect at the next group boundary. -/
def execSSeal (w : SWord) (s : State) : Res := .next (s.sealOp w true)

/-- UNSEAL xa, xb (R337). -/
def execSUnseal (w : SWord) (s : State) : Res := .next (s.sealOp w false)

/-! Retention and evict-first (R338 to R340, R346). -/

/-- The physical interval of a range: die and base when every page maps one after the other on one die of this device (R338). -/
def State.interval (s : State) (who : Who) (a : W64) (n : Nat) : Except Deny (Nat × Nat) :=
  let starts := (pieces (n / 65536 + 2) a n).map (·.1)
  let places := starts.map fun v => match s.place who .any false v with
    | .ok (.hbm d pa _) => Except.ok (some (d, pa))
    | .ok (.peer _ _) => .ok none
    | .error e => .error e
  match firstDeny places with
  | some e => .error e
  | none =>
    match places with
    | .ok (some (d, pa)) :: _ =>
      let ok := (places.zip starts).all fun (x, v) => match x with
        | .ok (some (d', pa')) => decide (d = d' ∧ pa' = pa + (v - a).toNat)
        | _ => false
      if ok then .ok (d, pa) else .error { cls := 2, code := 12 }
    | _ => .error { cls := 2, code := 12 }

/-- A claim of RETAIN (ef 0) or EVHINT (ef 1) (R338). -/
def State.claimOp (s : State) (w : SWord) (ways : Nat) (ef : Bool) : State :=
  match s.owner s.focus.page, s.fpage.phase with
  | some t, .ready =>
    let who := s.who t s.focus.page
    let va := s.seqA w
    let size := s.fpage.xr w.xb
    if va.toNat % 512 ≠ 0 ∨ size.toNat % 512 ≠ 0 ∨ size = 0 then s.seqTrap s.focus.page 1 14
    else if spaceOf va ≠ .translated ∨ !s.inLease who.home t.rcd.lbase t.rcd.lsize va size.toNat then s.denied who dLease va
    else
      match s.interval who va size.toNat with
      | .error e => s.denied who e va
      | .ok (d, pa) =>
        let x := s.die d
        let free := (List.range 8).find? fun i => x.slices.all fun sl =>
          !retOn (sl.retain.getD i 0) && !retEf (sl.retain.getD i 0)
        match free with
        | none => s.await 23 (some (w.xd, BitVec.ofNat 64 (2 ^ 63 + 1)))
        | some i =>
          if x.slices.any fun sl => decide (12 < sl.total i + ways) then s.await 23 (some (w.xd, BitVec.ofNat 64 (2 ^ 63 + 2)))
          else
            let r : BitVec 192 := BitVec.ofNat 192
              (pa + size.toNat * 2 ^ 64 + ways * 2 ^ 128 + ef.toNat * 2 ^ 132 + t.part * 2 ^ 133)
            let put := fun (sl : Slice) => let sl' := sl.setRetain i r; { sl' with rcnt := sl'.rcnt.set i 0 }
            let s1 := s.modDie d fun x => { x with slices := x.slices.map put }
            (s1.modTask t.tid fun t => { t with claims := t.claims ++ [(d, i)] }).await 23 (some (w.xd, BitVec.ofNat 64 i))
  | _, _ => s

/-- RETAIN xd, xa, xb, ways (R338). -/
def execSRetain (w : SWord) (s : State) : Res := .next (s.claimOp w (fld w.imm 3 0) false)

/-- EVHINT xd, xa, xb (R338). -/
def execSEvhint (w : SWord) (s : State) : Res := .next (s.claimOp w 0 true)

/-- A register released in every slice of a die: size, ef and ways 0 (R339). -/
def State.release (s : State) (d i : Nat) : State :=
  let free := fun (sl : Slice) => sl.setRetain i (setFld (setFld (sl.retain.getD i 0) 127 64 0) 132 128 0)
  s.modDie d fun x => { x with slices := x.slices.map free }

/-- UNPIN xa: releases the register when its hold of 24 cycles is over (R339, R346). A task's claims of one index lie on at most one die per
claim; the claim made last is released. -/
def execSUnpin (w : SWord) (s : State) : Res :=
  match s.owner s.focus.page with
  | none => .next s
  | some t =>
    let x := s.seqA w
    let i := x.toNat % 8
    if 8 ≤ x.toNat then .next (s.seqTrap s.focus.page 1 18)
    else
      match t.claims.reverse.find? fun c => decide (c.2 = i) with
      | none => .next (s.seqTrap s.focus.page 3 11)
      | some (d, _) =>
        match s.fpage.phase with
        | .until c =>
          if s.cycle < c then .next s
          else .next (((s.release d i).modTask t.tid fun t => { t with claims := t.claims.erase (d, i) }).done id)
        | _ => .next (s.onPage fun pg => { pg with phase := .until (s.cycle + 23) })

/-! FENCE (R341). -/

/-- FENCE mask: bit 0 no macro runs; bit 1 holds at once, since those words hold until accepted; bit 2 the reduction queues are empty (R341). -/
def execSFence (w : SWord) (s : State) : Res :=
  let pg := s.fpage
  let ok := (!w.imm.getLsbD 0 || pg.idle) && (!w.imm.getLsbD 2 || pg.cores.all fun k => k.redq.isEmpty)
  .next (if ok then s.done id else s)

/-! The reduction queue (R329). -/

/-- REDUCTION_SEND: one entry goes to its home slice, where it takes part of a version sector; its target was checked when it was queued (R314, R328, R329). -/
def execVReductionSend (s : State) : Res :=
  match s.focus.ev with
  | .reductionSend p c =>
    match s.owner p, (s.core p c).redq with
    | some t, e :: r =>
      let n := if e.cell then 16 else 4
      let who := s.who t p
      let unit : Cause := { cls := 2, code := 6, unit := 1 + c, core := c, flags := 12, addr := s.resolve who.home e.va }
      let s1 := s.modCore p c fun k => { k with redq := r }
      (match s1.takeSectors t (sectorsOf t ownNone [(e.loc, n, none)]) with
      | some s2 =>
        .next ((s2.noteWalks who e.va n).1.modTask t.tid fun t =>
          { t with reds := t.reds ++ [{ loc := e.loc, cell := e.cell, ty := e.ty, addends := e.addends }] })
      | none => .next (if t.trapping then s else (s.countVofl t.part).raiseOn p unit))
    | _, _ => .next s
  | _ => .next s

end Sys2Proof.Machine
end

