-- ==== Sys2Proof/Machine/Macro.lean ====
section
/-! DEFINITION. Tile macros, 0x40 to 0x4F: shapes and checks, issue, elements and progress (07 R176 to R206, 01 R31, R33), and
MACRO_ELEMENT. -/
namespace Sys2Proof.Machine

/-! Fields of a macro word (R176). -/

def mcMd (w : SWord) : Nat := fld w.mod 8 6
def mcMa (w : SWord) : Nat := fld w.mod 5 3
def mcMb (w : SWord) : Nat := fld w.mod 2 0
def mcTy (w : SWord) : Nat := fld w.imm 2 0
def mcSat (w : SWord) : Bool := w.imm.getLsbD 3
def mcSig (w : SWord) : Bool := w.imm.getLsbD 12
def mcEvent (w : SWord) : Nat := fld w.imm 20 13
def mcMx (w : SWord) : Nat := fld w.imm 31 21

/-! Tile registers (R31, R179). -/

/-- Bits of a register from a place on. -/
def tileBits (x : BitVec 32768) (lo n : Nat) : Nat := (x.toNat >>> lo) % 2 ^ n

def setTileBits (x : BitVec 32768) (lo n v : Nat) : BitVec 32768 := setFld x (lo + n - 1) lo v

def Core.tile (k : Core) (m : Nat) : BitVec 32768 := k.m.getD m 0
def Core.shape (k : Core) (m : Nat) : W32 := k.mshape.getD m 0

/-- Element (row, col) of a tile (R31). -/
def Core.code (k : Core) (m row col : Nat) : Nat :=
  let sh := k.shape m
  tileBits (k.tile m) ((row * shapeCols sh + col) * shapeEw sh) (shapeEw sh)

/-- Row of a tile as element codes. -/
def Core.rowCodes (k : Core) (m row : Nat) : List Nat := (List.range (shapeCols (k.shape m))).map (k.code m row)

/-- Codes joined from the lowest bits up, w bits each. -/
def joinCodes (w : Nat) (cs : List Nat) : Nat := cs.foldr (fun c acc => c % 2 ^ w + 2 ^ w * acc) 0

/-- A row of a tile written whole (R187). -/
def Core.setRow (k : Core) (m row : Nat) (cs : List Nat) : Core :=
  let sh := k.shape m
  let n := shapeCols sh * shapeEw sh
  { k with m := k.m.set m (setTileBits (k.tile m) (row * n) n (joinCodes (shapeEw sh) cs)) }

/-- Byte i of the side register of an fp4 tile (R179). -/
def Core.sideByte (k : Core) (m i : Nat) : Nat := tileBits (k.tile (m + 4)) (8 * i) 8

def Core.setSide (k : Core) (m i v : Nat) : Core := { k with m := k.m.set (m + 4) (setTileBits (k.tile (m + 4)) (8 * i) 8 v) }

/-- Exact values of a row; fp4 elements with the scales of the side register (R42, R179). -/
def Core.rowVals (k : Core) (f4 : Bool) (ty m row : Nat) : List Val :=
  let cs := k.rowCodes m row
  if ty = 7 then
    let nb := cs.length / 32
    cs.zipIdx.map fun (c, j) =>
      let b := row * nb + j / 32
      fp4Val f4 (k.sideByte m (2 * b)) (k.sideByte m (2 * b + 1)) c
  else cs.map (elemVal ty)

/-! Shapes, aliases and element counts (R180, R191 to R205). -/

/-- Shape of a tile as (ew, rows, cols). -/
def Core.dims (k : Core) (m : Nat) : Nat × Nat × Nat :=
  let sh := k.shape m
  (shapeEw sh, shapeRows sh, shapeCols sh)

/-- Number of elements of a macro (R191). -/
def Core.macroCount (k : Core) (op : Nat) (w : SWord) : Nat :=
  let mx := mcMx w
  if op = 0x42 then mx % 64 + 1
  else if op = 0x43 then mx / 16 % 16 + 1
  else if op = 0x41 ∨ op = 0x47 then (k.dims (mcMa w)).2.1
  else (k.dims (mcMd w)).2.1

/-- Does a shape relation of R180 and the macro's entry fail? -/
def Core.badShape (k : Core) (op : Nat) (w : SWord) : Bool :=
  let ty := mcTy w
  let mx := mcMx w
  let wt := tyWidth ty
  let (de, dr, dc) := k.dims (mcMd w)
  let (ae, ar, ac) := k.dims (mcMa w)
  let (be, br, bc) := k.dims (mcMb w)
  if op = 0x40 then decide (de ≠ wt ∨ (ty = 7 ∧ dc % 256 ≠ 0))
  else if op = 0x41 then decide (ae ≠ wt ∨ (ty = 7 ∧ ac % 256 ≠ 0))
  else if op = 0x46 then decide (de ≠ wt ∨ (ty = 7 ∧ dc % 256 ≠ 0) ∨ ae ≠ 32 ∨ ar * ac < dr)
  else if op = 0x47 then decide (ae ≠ wt ∨ (ty = 7 ∧ ac % 256 ≠ 0) ∨ be ≠ 32 ∨ br * bc < ar)
  else if op = 0x42 ∨ op = 0x43 then false
  else if op = 0x44 ∨ op = 0x45 then
    decide (ae ≠ wt ∨ be ≠ wt ∨ de ≠ 32 ∨ ac ≠ bc ∨ dr ≠ ar ∨ dc ≠ br ∨ (ty = 7 ∧ ac % 32 ≠ 0))
  else if op = 0x48 then decide (ae ≠ wt ∨ de ≠ wt ∨ dr ≠ ac ∨ dc ≠ ar)
  else if op = 0x49 then decide (ae ≠ tyWidth (mx % 8) ∨ de ≠ wt ∨ dr ≠ ar ∨ dc ≠ ac ∨ (mx % 8 = 7 ∧ ac % 32 ≠ 0))
  else if op = 0x4A then decide (ae ≠ tyWidth (mx % 8) ∨ de ≠ 4 ∨ dr ≠ ar ∨ dc ≠ ac ∨ dc % 32 ≠ 0)
  else if op = 0x4B then decide (ae ≠ 32 ∨ de ≠ 32 ∨ dr ≠ ar ∨ dc ≠ 1)
  else if op = 0x4C then
    decide (ae ≠ wt ∨ be ≠ wt ∨ de ≠ wt ∨ dr ≠ ar ∨ dc ≠ ac ∨ bc ≠ dc ∨ br ≠ (if mx / 8 % 2 = 1 then 1 else dr))
  else if op = 0x4D then decide (de ≠ wt ∨ (ty = 7 ∧ dc % 32 ≠ 0))
  else if op = 0x4E then decide (ae ≠ wt ∨ de ≠ wt ∨ dr ≠ ar ∨ dc ≠ ac)
  else decide (ae ≠ wt ∨ de ≠ wt ∨ dr ≠ ar ∨ dc ≠ ac ∨ (mx % 2 = 1 ∧ (be ≠ wt ∨ br ≠ 1 ∨ bc ≠ dc)))

/-- Does a destination name a source or its side register where the macro is not in place (R179, R180, R191)? -/
def badAlias (op : Nat) (w : SWord) : Bool :=
  let fp4 := decide (mcTy w = 7)
  let md := mcMd w
  let ma := mcMa w
  let mb := mcMb w
  let side := fun m => if fp4 then [m, m + 4] else [m]
  let dst := if op = 0x4A then [md, md + 4] else if op = 0x46 then side md else [md]
  let src :=
    if op = 0x44 then side ma ++ side mb
    else if op = 0x45 then [ma, mb]
    else if op = 0x46 ∨ op = 0x48 ∨ op = 0x4A ∨ op = 0x4B then [ma]
    else if op = 0x4C ∧ mcMx w / 8 % 2 = 1 then [mb]
    else []
  dst.any src.contains

/-- Memory row bytes of a tile row (R192): carried-scale groups for fp4 (R44). -/
def rowBytes (ty cols : Nat) : Nat := if ty = 7 then 144 * cols / 256 else cols * tyWidth ty / 8

/-- c0 and k of the timing table (R206). -/
def Core.macroTime (k : Core) (op : Nat) (w : SWord) : Nat × Nat :=
  let ty := mcTy w
  let (de, _, dc) := k.dims (mcMd w)
  let (ae, _, ac) := k.dims (mcMa w)
  let up := fun n d => (n + d - 1) / d
  let pt := up (max (de * dc) (if op = 0x4D then 0 else ae * ac)) 512
  if op = 0x40 ∨ op = 0x46 then (0, up (rowBytes ty dc) 64)
  else if op = 0x41 ∨ op = 0x47 then (0, up (rowBytes ty ac) 64)
  else if op = 0x42 ∨ op = 0x43 then (0, 1)
  else if op = 0x44 ∨ op = 0x45 then (4, up (dc * ac) (if ty ≤ 3 then 16 else if ty ≤ 6 then 32 else 64))
  else if op = 0x4A then (0, up ac 16 + 2)
  else if op = 0x4B then (0, 3 * up ac 16 + 8)
  else if op = 0x4E then (0, 6 * up ac 16 + 30)
  else if op = 0x4F then (0, 5 * up ac 16 + 24)
  else (0, pt)

/-! Issue (R182, R33). -/

/-- The trap of a copy in the issue cycle, if any: shape, alias, neighbour, weight bank, event grant, progress (R180, R194, R195, R189,
R33). -/
def State.macroRefuse (s : State) (t : Task) (p c : Nat) (m : MacroRec) : Option (Nat × Nat) :=
  let k := s.core p c
  let op := m.word.toNat / 2 ^ 56
  let w := seqFields m.word
  let mx := mcMx w
  let n := k.macroCount op w
  let far := if mx / 512 % 2 = 1 then 2 else 1
  let f := mx % 16
  let bank := k.wsel.toNat
  if k.badShape op w then some (1, 5)
  else if badAlias op w then some (1, 6)
  else if op = 0x42 ∧ mx / 1024 = 0 ∧ (s.facing t p c far false).isNone then some (1, 7)
  else if op = 0x43 ∧ (List.range n).any (fun i => decide ((f + i) / 8 = bank)) = true then some (1, 8)
  else if mcSig w && !t.rcd.grants (mcEvent w) then some (3, 8)
  else if k.elem ≠ 0 ∧ ¬(fld k.mprog 39 32 = op ∧ k.elem < n) then some (1, 4)
  else none

/-- A copy starts in this cycle: mop and busy are set, cfr.rm and cfr.f4 sampled (R33, R182, R184). keep is its resume record (R386). -/
def Core.startMacro (k : Core) (m keep : MacroRec) (now : Nat) : Core :=
  let op := m.word.toNat / 2 ^ 56
  let w := seqFields m.word
  let (c0, dt) := k.macroTime op w
  { k with
    mprog := BitVec.ofNat 64 (k.elem + op * 2 ^ 32 + 2 ^ 40)
    mres := some keep
    mrun := some { m := m, count := k.macroCount op w, rm := BitVec.ofNat 2 k.rm, f4 := k.f4, due := now + c0 + dt } }

/-- A wave word that the sequencer sends outside a kernel reaches a core: with mstart = 1 the copy on it starts (R15, R33, R182). -/
def Core.onWave (k : Core) (wave : W64) (m keep : MacroRec) (now : Nat) : Core :=
  if wave.getLsbD 32 then k.startMacro m keep now else k

/-- The cores of the word's mask. -/
def maskCores (m : MacroRec) : List Nat := (List.range 8).filter fun c => (seqFields m.word).imm.getLsbD (4 + c)

/-- A macro goes to cores of a page in one cycle, on a wave word with mstart = 1: when a copy traps, the lowest is recorded and none starts (R15,
R33, R180, R182, R183). -/
def State.macroStart (s : State) (t : Task) (p : Nat) (cores : List Nat) (m keep : MacroRec) : State × Bool :=
  match cores.findSome? fun c => (s.macroRefuse t p c m).map fun x => (c, x) with
  | some (c, cls, code) =>
    (s.raiseOn p { cls := cls, code := code, unit := 1 + c, core := c, flags := 1, word := m.word, prog := (s.core p c).mprog }, false)
  | none =>
    let s1 := s.modPage p fun pg => { pg with wave := pg.wave ||| ctlWave 0 }
    (cores.foldl (fun s c => s.modCore p c fun k => k.onWave (s1.page p).wave m keep s.cycle) s1, true)

/-- A translated address as a record keeps it, its die field resolved (R150, R386, R387). -/
def State.keepAddr (s : State) (home : Nat) (va : W64) : W64 := if spaceOf va = .translated then s.resolve home va else va

/-- A kept address as it is used again: without a domain no number may stand in a die field (R392), so the home die's goes back to 0xFFFF, which
names the same die. -/
def State.reuseAddr (s : State) (home : Nat) (va : W64) : W64 :=
  if s.devNum = 0x3FFF ∧ va.toNat / 2 ^ 48 = s.dieField home then BitVec.ofNat 64 (0xFFFF * 2 ^ 48 + va.toNat % 2 ^ 48) else va
/-- Issue of a tile macro word: it holds while a masked core runs a macro, and completes in its issue cycle (R182). -/
def State.macroWord (s : State) (w : SWord) : State :=
  match s.owner s.focus.page with
  | none => s
  | some t =>
    let p := s.focus.page
    let pg := s.fpage
    let word := pg.word
    let op := word.toNat / 2 ^ 56
    let addr := op ≠ 0x4D ∧ op ≠ 0x4E ∧ op ≠ 0x4F
    let a := s.seqA w
    let m : MacroRec := { word := word, xa := a, xb := pg.xr w.xb, xd := pg.xr w.xd }
    let keep : MacroRec := { m with xa := if addr then s.keepAddr (s.who t p).home a else a }
    let cores := maskCores m
    if cores.any fun c => (pg.core c).busy then s
    else
      let (s1, ok) := s.macroStart t p cores m keep
      if ok then s1.done id else s1

/-- A stopped copy is issued again from its resume record (R386); with a trap of the issue cycle the task stops again. -/
def State.reissueMacros (s : State) (t : Task) (p : Nat) : State :=
  (List.range 8).foldl (fun s c =>
    match (s.core p c).mres, (s.core p c).mrun with
    | some m, none =>
      let op := m.word.toNat / 2 ^ 56
      let addr := op ≠ 0x4D ∧ op ≠ 0x4E ∧ op ≠ 0x4F
      (s.macroStart t p [c] { m with xa := if addr then s.reuseAddr (s.who t p).home m.xa else m.xa } m).1
    | _, _ => s) s

/-! Rows in memory (R178, R192, R193). -/

/-- Address of row e of a copy on core c; TGATH and TSCAT take the row number from the index tile (R178, R192). -/
def Core.rowAddr (k : Core) (m : MacroRec) (c e : Nat) : W64 :=
  let op := m.word.toNat / 2 ^ 56
  let w := seqFields m.word
  let base := m.xa + BitVec.ofInt 64 ((c : Int) * sx 32 (fld m.xb 63 32))
  let pitch : Int := (fld m.xb 31 0 : Nat)
  let index := fun (r : Nat) =>
    let cols := (k.dims r).2.2
    sx 32 (k.code r (e / cols) (e % cols))
  let x : Int := if op = 0x46 then index (mcMa w) else if op = 0x47 then index (mcMb w) else e
  base + BitVec.ofInt 64 (x * pitch)

/-- The format range of a die that holds a physical address: the lowest-numbered enabled one (R291). -/
def Die.fmtAt (x : Die) (pa : Nat) : Option (BitVec 256) :=
  x.fmtrange.find? fun r => decide (fld r 193 192 = 1 ∨ fld r 193 192 = 2) && inRange r pa

/-- The side bytes of the eight blocks of a 128-byte group in translated memory: where they start in the scale region, how many, and whether each block has
an X byte beside its scale, under bx4 (R43, R291). -/
structure Side where
  die : Nat
  pa : Nat
  bx : Bool
  deriving DecidableEq, Repr

def Side.len (x : Side) : Nat := if x.bx then 16 else 8

/-- The side bytes of the group at a physical address; none outside every format range (R292). -/
def State.sideOf (s : State) (d pa : Nat) : Option Side :=
  (s.die d).fmtAt pa |>.map fun r =>
    let bx := decide (fld r 193 192 = 2)
    { die := d, pa := fld r 191 128 + (pa - fld r 63 0) / 16 * (if bx then 2 else 1), bx := bx }

/-- Scale place and, under bx4, X place of each block of a group. -/
def Side.blocks (x : Side) : List (Loc × Option Loc) :=
  (List.range 8).map fun i =>
    if x.bx then (.hbm x.die (x.pa + 2 * i), some (.hbm x.die (x.pa + 2 * i + 1))) else (.hbm x.die (x.pa + i), none)

/-- The sides of the 128-byte groups of the places of an fp4 row; none outside every format range (R292). -/
def State.groupSides (s : State) (ps : List (Loc × Nat × Option PotE)) : Option (List Side) :=
  ps.foldlM (fun acc (l, n, _) =>
    match l with
    | .hbm d pa => (List.range (n / 128)).foldlM (fun acc i => (s.sideOf d (pa + 128 * i)).map fun x => acc ++ [x]) acc
    | _ => none) []

/-- The second accesses of an fp4 row: its scale lines with their pages (R292). -/
def State.sideReqs (s : State) (xs : List Side) : List (Loc × Nat × Option PotE) :=
  xs.map fun x => (.hbm x.die x.pa, x.len, s.potAt x.die x.pa)

/-- The refusal of a scale line, checked as its row is: partition, class, seal (R292, R300, R301, R322). -/
def State.sideDeny (s : State) (t : Task) (write : Bool) (x : Side) : Option Deny :=
  match s.potAt x.die x.pa with
  | none => some dPot
  | some e =>
    if e.owner ≠ t.part then some dPot
    else if !s.admits (if write then .write else .read) e t.ctag then
      some (if !write && decide (e.cls = 3) then { cls := 3, code := 5 } else dClass)
    else if write && s.sealedLine t x.die (x.pa / 128) then some dSealed
    else none

/-- The first in the order of R304 of the refusals of an element's two accesses. -/
def earlier : Option Deny → Option Deny → Option Deny
  | none, b => b
  | some a, none => some a
  | some a, some b => if b.rank < a.rank then some b else some a

/-- The checks of a row (R193, R292, R304): its places, and for an fp4 row in translated memory its sides; format and then integrity come last. -/
def State.rowAccess (s : State) (t : Task) (p c : Nat) (write : Bool) (ty : Nat) (va : W64) (n : Nat) :
    Except Deny (List (Loc × Nat × Option PotE) × List Side) :=
  let far := decide (ty = 7 ∧ spaceOf va = .translated)
  let m := if far then n / 144 * 128 else n
  let kind := if write then Access.write else Access.read
  let keyed : Deny := { cls := 3, code := if write then 4 else 5 }
  let row := s.elemPlaces t (s.who t p) kind write va m (if far then 128 else 4) none (some keyed) (!write)
  let sides : Option (List Side) := if !far then some []
    else match s.taskPlaces t (s.who t p) .any false va m with
      | .ok ps => s.groupSides ps
      | .error _ => some []
  let bad : Option Deny := match row with
    | .error e => some e
    | .ok _ => none
  match earlier bad ((sides.getD []).findSome? (s.sideDeny t write)), row, sides with
  | some e, _, _ => .error e
  | none, .ok _, none => .error dNoFormat
  | none, .ok ps, some xs =>
    if !write && s.touchesBad t (ps ++ s.sideReqs xs) (some (p, c)) then .error dIntegrity else .ok (ps, xs)
  | none, .error e, _ => .error e

/-- Codes, scales and X bytes of an fp4 row into a tile and its side register (R44, R179, R192). -/
def Core.loadFp4 (k : Core) (m row : Nat) (codes scales xs : List Byte) : Core :=
  let nb := (k.dims m).2.2 / 32
  let k1 := k.setRow m row ((codes.map fun b => [b.toNat % 16, b.toNat / 16]).flatten)
  let k2 := scales.zipIdx.foldl (fun k (b, i) => k.setSide m (2 * (row * nb + i)) b.toNat) k1
  xs.zipIdx.foldl (fun k (b, i) => k.setSide m (2 * (row * nb + i) + 1) b.toNat) k2

/-- Splits carried-scale groups into codes, scales and X bytes (R44). -/
def splitGroups : Nat → List Byte → List Byte × List Byte × List Byte
  | 0, _ => ([], [], [])
  | n + 1, bs =>
    let (c, s, x) := splitGroups n (bs.drop 144)
    (bs.take 128 ++ c, (bs.drop 128).take 8 ++ s, (bs.drop 136).take 8 ++ x)

/-- Bytes of a tile row, codes only. -/
def Core.rowBytesOf (k : Core) (m row : Nat) : List Byte :=
  let sh := k.shape m
  let n := shapeCols sh * shapeEw sh / 8
  leBytes n (tileBits (k.tile m) (row * n * 8) (n * 8))

/-- A memory row into row e of md: TLD and TGATH (R192). -/
def State.rowLoad (s : State) (t : Task) (p c : Nat) (r : MacroRun) (e : Nat) (va : W64) : Except Deny State :=
  let w := seqFields r.m.word
  let ty := mcTy w
  let md := mcMd w
  let k := s.core p c
  let rp := (s.page p).vrp
  let cols := (k.dims md).2.2
  match s.rowAccess t p c false ty va (rowBytes ty cols) with
  | .error d => .error d
  | .ok (ps, sides) =>
    let (bs, s1) := s.readPlaces t (t.windex rp c) rp c ps
    if ty ≠ 7 then .ok (s1.modCore p c fun k => k.setRow md e (elemCodes (shapeEw (k.shape md)) cols bs))
    else if sides.isEmpty then
      let (codes, scales, xs) := splitGroups (cols / 256) bs
      .ok (s1.modCore p c fun k => k.loadFp4 md e codes scales (if r.f4 then xs else xs.map fun _ => 0))
    else
      let get := fun (l : Loc) => s1.verByte t (t.windex rp c) l
      .ok (s1.modCore p c fun k => k.loadFp4 md e bs ((sides.flatMap Side.blocks).map fun x => get x.1)
        ((sides.flatMap Side.blocks).map fun x => match x.2 with
          | some l => get l
          | none => 0))
where
  /-- Codes of w bits cut from bytes. -/
  elemCodes (w n : Nat) (bs : List Byte) : List Nat :=
    let x := leNat bs
    (List.range n).map fun j => (x >>> (w * j)) % 2 ^ w

/-- Carried-scale groups of row e of an fp4 tile (R44, R192): X bytes from the side register under bx4, zero under mx4. -/
def Core.storeFp4 (k : Core) (f4 : Bool) (m row : Nat) : List Byte :=
  let nb := (k.dims m).2.2 / 32
  let codes := k.rowBytesOf m row
  (List.range (nb / 8)).flatMap fun g =>
    let b := row * nb + 8 * g
    (codes.drop (128 * g)).take 128 ++ (List.range 8).map (fun i => BitVec.ofNat 8 (k.sideByte m (2 * (b + i))))
      ++ (List.range 8).map (fun i => if f4 then BitVec.ofNat 8 (k.sideByte m (2 * (b + i) + 1)) else 0)

/-- Row e of ma to memory: TST and TSCAT (R192). -/
def State.rowStore (s : State) (t : Task) (p c : Nat) (r : MacroRun) (e : Nat) (va : W64) : Except Deny State :=
  let w := seqFields r.m.word
  let ty := mcTy w
  let ma := mcMa w
  let k := s.core p c
  let rp := (s.page p).vrp
  let cols := (k.dims ma).2.2
  match s.rowAccess t p c true ty va (rowBytes ty cols) with
  | .error d => .error d
  | .ok (ps, sides) =>
    let bytes := if ty = 7 ∧ sides.isEmpty = true then k.storeFp4 r.f4 ma e else k.rowBytesOf ma e
    let nb := cols / 32
    let extra : List (Loc × Byte) := (sides.flatMap Side.blocks).zipIdx.flatMap fun (x, i) =>
      (x.1, BitVec.ofNat 8 (k.sideByte ma (2 * (e * nb + i)))) ::
        (match x.2 with
        | some l => [(l, BitVec.ofNat 8 (k.sideByte ma (2 * (e * nb + i) + 1)))]
        | none => [])
    let places := ps ++ extra.map fun (l, _) => (l, 1, none)
    match s.takeSectors t (sectorsOf t (rp, c) places) with
    | none => .error dVersion
    | some s1 =>
      let all := bytes ++ extra.map (·.2)
      .ok ((s1.markL1 t p c (ps ++ s.sideReqs sides)).writePlaces t (t.windex rp c) (s.ordNow 1) 1 (rp, c) (fun _ => true) places 0 all)

/-! Keyed transfers (R194, R195). -/

/-- A 64-byte beat read from keyed memory through the Keyway: bytes, or the refusal; its source's class, then that it is keyed, then its integrity (R193,
R194, R301, R304, R445). -/
def State.keyedBeat (s : State) (t : Task) (p c : Nat) (va : W64) : Except Deny (BitVec 512 × State) :=
  let rp := (s.page p).vrp
  match s.elemPlaces t (s.who t p) .matrix false va 64 64 none none with
  | .error d => .error d
  | .ok ps =>
    let keyed := s.touchesKeyed t ps || !(imagesOf ps).isEmpty
    if !s.policyOk t (imagesOf ps) then .error dClass
    else if !keyed then .error { cls := 3, code := 7 }
    else if s.touchesBad t ps none then .error dIntegrity
    else
      let (bs, s1) := (s.countBeats t (imagesOf ps) 1).readPlaces t (t.windex rp c) rp c ps
      .ok (recOf bs, s1)

/-- One beat of TKLD (R194); a write into a keyed bank makes the superstep not idempotent (R319). -/
def State.tkldElem (s : State) (t : Task) (p c : Nat) (r : MacroRun) (e : Nat) (va : W64) : Except Deny State :=
  let mx := mcMx (seqFields r.m.word)
  match s.keyedBeat t p c va with
  | .error d => .error d
  | .ok (beat, s1) =>
    if mx / 1024 = 1 then
      let d0 := fld r.m.xd 18 0
      let off := d0 + 64 * e
      if d0 % 64 ≠ 0 then .error { cls := 3, code := 4 }
      else if (s.core p c).fold = true ∧ 0x40000 ≤ off then .error dSpRange
      else if 0x80000 ≤ off ∨ (s.core p c).ckb.getLsbD (off / 65536) = false then .error { cls := 3, code := 4 }
      else
        let s2 := (s1.ownWrite t p c 1 off (entryBytes beat)).modCore p c fun k =>
          { k with kbsrc := k.kbsrc.filter (fun x => decide (x.1 ≠ off)) ++ [(off, s.keepAddr (s.who t p).home va)] }
        .ok (s2.modTask t.tid fun t => { t with nonIdem := true })
    else
      let side := if mx / 512 % 2 = 1 then 2 else 1
      match s1.facing t p c side false with
      | none => .ok s1
      | some (q, c', side', _) =>
        let a : Arrival :=
          { hop := 1, at_ := s.cycle, skew := t.skew (s.page p).rp c, side := side', v := { lanes := beat, valid := 0xFFFF }, key := true
            src := s.keepAddr (s.who t p).home va }
        .ok (s1.modCore q c' fun k => { k with arrive := k.arrive ++ [a] })

/-- One beat of TWLD (R195). -/
def State.twldElem (s : State) (t : Task) (p c : Nat) (r : MacroRun) (e : Nat) (va : W64) : Except Deny State :=
  match s.keyedBeat t p c va with
  | .error d => .error d
  | .ok (beat, s1) =>
    .ok (s1.modCore p c fun k => { k with w := k.w.set (mcMx (seqFields r.m.word) % 16 + e) { val := beat, key := true } })

/-! Tile arithmetic (R196 to R205). -/

/-- Chunks of n pairs. -/
def chunks {α : Type} (n : Nat) : Nat → List α → List (List α)
  | 0, _ => []
  | fuel + 1, l => match l with
    | [] => []
    | _ => l.take n :: chunks n fuel (l.drop n)

/-- One output of TMMA or TMMS: the chunks of R60 merged in ascending k (R60, R61, R64, R196). -/
def productAt (ring ty rm : Nat) (acc : W32) (a b : List Val) : W32 × FlagSet :=
  let n := if ty ≤ 3 then 4 else if ty ≤ 6 then 8 else 16
  (chunks n (a.length / n + 1) (a.zip b)).foldl (fun (x, f) ps =>
    let (y, g) := mergeChunk ring ty rm x ps
    (y, f ||| g)) (acc, 0)

/-- The row order of R201: segments of 16 by the tree of R66, then ascending. -/
def rowOrder (f : W32 × FlagSet → W32 × FlagSet → W32 × FlagSet) (xs : List W32) : W32 × FlagSet :=
  let seg := fun (l : List W32) => (tree16 f ((l.map fun x => some (x, (0 : FlagSet))) ++ List.replicate (16 - l.length) none)).getD (0, 0)
  match (chunks 16 (xs.length / 16 + 1) xs).map seg with
  | [] => (0, 0)
  | x :: r => r.foldl f x

/-- An f32 operation on bits that yields bits and flags. -/
def f32Op (rm : Nat) (v : Val × FlagSet) : W32 × FlagSet :=
  let (b, f) := roundOut f32 rm v
  (BitVec.ofNat 32 b, f)

def f32Val (x : W32) : Val := f32.val x.toNat

/-- A value exactly representable as f32. -/
def exactF32 (v : Val) : W32 := BitVec.ofNat 32 (f32.round 0 false v).1

/-- Flags of a list of results joined. -/
def joinFlags (l : List (W32 × FlagSet)) : FlagSet := l.foldl (fun f x => f ||| x.2) 0

/-- A softmax row (R204). -/
def softmaxRow (ty rm : Nat) (scale : Option W32) (vs : List Val) : List Nat × FlagSet :=
  let x0 := vs.map exactF32
  let xs := match scale with
    | none => x0.map fun x => (x, (0 : FlagSet))
    | some c => x0.map fun x => f32Op rm (Val.mul (f32Val x) (f32Val c))
  let m := rowOrder (mmF32 true) (xs.map (·.1))
  let ts := xs.map fun x => f32Op rm (Val.add rm (f32Val x.1) ((f32Val m.1).flip true))
  let us := ts.map fun t => f32Op rm (Val.mul (f32Val t.1) (f32Val 0x3FB8AA3B))
  let ys := us.map fun u => f32Op rm (f32Val u.1).exp2
  let sm := rowOrder (addF32 rm) (ys.map (·.1))
  let out := ys.map fun y => roundOut (fmtOf ty) rm (Val.div (f32Val y.1) (f32Val sm.1))
  (out.map (·.1), joinFlags xs ||| joinFlags ts ||| joinFlags us ||| joinFlags ys ||| sm.2 ||| out.foldl (fun f x => f ||| x.2) 0)

/-- A root-mean-square normalized row (R205). -/
def rmsRow (ty rm : Nat) (sat : Bool) (eps : W32) (gain : Option (List Val)) (vs : List Val) : List Nat × FlagSet :=
  let xs := vs.map exactF32
  let qs := xs.map fun x => f32Op rm (Val.mul (f32Val x) (f32Val x))
  let ss := rowOrder (addF32 rm) (qs.map (·.1))
  let mean := f32Op rm (Val.div (f32Val ss.1) (Val.ofInt vs.length))
  let me := f32Op rm (Val.add rm (f32Val mean.1) (f32Val eps))
  let r := f32Op rm (f32Val me.1).rsqrt
  let zs := xs.map fun x => f32Op rm (Val.mul (f32Val x) (f32Val r.1))
  let fin := fun (v : Val × FlagSet) =>
    let (b, f) := (fmtOf ty).round rm sat v.1
    (b, v.2 ||| f)
  let out := match gain with
    | none => zs.map fun (z : W32 × FlagSet) => fin (f32Val z.1, 0)
    | some gs => (zs.zip gs).map fun ((z, g) : (W32 × FlagSet) × Val) => fin (Val.mul (f32Val z.1) g)
  (out.map (·.1), joinFlags qs ||| ss.2 ||| mean.2 ||| me.2 ||| r.2 ||| joinFlags zs ||| out.foldl (fun f x => f ||| x.2) 0)

/-- An element of TEW (R203). -/
def tewElem (ty rm op : Nat) (a b d : Nat) : Nat × FlagSet :=
  if ty = 0 then
    let x := sx 32 a
    let y := sx 32 b
    (wrap 32 (if op = 0 then x + y else if op = 1 then x - y else if op = 2 then x * y else if op = 3 then max x y else if op = 4 then min x y
      else x * y + sx 32 d), 0)
  else
    let m := fmtOf ty
    if op = 0 then roundOut m rm (Val.add rm (m.val a) (m.val b))
    else if op = 1 then roundOut m rm (Val.add rm (m.val a) ((m.val b).flip true))
    else if op = 2 then roundOut m rm (Val.mul (m.val a) (m.val b))
    else if op = 3 then roundOut m rm (Val.minmax true (m.val a) (m.val b), 0)
    else if op = 4 then roundOut m rm (Val.minmax false (m.val a) (m.val b), 0)
    else fusedMul m rm false false a b d

/-- Element e of a macro that works in tile registers alone: the core after it, with its flags (R196 to R205). -/
def Core.tileElem (k : Core) (r : MacroRun) (e : Nat) : Core :=
  let op := r.m.word.toNat / 2 ^ 56
  let w := seqFields r.m.word
  let ty := mcTy w
  let mx := mcMx w
  let rm := r.rm.toNat
  let md := mcMd w
  let ma := mcMa w
  let mb := mcMb w
  let cols := (k.dims md).2.2
  let put := fun (cs : List Nat) (f : FlagSet) =>
    let k1 := k.setRow md e cs
    { k1 with cfr := k1.cfr ||| (f.setWidth 32 <<< 8) }
  if op = 0x44 ∨ op = 0x45 then
    let ring := if op = 0x44 then 0 else mx / 2 % 8
    let a := k.rowVals r.f4 ty ma e
    let out := (List.range cols).map fun j =>
      let acc : W32 := if mx % 2 = 1 then ringIdentity ring else BitVec.ofNat 32 (k.code md e j)
      productAt ring ty rm acc a (k.rowVals r.f4 ty mb j)
    put (out.map (·.1.toNat)) (joinFlags out)
  else if op = 0x48 then put ((List.range cols).map fun i => k.code ma i e) 0
  else if op = 0x49 then
    let out := (k.rowVals r.f4 (mx % 8) ma e).map (convTo ty rm (mcSat w && !exactPair (mx % 8) ty))
    put (out.map (·.1)) (out.foldl (fun f x => f ||| x.2) 0)
  else if op = 0x4A then
    let qs := (chunks 32 (cols / 32 + 1) (k.rowVals false (mx % 8) ma e)).map
      (quantize (decide (mx / 8 % 2 = 1)) (fmtOf (mx % 8)) rm (mcSat w))
    let k1 := put (qs.flatMap (·.codes)) (qs.foldl (fun f q => f ||| q.flags) 0)
    qs.zipIdx.foldl (fun k (q, b) =>
      let i := e * (cols / 32) + b
      (k.setSide md (2 * i) q.s).setSide md (2 * i + 1) q.x) k1
  else if op = 0x4B then
    let xs := (k.rowCodes ma e).map (BitVec.ofNat 32)
    let f : W32 × FlagSet → W32 × FlagSet → W32 × FlagSet :=
      if ty = 0 then fun x y =>
        (if mx = 0 then x.1 + y.1 else if mx = 1 then (if x.1.toInt < y.1.toInt then y.1 else x.1) else if y.1.toInt < x.1.toInt then y.1 else x.1, 0)
      else if mx = 0 then addF32 rm else mmF32 (decide (mx = 1))
    let (x, g) := rowOrder f xs
    put [(if ty = 1 then canonF32 x else x).toNat] g
  else if op = 0x4C then
    let row := if mx / 8 % 2 = 1 then 0 else e
    let out := (List.range cols).map fun j => tewElem ty rm (mx % 8) (k.code ma e j) (k.code mb row j) (k.code md e j)
    put (out.map (·.1)) (out.foldl (fun f x => f ||| x.2) 0)
  else if op = 0x4D then put (List.replicate cols (r.m.xa.toNat % 2 ^ tyWidth ty)) 0
  else if op = 0x4E then
    let (cs, f) := softmaxRow ty rm (if mx % 2 = 1 then some (r.m.xa.setWidth 32) else none) (k.rowVals false ty ma e)
    put cs f
  else
    let gain := if mx % 2 = 1 then some (k.rowVals false ty mb 0) else none
    let (cs, f) := rmsRow ty rm (mcSat w) (r.m.xa.setWidth 32) gain (k.rowVals false ty ma e)
    put cs f

/-! Elements (R184, R185, R189). -/

/-- A read of scale lines through a core's L1, beside their row (R292). -/
def State.touchSides (s : State) (t : Task) (p c : Nat) (xs : List Side) : State × Nat :=
  (s.sideReqs xs).foldl (fun (s, m) (l, n, e) => match l with
    | .hbm d pa => (linesOf pa n).foldl (fun (s, m) x =>
        let (s1, k) := s.hbmRead t p c d x ((e.map (·.cls)).getD 0) 0
        (s1, max m k)) (s, m)
    | _ => (s, m)) (s, 0)

/-- The latency that the data of an element's row still need, those of its scale lines among them: zero for rows in the core's own scratchpad (R185,
R292). n counts the row's bytes in carried-scale form. -/
def State.rowLatency (s : State) (t : Task) (p c : Nat) (op ty : Nat) (va : W64) (n : Nat) : State × Nat :=
  let far := decide (ty = 7 ∧ spaceOf va = .translated)
  let n := if far then n / 144 * 128 else n
  match s.taskPlaces t (s.who t p) .any false va n with
  | .error _ => (s, 0)
  | .ok ps =>
    let sides := if far then (s.groupSides ps).getD [] else []
    let own := ps.all fun x => match x.1 with
      | .sp rp k _ => decide (t.holds rp = some p ∧ k = c)
      | _ => false
    if own then (s, 0)
    else if op = 0x41 ∨ op = 0x47 then
      let (s1, wait) := s.noteWalks (s.who t p) va n
      (s1, wait + s.acceptLat t p c va (ps ++ s.sideReqs sides))
    else
      let (s1, a) := s.touchL1 t p c va ps
      let (s2, b) := s1.touchSides t p c sides
      (s2, max a b)

/-- Element e performed, or refused with nothing done (R184). -/
def State.macroElem (s : State) (t : Task) (p c : Nat) (r : MacroRun) (e : Nat) : Except Deny State :=
  let op := r.m.word.toNat / 2 ^ 56
  let va := (s.core p c).rowAddr r.m c e
  if op = 0x40 ∨ op = 0x46 then s.rowLoad t p c r e va
  else if op = 0x41 ∨ op = 0x47 then s.rowStore t p c r e va
  else if op = 0x42 then s.tkldElem t p c r e va
  else if op = 0x43 then s.twldElem t p c r e va
  else .ok (s.modCore p c fun k => k.tileElem r e)

/-- Is a macro one that addresses memory? -/
def macroMem (op : Nat) : Bool := decide ((0x40 ≤ op ∧ op ≤ 0x43) ∨ op = 0x46 ∨ op = 0x47)

/-- Bytes of a row of a memory macro. -/
def Core.rowLen (k : Core) (op : Nat) (w : SWord) : Nat :=
  if op = 0x42 ∨ op = 0x43 then 64
  else rowBytes (mcTy w) (k.dims (if op = 0x41 ∨ op = 0x47 then mcMa w else mcMd w)).2.2

/-- MACRO_ELEMENT: the next element of a copy completes, when its data have arrived (R184, R185); after the last, mprog is cleared, the
copy ends and its event is signalled (R33, R189). A trap stops the copies with mprog.elem naming the element (R183, R193). -/
def execVMacroElement (s : State) : Res :=
  match s.focus.ev with
  | .macroElement p c =>
    let k := s.core p c
    match s.owner p, k.mrun with
    | some t, some r =>
      if s.cycle < r.due ∨ (s.page p).frozen = true then .next s
      else
        let op := r.m.word.toNat / 2 ^ 56
        let w := seqFields r.m.word
        let e := k.elem
        let va := k.rowAddr r.m c e
        let late := macroMem op && !r.waited && (s.macroElem t p c r e).toBool
        let (s1, lat) := if late then s.rowLatency t p c op (if op = 0x42 ∨ op = 0x43 then 0 else mcTy w) va (k.rowLen op w) else (s, 0)
        if 0 < lat then .next (s1.modCore p c fun k => { k with mrun := some { r with due := s.cycle + lat, waited := true } })
        else
          match s1.macroElem t p c r e with
          | .error d =>
            let s2 := if d = dVersion then s1.countVofl t.part else s1
            .next (s2.macroTrap p c d.cls d.code (some (s.resolve (s.who t p).home va)))
          | .ok s2 =>
            if e + 1 < r.count then
              .next (s2.modCore p c fun k =>
                { k with mprog := k.mprog + 1, mrun := some { r with due := s.cycle + (k.macroTime op w).2, waited := false } })
            else
              let s3 := s2.modCore p c fun k =>
                { k with mprog := BitVec.ofNat 64 (fld k.mprog 39 32 * 2 ^ 32), mrun := none, mres := none }
              .next (if mcSig w then s3.taskSignal t (32 * (s.page p).rp + 17 + c) (mcEvent w) 1 else s3)
    | _, _ => .next s
  | _ => .next s

/-- TLD (R192). -/
def execSTld (w : SWord) (s : State) : Res := .next (s.macroWord w)

/-- TST (R192). -/
def execSTst (w : SWord) (s : State) : Res := .next (s.macroWord w)

/-- TKLD (R194). -/
def execSTkld (w : SWord) (s : State) : Res := .next (s.macroWord w)

/-- TWLD (R195). -/
def execSTwld (w : SWord) (s : State) : Res := .next (s.macroWord w)

/-- TMMA (R196). -/
def execSTmma (w : SWord) (s : State) : Res := .next (s.macroWord w)

/-- TMMS (R196). -/
def execSTmms (w : SWord) (s : State) : Res := .next (s.macroWord w)

/-- TGATH (R192). -/
def execSTgath (w : SWord) (s : State) : Res := .next (s.macroWord w)

/-- TSCAT (R192). -/
def execSTscat (w : SWord) (s : State) : Res := .next (s.macroWord w)

/-- TXP (R197). -/
def execSTxp (w : SWord) (s : State) : Res := .next (s.macroWord w)

/-- TCVT (R198). -/
def execSTcvt (w : SWord) (s : State) : Res := .next (s.macroWord w)

/-- TQNT (R199). -/
def execSTqnt (w : SWord) (s : State) : Res := .next (s.macroWord w)

/-- TRED (R202). -/
def execSTred (w : SWord) (s : State) : Res := .next (s.macroWord w)

/-- TEW (R203). -/
def execSTew (w : SWord) (s : State) : Res := .next (s.macroWord w)

/-- TFILL (R200). -/
def execSTfill (w : SWord) (s : State) : Res := .next (s.macroWord w)

/-- TSMX (R204). -/
def execSTsmx (w : SWord) (s : State) : Res := .next (s.macroWord w)

/-- TNRM (R205). -/
def execSTnrm (w : SWord) (s : State) : Res := .next (s.macroWord w)

end Sys2Proof.Machine
end

