-- ==== Sys2Proof/Machine/Engine.lean ====
section
/-! DEFINITION. Asynchronous engines: words 0x70 to 0x78, ENGINE_ELEMENT, COLL_CONTRIBUTION and COLL_TIMEOUT (16 R347 to R367, 13 R325, 21
R452). -/
namespace Sys2Proof.Machine

/-- The engine words of one slot. -/
def Slot.pat (e : Slot) (i : Nat) : BitVec 512 := e.recs.getD i 0
def Slot.swd (e : Slot) : SWord := seqFields e.word
def Slot.opc (e : Slot) : Nat := e.word.toNat / 2 ^ 56
def Slot.collOp (e : Slot) : Nat := fld e.swd.mod 4 3
def State.eslot (s : State) (p n : Nat) : Slot := (s.page p).eslot n
def State.modSlot (s : State) (p n : Nat) (f : Slot → Slot) : State := s.modPage p fun pg => pg.setSlot n (f (pg.eslot n))

/-- The requester of an engine access: the engine unit of the page's die that serves the command (R347, R409). -/
def State.engWho (s : State) (t : Task) (p : Nat) : Who := { s.who t p with port := 10 + s.focus.unit }

/-- Cycles that an engine unit takes to move the bytes of an element: 256 in a cycle (R347). -/
def unitTime (bytes : Nat) : Nat := max 1 ((bytes + 255) / 256)

/-- Slot n of page p takes a free engine unit of its die for an element of so many bytes, the slot being the one served last; none when all four are busy
(R347). Which free unit runs a command is left open: while the matrices treat the free ones alike the lowest stands for any, else it is a free choice
(log 93). -/
def State.takeUnit (s : State) (t : Task) (p n bytes : Nat) : Option State :=
  let d := p / 40
  let r := s.partDie t.part d
  let row := fun (u : Nat) => (fld r.cxm (16 * (10 + u) + 15) (16 * (10 + u))) &&& (fld r.lcxm (16 * (10 + u) + 15) (16 * (10 + u)))
  match ((s.die d).units.zipIdx.filter fun (c, _) => decide (c ≤ s.cycle)).map (·.2) with
  | [] => none
  | u :: us =>
    let (v, s1) := if us.all fun x => decide (row x = row u) then (u, s) else
      let (i, s1) := s.choose (us.length + 1)
      ((u :: us).getD i u, s1)
    some (({ s1 with focus := { s1.focus with unit := v } } : State).modDie d fun x =>
      { x with units := x.units.set v (s.cycle + unitTime bytes), engLast := 8 * (p % 40) + n })

/-! Elements of patterns in memory (R351, R356, R358, R359). -/

/-- n bytes of a place as an engine reads them: committed values at the superstep's start, or for scratchpad a value of the superstep
(R325, R359). -/
def State.engLoc (s : State) (t : Task) (l : Loc) : Nat → Nat → List Byte × State
  | _, 0 => ([], s)
  | i, n + 1 =>
    let (b, s1) := match l with
      | .sp r k off =>
        (match t.holds r with
        | none => (0, s)
        | some p => s.spByte p k (t.spOff r (off + i)) false none)
      | l => (s.snapByte t (l.add i), s)
    let (bs, s2) := s1.engLoc t l (i + 1) n
    (b :: bs, s2)

def State.engPlaces (s : State) (t : Task) : List (Loc × Nat × Option PotE) → List Byte × State
  | [] => ([], s)
  | (l, n, _) :: r =>
    let (bs, s1) := s.engLoc t l 0 n
    let (cs, s2) := s1.engPlaces t r
    (bs ++ cs, s2)

/-- Do all S pages of an element belong to a session (R362)? -/
def ofSession (sess : Option Nat) (ps : List (Loc × Nat × Option PotE)) : Bool :=
  match sess with
  | none => true
  | some x => ps.all fun (_, _, e) => match e with
    | some y => decide (y.cls = 1 → y.sess = x)
    | none => true

/-- An element read by an engine under a record's class: its bytes, or the refusal with its address (R304, R351, R356). -/
def State.engRead (s : State) (t : Task) (p : Nat) (cls : Nat) (sess : Option Nat) (va : W64) (n : Nat) :
    Except (Deny × W64) (List Byte × State) :=
  let w := s.engWho t p
  match s.elemAccess t w .read false va n 1 (some cls) (some { cls := 3, code := 5 }) true with
  | .error e => .error (e, va)
  | .ok ps =>
    if !ofSession sess ps then .error (dClass, va)
    else .ok ((s.touchL2 w va ps).1.engPlaces t ps)

/-- An element written by an engine into the version under writer slot 8 (R307, R356, R358). -/
def State.engWrite (s : State) (t : Task) (p : Nat) (cls : Nat) (sess : Option Nat) (ord : Nat) (va : W64) (bs : List Byte) :
    Except (Deny × W64) State :=
  let w := s.engWho t p
  match s.elemAccess t w .write true va bs.length 1 (some cls) (some { cls := 3, code := 4 }) with
  | .error e => .error (e, va)
  | .ok ps =>
    if !ofSession sess ps then .error (dClass, va)
    else
      match s.takeSectors t (sectorsOf t ownNone ps) with
      | none => .error (dVersion, va)
      | some s1 => .ok ((s1.noteWalks w va bs.length).1.writePlaces t (t.windex (s.page p).vrp 8) ord 0 ownNone (fun _ => true) ps 0 bs)

/-- Address that an index names: base + x × stride0 (R361). -/
def indexAddr (r : BitVec 512) (x : List Byte) : W64 := patBase r + BitVec.ofInt 64 (sx 32 (leNat x)) * patStride r 0

/-- Order of an element within slot 8: issue order, then canonical order (R358). -/
def engOrd (e : Slot) (i : Nat) : Nat := e.order * 2 ^ 48 + i

/-! Issue (R354, R361, R362, R364). -/

/-- Registers that name records, in order, each with whether it may carry ev (R350 item 7). -/
def engRegs (op : Nat) (w : SWord) : List (BitVec 5 × Bool) :=
  if op = 0x71 ∨ op = 0x72 then [(w.xd, false), (w.xa, false), (w.xb, true)]
  else if op = 0x73 then [(w.xa, true)]
  else [(w.xa, false), (w.xb, true)]

/-- The destination record of a command, and its element count (R361, R362, R364). -/
def engDst (_op : Nat) (rs : List (BitVec 512)) : BitVec 512 := rs.getLastD 0
def engCount (op : Nat) (rs : List (BitVec 512)) : Nat := if op = 0x71 ∨ op = 0x72 then patN (rs.getD 0 0) else patN (engDst op rs)

/-- Does a command break a rule of its own that raises bad_pattern (R361, R362, R364)? members: the size of the member set. -/
def engRule (op : Nat) (w : SWord) (members : Nat) (rs : List (BitVec 512)) : Bool :=
  let src := if op = 0x71 ∨ op = 0x72 then rs.getD 1 0 else rs.getD 0 0
  let dst := engDst op rs
  let idx := rs.getD 0 0
  if op = 0x73 then !patOut dst
  else
    let base := patOut src || !patOut dst || decide (patEsz src ≠ patEsz dst)
    if op = 0x70 then base || decide (patN src ≠ patN dst)
    else if op = 0x71 then base || patOut idx || decide (patEsz idx ≠ 4 ∨ patN idx ≠ patN dst)
    else if op = 0x72 then base || patOut idx || decide (patEsz idx ≠ 4 ∨ patN idx ≠ patN src)
    else if op = 0x74 then
      let c := fld w.mod 4 3
      base || (decide (c = 0) && decide (patEsz src ≠ 4)) || decide (patN dst ≠ if c = 1 then members * patN src else patN src)
    else base || decide (patEsz src ≠ 16) ||
      (if w.mod.getLsbD 3 then decide (patN dst + 1 ≠ patN src) else decide (patN dst ≠ patN src + 1))

/-- Do the class fields of the records of an ECRYPT break R362? -/
def cryptClass (w : SWord) (rs : List (BitVec 512)) : Bool :=
  let a := patCls (rs.getD 0 0)
  let b := patCls (rs.getD 1 0)
  if w.mod.getLsbD 3 then decide (a ≠ 0 ∨ b ≠ 1) else decide (a ≠ 1 ∨ (b ≠ 2 ∧ b ≠ 0))

/-- An open session by its id. -/
def State.sess (s : State) (id : Nat) : Option Sess := s.tum.sessions.find? fun x => decide (x.id = id)

/-- Is a session usable by an ECRYPT of a task in a direction (R362, R452)? -/
def State.sessOk (s : State) (t : Task) (id : Nat) (dec : Bool) : Bool :=
  match s.sess id with
  | none => false
  | some x => s.bound id t.ctag && (if dec then x.dec && decide (x.crx.toNat ≠ 2 ^ 64 - 1) else x.enc && decide (x.ctx.toNat ≠ 2 ^ 64 - 1))

/-- The records named by an engine word as read through the path of XLD (R331, R354), with their longest latency. -/
def State.engRecs (s : State) (t : Task) : List (BitVec 5 × Bool) → Except (Deny × W64) (List (BitVec 512) × Nat × State)
  | [] => .ok ([], 0, s)
  | (r, _) :: rest =>
    let p := s.focus.page
    let rp := s.fpage.vrp
    let va := s.fpage.xr r
    match s.elemAccess t (s.who t p) .read false va 64 64 none (some { cls := 3, code := 5 }) false (some (p, 0)) with
    | .error e => .error (e, va)
    | .ok ps =>
      let (s1, lat) := s.touchL1 t p 0 va ps
      let (bs, s2) := s1.readPlaces t (t.windex rp 0) rp seqReader ps
      match s2.engRecs t rest with
      | .error e => .error e
      | .ok (l, m, s3) => .ok (recOf bs :: l, max lat m, s3)

/-- The trap of an engine word at issue, if any (R354, R361, R362, R364). -/
def State.engRefuse (s : State) (t : Task) (op : Nat) (w : SWord) (e : Slot) (rs : List (BitVec 512)) : Option (Nat × Nat) :=
  let n := engCount op rs
  let dst := engDst op rs
  if (rs.zip (engRegs op w)).any fun (r, _, ev) => patBad r (!ev) then some (1, 13)
  else if op = 0x74 ∧ t.rcd.bg.getLsbD 7 = false then some (1, 10)
  else if engRule op w t.mcount rs then some (1, 13)
  else if op = 0x75 ∧ cryptClass w rs = true then some (3, 2)
  else if op = 0x75 ∧ s.sessOk t (fld w.imm 11 0) (w.mod.getLsbD 3) = false then some (3, 9)
  else if patEv dst && !t.rcd.grants (patEvn dst) then some (3, 8)
  else if e.done = false ∧ e.elem ≠ 0 ∧ ¬(e.op.toNat = op ∧ e.elem.toNat < n) then some (1, 4)
  else none

/-- The message counter that an ECRYPT takes at issue; a dual-run pair takes one (R452, R247). -/
def State.takeCounter (s : State) (t : Task) (id : Nat) (dec : Bool) : W64 × State :=
  let cur := match s.sess id with
    | none => 0
    | some x => if dec then x.crx else x.ctx
  let bump := fun (s : State) => { s with tum := { s.tum with sessions := s.tum.sessions.map fun x =>
    if x.id = id then (if dec then { x with crx := x.crx + 1 } else { x with ctx := x.ctx + 1 }) else x } }
  match t.dual with
  | none => (cur, bump s)
  | some u =>
    let src := 32 * s.fpage.rp
    let k := t.dualCount src
    let (go, s1) := s.dualIssue t src [3, id, dec.toNat]
    let put := fun (v : W64) (t : Task) => { t with dualOps := setDualRes t.dualOps src v k }
    if go then
      (match (s1.task u).bind fun b => b.dualOp src k with
      | some o => (o.res.getD cur, s1.modTask t.tid (put (o.res.getD cur)))
      | none => (cur, s1))
    else (cur, (bump s1).modTask t.tid (put cur))

/-- The end marker of a command: done, busy cleared, its event signalled once (R353, R355), on another device when its writes have been committed
there (R401); a decryption's bytes count once for a dual-run pair (R456). -/
def State.engDone (s : State) (t : Task) (p n : Nat) : State :=
  let e := s.eslot p n
  let dst := engDst e.opc e.recs
  let bytes := if e.opc = 0x75 ∧ e.swd.mod.getLsbD 3 = true ∧ t.copyB = false then 16 * e.total else 0
  let s0 : State := if bytes = 0 then s else
    { s with tum := { s.tum with tenants := addTenant s.tum.tenants t.ctag 0 bytes 0 } }
  let s1 := s0.modSlot p n fun e => { e with busy := false, done := true, held := false }
  if patEm dst && patEv dst then
    match s.owning (s.who t p).home ((patBase dst).toNat / 2 ^ 48) with
    | .ok (.inr df) => s1.modTask t.tid fun t => { t with outEv := t.outEv ++ [(df, patEvn dst)] }
    | _ => s1.taskSignal t (32 * (s.page p).rp + 9 + n) (patEvn dst) 1
  else s1

/-- Bytes of an element of a command. -/
def Slot.elemBytes (e : Slot) : Nat := patEsz (engDst e.opc e.recs)

/-- What matched collectives must agree in: op and int, E, esz and counts (R364). -/
def Slot.collKey (e : Slot) : List Nat :=
  [fld e.swd.mod 5 3, e.swd.imm.toNat] ++ e.recs.flatMap fun r => patEsz r :: (List.range 4).map (patCount r)

/-- The collective that a task issued as its k-th into slot n of region page rp in this superstep (R364). -/
def Task.coll (u : Task) (rp n k : Nat) : Option Coll := u.colls.find? fun c => decide (c.rp = rp ∧ c.slot = n ∧ c.num = k)

/-- How many collectives it has issued there. -/
def Task.collCount (u : Task) (rp n : Nat) : Nat := (u.colls.filter fun c => decide (c.rp = rp ∧ c.slot = n)).length

/-! Matches of collectives (R364). -/

/-- The member set of a task: for each index its task, one that has not ended first, of the same copy of a dual-run pair when it has one. -/
def State.mates (s : State) (t : Task) : List (Option Task) :=
  let us := (s.tasks.map (·.2)).filter fun u => decide (u.part = t.part ∧ u.mset = t.mset ∧ u.rcd.bg = t.rcd.bg)
  (List.range t.mcount).map fun m =>
    let vs := us.filter fun u => decide (u.midx = m)
    let ws := (vs.filter fun u => decide (u.state ≠ .ended)) ++ vs.filter fun u => decide (u.state = .ended)
    match ws.find? fun u => decide (u.copyB = t.copyB) with
    | some u => some u
    | none => ws.head?

/-- The k-th collective of slot n of region page rp, member by member; none where the member has not issued it (R364). -/
def State.collSet (s : State) (t : Task) (rp n k : Nat) : List (Option Coll) := (s.mates t).map fun u => u.bind fun u => u.coll rp n k

/-- Have all members issued a collective, and do their words or records differ (R364)? -/
def collDiffers (cs : List (Option Coll)) : Bool :=
  cs.all (·.isSome) && match cs.filterMap id with
    | [] => false
    | c :: r => r.any fun x => decide (x.key ≠ c.key)

/-- The members raise coll_mismatch on their matching page: every one, or those alone whose command waits for the match (R364). -/
def State.collFail (s : State) (t : Task) (rp n k : Nat) (every : Bool) : State :=
  (s.mates t).foldl (fun s u =>
    match u.bind fun u => u.phys rp with
    | none => s
    | some q =>
      let e := s.eslot q n
      if every = true ∨ (e.busy = true ∧ e.opc = 0x74 ∧ e.coll = k) then s.engineTrap q n 1 19 else s) s

/-- The issue of a collective: when it is the last of its match, a difference raises coll_mismatch in every member, before element 0 (R364). -/
def State.collIssue (s : State) (t : Task) (rp n k : Nat) : State :=
  if collDiffers (s.collSet t rp n k) then s.collFail t rp n k true else s

/-- A data command issues into its slot (R354). -/
def State.engWord (s : State) (w : SWord) : State :=
  match s.owner s.focus.page, s.fpage.phase with
  | some t, .ready =>
    let p := s.focus.page
    let pg := s.fpage
    let word := pg.word
    let op := word.toNat / 2 ^ 56
    let n := fld w.mod 2 0
    let e := pg.eslot n
    if e.busy then s
    else
      match s.engRecs t (engRegs op w) with
      | .error (d, va) => s.denied (s.who t p) d va
      | .ok (rs, lat, s1) =>
        match s1.engRefuse t op w e rs with
        | some (cls, code) => s.seqTrap p cls code
        | none =>
          let total := engCount op rs
          let start := if e.done then 0 else e.elem.toNat
          let (ctr, s2) := if op = 0x75 then s1.takeCounter t (fld w.imm 11 0) (w.mod.getLsbD 3) else (0, s1)
          let k := t.collCount pg.rp n
          let e1 : Slot :=
            { e with
              elem := BitVec.ofNat 48 start, op := BitVec.ofNat 8 op, busy := decide (0 < total), done := false, held := false,
              cancelled := false, word := word, recs := rs, fill := if op = 0x73 then pg.xr w.xb else 0, total := total,
              order := pg.orders, due := s.cycle + lat + Config.latL2Far, ctr := ctr, coll := k, stopped := false }
          let s3 := s2.modPage p fun pg =>
            { pg.setSlot n e1 with
              orders := pg.orders + 1 }
          let s4 :=
            if op = 0x75 then s3.modTask t.tid fun t => { t with nonIdem := true }
            else if op = 0x74 then s3.modTask t.tid fun t => { t with colls := t.colls ++ [⟨pg.rp, n, k, e1.collKey, e1.pat 0, []⟩] }
            else s3
          let s5 := if op = 0x74 then s4.collIssue t pg.rp n k else s4
          (if total = 0 then s5.engDone t p n else s5).await (max 3 lat) none
  | _, _ => s

/-- ECOPY (R361). -/
def execSEcopy (w : SWord) (s : State) : Res := .next (s.engWord w)

/-- EGATH (R361). -/
def execSEgath (w : SWord) (s : State) : Res := .next (s.engWord w)

/-- ESCAT (R361). -/
def execSEscat (w : SWord) (s : State) : Res := .next (s.engWord w)

/-- EFILL (R361). -/
def execSEfill (w : SWord) (s : State) : Res := .next (s.engWord w)

/-- ECOLL.sum (R364). -/
def execSEcollSum (w : SWord) (s : State) : Res := .next (s.engWord w)

/-- ECOLL.gather (R364). -/
def execSEcollGather (w : SWord) (s : State) : Res := .next (s.engWord w)

/-- ECOLL.bcast (R364). -/
def execSEcollBcast (w : SWord) (s : State) : Res := .next (s.engWord w)

/-- ECRYPT.enc (R362). -/
def execSEcryptEnc (w : SWord) (s : State) : Res := .next (s.engWord w)

/-- ECRYPT.dec (R362). -/
def execSEcryptDec (w : SWord) (s : State) : Res := .next (s.engWord w)

/-- EQRY xd, eN (R363). -/
def execSEqry (w : SWord) (s : State) : Res :=
  .next (s.done fun pg => pg.setX w.xd (pg.eslot (fld w.mod 2 0)).eprog)

/-- EWAIT mask: holds until no slot of the mask is busy (R363). -/
def execSEwait (w : SWord) (s : State) : Res :=
  .next (if (List.range 8).any fun n => w.imm.getLsbD n && (s.fpage.eslot n).busy then s else s.done id)

/-- ECANCEL mask[, reset] (R363). -/
def execSEcancel (w : SWord) (s : State) : Res :=
  let stop := fun (e : Slot) =>
    if e.busy then
      { e with busy := false, held := false, cancelled := true, elem := if w.mod.getLsbD 0 then 0 else e.elem } else e
  .next (s.done fun pg =>
    { pg with slots := pg.slots.zipIdx.map fun (e, n) => if w.imm.getLsbD n then stop e else e })

/-- Stopped commands run again from their saved words and records, in issue order; no record is read again (R357, R386). -/
def State.reissueEngines (s : State) (p : Nat) : State :=
  s.modPage p fun pg =>
    { pg with slots := pg.slots.map fun e =>
        if e.stopped then { e with busy := true, stopped := false, held := false, due := s.cycle + Config.latL2Far } else e }

/-! Collectives (R364, R365). -/

/-- Is a member running (R365)? -/
def Task.active (u : Task) : Bool := decide (u.state = .running) && u.trap.isNone && u.causes.isEmpty

/-- Can a member no longer issue a collective of this superstep: it has ended, or every page of it has arrived at the boundary (R364)? -/
def State.pastColl (s : State) (u : Option Task) : Bool :=
  match u with
  | none => true
  | some v => decide (v.state = .ended)
    || decide (v.state = .running ∧ v.pages ≠ []) && v.pages.all fun q => decide ((s.page q).atSync = 3)

/-- Does a collective fail to match, since a member that has not issued it is past issuing it (R364)? -/
def State.collBroken (s : State) (t : Task) (rp n k : Nat) : Bool :=
  ((s.collSet t rp n k).zip (s.mates t)).any fun (c, u) => c.isNone && s.pastColl u

/-- Which source elements an element of a collective needs: member and index (R364). -/
def Slot.collNeeds (e : Slot) (members i : Nat) : List (Nat × Nat) :=
  let n := patN (e.pat 0)
  if e.collOp = 0 then (List.range members).map fun m => (m, i)
  else if e.collOp = 1 then [(i / n, i % n)]
  else [(0, i)]

/-- Bytes that a member's matching command has sent. -/
def collSent (cs : List (Option Coll)) (m : Nat) : List Byte := ((cs.getD m none).map (·.sent)).getD []

/-- The members whose contributions to element i have not all arrived (R364). -/
def Slot.lacking (e : Slot) (cs : List (Option Coll)) (i : Nat) : List Nat :=
  ((e.collNeeds cs.length i).filter fun (m, j) => decide ((collSent cs m).length < (j + 1) * patEsz (e.pat 0))).map (·.1)

/-- The member that is not running and for whose contribution the next element of a collective holds (R365). -/
def State.collAbsent (s : State) (t : Task) (rp n : Nat) (e : Slot) : Option Nat :=
  let us := s.mates t
  (e.lacking (s.collSet t rp n e.coll) e.elem.toNat).find? fun m => decide (m ≠ t.midx) && !((us.getD m none).any (·.active))

/-- Has a slot's collective a contribution left to send? Of bcast only member 0 sends (R364). -/
def Task.sends (t : Task) (rp n : Nat) (e : Slot) : Bool :=
  e.busy && decide (e.opc = 0x74 ∧ (e.collOp ≠ 2 ∨ t.midx = 0))
    && match t.coll rp n e.coll with
      | none => false
      | some c => decide (c.sent.length < patN c.src * patEsz c.src)

/-- COLL_CONTRIBUTION: the next source element of a running member's command, matched or not, is sent and arrives at every member; its own
refusal traps the sender (R356, R364). -/
def execVCollContribution (s : State) : Res :=
  match s.focus.ev with
  | .collContribution p n =>
    match s.owner p with
    | none => .next s
    | some t =>
      let e := s.eslot p n
      let rp := (s.page p).rp
      match t.coll rp n e.coll with
      | none => .next s
      | some c =>
        if t.sends rp n e = false ∨ t.active = false ∨ (s.page p).frozen = true then .next s
        else
          match s.takeUnit t p n (patEsz c.src) with
          | none => .next s
          | some s0 =>
            match s0.engRead t p (patCls c.src) none (patAddr c.src (c.sent.length / patEsz c.src)) (patEsz c.src) with
            | .error (d, va) => .next (s0.engineTrap p n d.cls d.code (some (s.resolve (s.who t p).home va)))
            | .ok (bs, s1) => .next (s1.modTask t.tid fun u => { u with colls := u.colls.map fun x => if x = c then { x with sent := x.sent ++ bs } else x })
  | _ => .next s

/-- Element e of a sum: cells of scale E added in an order the spec leaves open, or integers (R364). -/
def collSum (int : Bool) (scale : BitVec 13) (order : Nat) (xs : List W32) : W32 × Bool :=
  if int then (xs.foldl (· + ·) 0, false)
  else
    let c := cellSum order (cellNew scale) (xs.map fun x => f32.val x.toNat)
    (BitVec.ofNat 32 (f32.round 0 false (cellVal c)).1, decide (c.toNat / 2 ^ 125 ≠ 0))

/-- Source element i of member m as it has arrived (R364). -/
def collSrc (cs : List (Option Coll)) (esz m i : Nat) : List Byte := ((collSent cs m).drop (i * esz)).take esz

/-! Elements (R356, R361, R362). -/

/-- Associated data of R452. -/
def cryptAad (id dir : Nat) (ctr : W64) : List Byte := leBytes 2 id ++ [BitVec.ofNat 8 dir] ++ List.replicate 5 0 ++ leBytes 8 ctr.toNat

/-- Key and nonce of an ECRYPT under its counter (R452). -/
def Sess.keyNonce (x : Sess) (dec : Bool) (ctr : W64) : List Byte × List Byte :=
  if dec then (x.krx, x.srx ++ beBytes 8 ctr.toNat) else (x.ktx, x.stx ++ beBytes 8 ctr.toNat)

/-- The source elements 0 to n − 1 of an ECRYPT. -/
def State.cryptSrc (s : State) (t : Task) (p : Nat) (r : BitVec 512) (sess : Option Nat) : Nat → Nat → Except (Deny × W64) (List Byte × State)
  | _, 0 => .ok ([], s)
  | i, n + 1 =>
    match s.engRead t p (patCls r) sess (patAddr r i) 16 with
    | .error d => .error d
    | .ok (bs, s1) =>
      match s1.cryptSrc t p r sess (i + 1) n with
      | .error d => .error d
      | .ok (l, s2) => .ok (bs ++ l, s2)

/-- One element of ECRYPT: a ciphertext or plaintext block, the tag at the end of enc, the tag's check at the end of dec (R362). -/
def State.cryptElem (s : State) (t : Task) (p : Nat) (e : Slot) (i : Nat) : Except (Deny × W64) State :=
  let w := e.swd
  let id := fld w.imm 11 0
  let dec := w.mod.getLsbD 3
  let src := e.pat 0
  let dst := e.pat 1
  match s.sess id with
  | none => .error ({ cls := 3, code := 9 }, patAddr dst i)
  | some x =>
    let (key, nonce) := x.keyNonce dec e.ctr
    let aad := cryptAad id (if dec then 0 else 1) e.ctr
    let sIn := if dec then none else some id
    let sOut := if dec then some id else none
    let put := fun (s : State) (bs : List Byte) => s.engWrite t p (patCls dst) sOut (engOrd e i) (patAddr dst i) bs
    if !dec && decide (i + 1 = e.total) then
      (match s.cryptSrc t p src sIn 0 (e.total - 1) with
      | .error d => .error d
      | .ok (bs, s1) => put s1 (gcmTag key nonce aad (gcmText key nonce bs)))
    else
      match s.engRead t p (patCls src) sIn (patAddr src i) 16 with
      | .error d => .error d
      | .ok (bs, s1) =>
        let out := gcmStream (aesKeys key) nonce 1 (i + 2) bs
        if dec && decide (i + 1 = e.total) then
          (match s1.cryptSrc t p src sIn 0 e.total with
          | .error d => .error d
          | .ok (ct, s2) =>
            match s2.engRead t p (patCls src) sIn (patAddr src e.total) 16 with
            | .error d => .error d
            | .ok (tag, s3) => if tag = gcmTag key nonce aad ct then put s3 out else .error ({ cls := 3, code := 10 }, patAddr src e.total))
        else put s1 out

/-- Element i of a command performed, or refused with its address and nothing written (R356, R361). -/
def State.engElem (s : State) (t : Task) (p n : Nat) (e : Slot) (i : Nat) : Except (Deny × W64) State :=
  let op := e.opc
  let r0 := e.pat 0
  let r1 := e.pat 1
  let r2 := e.pat 2
  let rd := fun (s : State) (r : BitVec 512) (va : W64) => s.engRead t p (patCls r) none va (patEsz r)
  let wr := fun (s : State) (r : BitVec 512) (va : W64) (bs : List Byte) => s.engWrite t p (patCls r) none (engOrd e i) va bs
  if op = 0x70 then
    match rd s r0 (patAddr r0 i) with
    | .error d => .error d
    | .ok (bs, s1) => wr s1 r1 (patAddr r1 i) bs
  else if op = 0x71 then
    match rd s r0 (patAddr r0 i) with
    | .error d => .error d
    | .ok (x, s1) =>
      match rd s1 r1 (indexAddr r1 x) with
      | .error d => .error d
      | .ok (bs, s2) => wr s2 r2 (patAddr r2 i) bs
  else if op = 0x72 then
    match rd s r0 (patAddr r0 i) with
    | .error d => .error d
    | .ok (x, s1) =>
      match rd s1 r1 (patAddr r1 i) with
      | .error d => .error d
      | .ok (bs, s2) => wr s2 r2 (indexAddr r2 x) bs
  else if op = 0x73 then
    wr s r0 (patAddr r0 i) ((List.range (patEsz r0)).map fun j => e.fill.extractLsb' (8 * (j % 8)) 8)
  else if op = 0x74 then
    let rp := (s.page p).rp
    let cs := s.collSet t rp n e.coll
    let esz := patEsz r0
    if e.collOp = 0 then
      let xs := (List.range cs.length).map fun m => BitVec.ofNat 32 (leNat (collSrc cs esz m i))
      let seed := 2 ^ 200 + i + 2 ^ 48 * (n + 8 * (rp + 16 * (e.coll + 2 ^ 32 * ((s.page p).sstep.toNat + 2 ^ 64 * t.mset.getD 0))))
      let (v, sticky) := collSum (e.swd.mod.getLsbD 5) (e.swd.imm.setWidth 13) (Config.freeNat seed) xs
      match wr s r1 (patAddr r1 i) (leBytes 4 v.toNat) with
      | .error d => .error d
      | .ok s2 => .ok (if sticky then s2.modSlot p n fun e => { e with csticky := true } else s2)
    else
      let m := if e.collOp = 1 then i / patN r0 else 0
      wr s r1 (patAddr r1 i) (collSrc cs esz m (if e.collOp = 1 then i % patN r0 else i))
  else s.cryptElem t p e i

/-- A collective before its next element: it fails to match, holds for an absent member, waits, or (none) may proceed (R364, R365). -/
def State.collWaits (s : State) (t : Task) (p n : Nat) (e : Slot) : Option State :=
  let rp := (s.page p).rp
  let cs := s.collSet t rp n e.coll
  if collDiffers cs then some (s.collFail t rp n e.coll true)
  else if s.collBroken t rp n e.coll then some (s.collFail t rp n e.coll false)
  else if cs.all (·.isSome) ∧ e.lacking cs e.elem.toNat = [] then none
  else
    match s.collAbsent t rp n e with
    | some _ => some (if e.held then s else s.modSlot p n fun e => { e with held := true, heldAt := s.cycle })
    | none => some (if e.held then s.modSlot p n fun e => { e with held := false } else s)

/-- ENGINE_ELEMENT: the next element of a command completes on a free engine unit, or a collective waits; the last one produces the end marker
(R347, R353, R356, R361 to R365). -/
def execVEngineElement (s : State) : Res :=
  match s.focus.ev with
  | .engineElement p n =>
    match s.owner p with
    | none => .next s
    | some t =>
      let e := s.eslot p n
      if e.busy = false ∨ s.cycle < e.due ∨ (s.page p).frozen = true then .next s
      else
        match (if e.opc = 0x74 then s.collWaits t p n e else none) with
        | some s1 => .next s1
        | none =>
          match s.takeUnit t p n e.elemBytes with
          | none => .next s
          | some s0 =>
            let i := e.elem.toNat
            match s0.engElem t p n e i with
            | .error (d, va) =>
              let s1 := if d = dVersion then s0.countVofl t.part else s0
              .next (s1.engineTrap p n d.cls d.code (some (s.resolve (s.who t p).home va)))
            | .ok s1 =>
              let s2 := s1.modSlot p n fun e => { e with elem := e.elem + 1, held := false, due := s.cycle + unitTime e.elemBytes }
              .next (if i + 1 < e.total then s2 else s2.engDone t p n)
  | _ => .next s

/-- Has a held element of a collective exceeded the partition's limit (R365, R366)? -/
def State.collLate (s : State) (t : Task) (e : Slot) : Bool :=
  let limit := fld (s.part t.part).colltmo 31 0
  e.busy && e.held && decide (limit ≠ 0 ∧ limit * 1024 < s.cycle - e.heldAt)

/-- The trap of R365 at one member: a running one whose command holds traps, an absent one ends with the same trap before it is resumed. -/
def State.collTimeOut (s : State) (rp n k : Nat) (info : BitVec 128) (u : Option Task) : State :=
  match u with
  | none => s
  | some v =>
    if v.active then
      match v.phys rp with
      | none => s
      | some q => if (s.eslot q n).busy ∧ (s.eslot q n).held = true ∧ (s.eslot q n).coll = k then s.engineTrap q n 1 20 none info else s
    else if v.state = .running ∨ v.state = .ended then s
    else s.modTask v.tid fun v => { v with failed := some info.toNat }

/-- COLL_TIMEOUT: every running member whose command holds traps, and each absent member ends with the same trap before it is resumed; the
record names the member that the element waits for (R365, R373). -/
def execVCollTimeout (s : State) : Res :=
  match s.focus.ev with
  | .collTimeout p n =>
    match s.owner p with
    | none => .next s
    | some t =>
      let e := s.eslot p n
      let rp := (s.page p).rp
      match s.collLate t e, s.collAbsent t rp n e with
      | true, some m => .next ((s.mates t).foldl (fun s u => s.collTimeOut rp n e.coll (BitVec.ofNat 128 (m % 65536)) u) s)
      | _, _ => .next s
  | _ => .next s

end Sys2Proof.Machine
end

