-- ==== Sys2Proof/Machine/Report.lean ====
section
/-! DEFINITION. What the device sends out: trap records as bytes (18 R373), report rings (20 R421, 24 R474), interrupts, addresses that a
function hands the device (24 R481), and packets of message channels (10 R272 to R274, 24 R471, R472). -/
namespace Sys2Proof.Machine

/-- The 128 bytes of a trap record (R373). -/
def TrapRec.bytes (r : TrapRec) : List Byte :=
  let c := r.cause
  let n := fun (k x : Nat) => leBytes k x
  n 1 c.cls ++ n 1 c.code ++ n 1 c.flags.toNat ++ n 1 r.ctag ++ n 4 r.tid ++ n 8 r.tco.toNat ++ n 1 c.page ++ n 1 c.core ++ n 1 c.lane
    ++ n 1 c.slot ++ n 1 c.sched.toNat ++ n 1 c.eslot ++ n 2 c.tag.toNat ++ n 2 r.pc.toNat ++ n 6 0 ++ n 8 r.sstep.toNat
    ++ n 8 c.word.toNat ++ n 8 c.prog.toNat ++ n 8 c.addr.toNat ++ n 16 c.info.toNat ++ n 8 r.cycle ++ n 8 r.seqst.toNat
    ++ n 8 c.eword.toNat ++ n 24 0

/-- Is a partition enabled (R408)? -/
def State.enabled (s : State) (part : Nat) : Bool := (s.part part).dies.any fun d => d.part.getLsbD 32

/-! Addresses of functions (R481). -/

/-- Module die and physical address of bytes inside one 64 KiB page, when translation and POT admit them for a function. -/
def State.fnPlace (s : State) (fn : Nat) (a : W64) (code : Bool) : Option (Nat × Nat) :=
  match s.fnAddr fn a with
  | none => none
  | some (d, pa) =>
    match s.potAt d pa with
    | none => none
    | some e => if e.owner = fnOwner fn ∧ (e.cls = 0 ∨ (code = true ∧ e.cls = 4)) then some (d, pa) else none

/-- n bytes that a function's address names; none when some page is refused. -/
def State.fnRead (s : State) (fn : Nat) (a : W64) (n : Nat) : Option (List Byte) :=
  (pieces (n / 65536 + 2) a n).foldlM (fun acc (x, m) =>
    (s.fnPlace fn x true).map fun (d, pa) => acc ++ s.committedN d pa m) []

/-- Bytes written at an address that a function names, each page's bytes as one change of committed memory. -/
def State.fnWrite (s : State) (fn : Nat) (a : W64) (bs : List Byte) : Option State :=
  let ps := pieces (bs.length / 65536 + 2) a bs.length
  if ps.all fun (x, _) => (s.fnPlace fn x false).isSome then
    some (ps.foldl (fun (s, rest) (x, m) =>
      match s.fnPlace fn x false with
      | none => (s, rest.drop m)
      | some (d, pa) =>
        (s.commitBytes (if fn = 0 then 16 else fn - 1) d ((rest.take m).zipIdx.map fun (b, i) => (pa + i, b)), rest.drop m)) (s, bs)).1
  else none

/-- An MSI-X message (R474). -/
def State.interrupt (s : State) (fn vector : Nat) : State := { s with irqs := s.irqs ++ [(fn, vector)] }

/-! Report rings (R421, R474). -/

/-- Entries of a ring. -/
def ringSize (r : BitVec 128) : Nat := 2 ^ (fld r 67 64 + 4)

/-- A record for the ring of a function: written at wr, or dropped with lost := 1 when the ring is full or its memory refuses. -/
def State.ringPut (s : State) (fn : Nat) (bs : List Byte) : State :=
  let r := if fn = 0 then s.dev.rring else (s.part (fn - 1)).rring
  let put := fun (s : State) (x : BitVec 128) =>
    if fn = 0 then { s with dev := { s.dev with rring := x } } else s.modPart (fn - 1) fun p => { p with rring := x }
  let base := fld r 63 7 * 128
  if base = 0 then s
  else if (fld r 95 80 + 65536 - fld r 111 96) % 65536 = ringSize r then put s (setFld r 112 112 1)
  else
    match s.fnWrite fn (BitVec.ofNat 64 (base + 128 * (fld r 95 80 % ringSize r))) bs with
    | none => put s (setFld r 112 112 1)
    | some s1 => (put s1 (setFld r 95 80 ((fld r 95 80 + 1) % 65536))).interrupt fn 0

/-- Levels that receive a copy of a trap record (R375): operator, lessee. -/
def Cause.copies (c : Cause) : Bool × Bool :=
  if c.cls = 2 ∧ (c.code = 4 ∨ c.code = 2) then (false, true)
  else if c.cls = 4 then (false, true)
  else if c.cls = 3 ∧ (c.code = 1 ∨ c.code = 3 ∨ c.code = 12) then (true, true)
  else if (c.cls = 2 ∧ c.code = 7) ∨ (c.cls = 5 ∧ c.code = 1) then (true, true)
  else (false, false)

/-- Copies of a record to the levels that own its cause. -/
def State.report (s : State) (part : Nat) (op le : Bool) (r : TrapRec) : State :=
  let s1 := if op then s.ringPut 0 r.bytes else s
  if le then s1.ringPut (part + 1) r.bytes else s1

/-! Message channels. -/

def Chan.on (c : Chan) : Bool := c.reg.getLsbD 152 && !c.closing
def Chan.tenant (c : Chan) : Nat := fld c.reg 135 132
def Chan.size (c : Chan) : Nat := 2 ^ (fld c.reg 131 128 + 4)
def Chan.htail (c : Chan) : Nat := fld c.reg 207 192
def Chan.dhead (c : Chan) : Nat := fld c.reg 223 208
def Chan.hexp (c : Chan) : Nat := fld c.reg 287 256
def Chan.dlast (c : Chan) : Nat := fld c.reg 319 288

/-- The seq after a seq: 0xFFFF_FFFF is followed by 1 (R272). -/
def nextSeq (n : Nat) : Nat := if n = 0xFFFFFFFF then 1 else n + 1

def State.chan (s : State) (part k : Nat) : Chan := (s.part part).chans.getD k {}
def State.modChan (s : State) (part k : Nat) (f : Chan → Chan) : State := s.modPart part fun p => { p with chans := modAt p.chans k f }

/-- Is there no room in the device-to-host ring (R472)? Indices count modulo 2^16. -/
def Chan.full (c : Chan) : Bool := decide ((c.dtail + 65536 - c.dhead) % 65536 ≥ c.size)

/-- A packet of 64 bytes: its header with seq and ack, and its body from byte 16 (R272). -/
def packet (ty seq ack : Nat) (body : List Byte) : List Byte :=
  leBytes 2 1 ++ leBytes 1 ty ++ leBytes 1 0 ++ leBytes 4 seq ++ leBytes 4 ack ++ leBytes 4 0 ++ (body ++ List.replicate 48 0).take 48

/-- A ring access at an address is refused: the channel closes, and the lessee gets the cause, (memory, unmapped) where the address has no place and
(protection, pot) where its page is refused (R472, R421, log 100). -/
def State.ringRefused (s : State) (part k : Nat) (a : W64) : State :=
  let (cls, code) := if (s.fnAddr (part + 1) a).isNone then (2, 2) else (3, 1)
  (s.modChan part k fun c => { c with closing := true, pending := [], queued := [] }).report part false true
    { cause := { cls := cls, code := code, flags := 8, addr := a }, ctag := 16 * part + (s.chan part k).tenant, cycle := s.cycle }

/-- The packets a channel holds back leave in order while the ring has room; a ring access that is refused closes the channel and
reports to the lessee (R472). A resync packet takes no seq, and the next packet takes its slot, so that seq n stands at index n - 1 (R473). -/
def State.flushChan (s : State) (part k : Nat) : Nat → State
  | 0 => s
  | fuel + 1 =>
    let c := s.chan part k
    match c.pending with
    | [] => s
    | p :: rest =>
      if c.full then s
      else
        let a := BitVec.ofNat 64 (fld c.reg 127 64 + 64 * (c.dtail % c.size))
        let ty := fld p 23 16
        let seq := if ty = 0x84 then 0 else nextSeq c.dlast
        let bs := packet ty seq c.hlast ((leBytes 64 p.toNat).drop 16)
        match s.fnWrite (part + 1) a bs with
        | none =>
          s.ringRefused part k a
        | some s1 =>
          ((s1.modChan part k fun c =>
            { c with pending := rest, dtail := if ty = 0x84 then c.dtail else (c.dtail + 1) % 65536,
                     reg := if ty = 0x84 then c.reg else setFld c.reg 319 288 seq }).interrupt (part + 1) (2 + k)).flushChan part k fuel

/-- A packet for the host on an open channel: queued, and written as soon as the ring has room (R265, R472). -/
def State.chanSend (s : State) (part k ty : Nat) (body : List Byte) : State :=
  let c := s.chan part k
  if !c.on then s
  else
    let p := BitVec.ofNat 512 (leNat (packet ty 0 0 body))
    (s.modChan part k fun c => { c with pending := c.pending ++ [p] }).flushChan part k (c.pending.length + 2)

/-- A status packet's body (R274): cookie, status, handle, expected seq or refusal record. -/
def statusBody (cookie status handle : Nat) (refusal : BitVec 128) : List Byte :=
  leBytes 4 cookie ++ leBytes 1 status ++ leBytes 3 0 ++ leBytes 4 handle ++ leBytes 4 0 ++ leBytes 16 refusal.toNat

end Sys2Proof.Machine
end

