-- ==== Sys2Proof/Machine/Boundary.lean ====
section
/-! DEFINITION. Boundaries and commits: local and group boundaries (13 R306 to R322), versions and reductions at a commit (13 R312, R320), dual-run
signatures (09 R247, 18 R391), checkpoints and the restart of a superstep (13 R318, R319, 18 R378, R379). -/
namespace Sys2Proof.Machine

/-! The pages of a task, running or saved. -/

/-- A region page changed where it stands: on its physical page, else in the saved state. -/
def State.modTaskPage (s : State) (t : Task) (rp : Nat) (f : Page → Page) : State :=
  match t.phys rp with
  | some p => s.modPage p f
  | none => s.modTask t.tid fun t => { t with save := modAt t.save rp f }

/-- The region's pages as they stand. -/
def State.taskPages (s : State) (t : Task) : List Page := if t.pages.isEmpty then t.save else t.pages.map s.page

/-- Is the task a member of a barrier group (R245), and of which? -/
def Task.isMember (t : Task) : Bool := t.rcd.bg.getLsbD 7
def Task.group (t : Task) : Nat := fld t.rcd.bg 5 0

/-- Does the task keep a checkpoint (R378)? -/
def Task.keeps (t : Task) : Bool := t.rcd.flags.getLsbD 2 || t.rcd.flags.getLsbD 3

/-- Has everything that a page issued completed: engines, pushed entries, reduction queues, results in flight (R246, R311)? -/
def Page.drained (pg : Page) : Bool :=
  (pg.slots.all fun e => !e.busy && !e.stopped) && (pg.ports.all fun x => !(x.en && x.out) || x.fifo.isEmpty) && pg.drains.isEmpty
    && pg.cores.all fun k => k.redq.isEmpty && k.flight.isEmpty && !k.busy

/-! Commits (R312, R320, R311 step 4). -/

/-- One winning byte of a commit. -/
structure Won where
  loc : Loc
  w : Nat
  val : Byte
  clash : Bool := false
  deriving DecidableEq, Repr

/-- A byte of a version enters the winners: the highest writer index stands; a byte with two indices is marked (R312). -/
def addWon (l : List Won) (c : VCell) : List Won :=
  match l.find? fun x => decide (x.loc = c.loc) with
  | none => { loc := c.loc, w := c.w, val := c.val } :: l
  | some x =>
    let y : Won := if c.w < x.w then { x with clash := true } else { loc := c.loc, w := c.w, val := c.val, clash := x.clash || decide (c.w ≠ x.w) }
    y :: l.filter fun z => decide (z.loc ≠ c.loc)

def winners (cs : List VCell) : List Won := cs.foldl addWon []

/-- Is a location outside scratchpads? -/
def Loc.outer : Loc → Bool
  | .sp _ _ _ => false
  | _ => true

/-- A byte under a list of new bytes, else committed. -/
def State.underByte (s : State) (l : List Won) (x : Loc) : Byte :=
  match l.find? fun y => decide (y.loc = x) with
  | some y => y.val
  | none => (s.committedLoc x 1).headD 0

/-- A new byte laid over the list; r marks that a reduction reaches it (a plainly written one then counts as a conflict, R312). -/
def putWon (l : List Won) (x : Loc) (b : Byte) : List Won :=
  match l.find? fun y => decide (y.loc = x) with
  | none => { loc := x, w := 2 ^ 32, val := b } :: l
  | some y => { y with val := b, clash := y.clash || decide (y.w ≠ 2 ^ 32) } :: l.filter fun z => decide (z.loc ≠ x)

/-- n new bytes at a location, computed from the old ones as reductions do. -/
def State.addOn (s : State) (l : List Won) (x : Loc) (n : Nat) (f : Nat → Nat) : List Won :=
  (leBytes n (f (leNat ((List.range n).map fun i => s.underByte l (x.add i))))).zipIdx.foldl (fun l (b, i) => putWon l (x.add i) b) l

/-- The values that a reduction adds into its cell (R328). -/
def Red.vals (r : Red) : List Val := r.addends.flatMap (redVals r.ty)

/-- Values added into the cell at a location (R58, R320). -/
def State.cellOn (s : State) (order : Nat) (l : List Won) (x : Loc) (vs : List Val) : List Won :=
  s.addOn l x 16 fun old => (cellSum order (BitVec.ofNat 128 old) vs).toNat

/-- A reduction added onto the bytes of a commit (R58, R320). -/
def State.reduceOn (s : State) (order : Nat) (l : List Won) (r : Red) : List Won :=
  if r.cell then s.cellOn order l r.loc r.vals
  else s.addOn l r.loc 4 fun old => r.addends.foldl (fun x a => (x + a.toNat) % 2 ^ 32) old

/-- The cells that tasks add into. -/
def cellsOf (ts : List Task) : List Loc := (((ts.flatMap (·.reds)).filter (·.cell)).map (·.loc)).eraseDups

/-- The bytes that tasks commit outside scratchpads: winners, then reductions; the addends of each cell arrive in an order that a free number picks
(R58, R312, R320, log 5). -/
def State.commitImage (s : State) (ts : List Task) : List Won :=
  let reds := ts.flatMap (·.reds)
  let plain := winners ((ts.flatMap (·.ver)).filter fun c => c.loc.outer)
  let ints := (reds.filter fun r => !r.cell).foldl (s.reduceOn 0) plain
  (cellsOf ts).zipIdx.foldl (fun l (x, i) =>
    s.cellOn (Config.freeNat (s.free + i)) l x ((reds.filter fun r => r.cell && decide (r.loc = x)).flatMap Red.vals)) ints

/-- Sectors with a conflict (R312). -/
def clashes (l : List Won) : Nat := ((l.filter (·.clash)).map fun w => w.loc.sector).eraseDups.length

def State.countConf (s : State) (part n : Nat) : State :=
  s.modPart part fun p => { p with vstat := setFld p.vstat 31 0 (min (fld p.vstat 31 0 + n) 0xFFFFFFFF) }

/-- A byte stored into a scratchpad of a task by a boundary: the undo buffer and the phase's write log see it (R309, R318). -/
def Core.boundaryByte (k : Core) (carry : List (Nat × Nat)) (phase off : Nat) (b : Byte) : Core :=
  let k1 := k.logUndo carry off
  { k1 with sp := cellSet k1.sp off b, wlog := k1.wlog ++ [{ off := off, phase := phase, old := cellGet k1.sp off, new := b }] }

/-- Remote scratchpad writes of a task applied (R310, R311 step 4), with their conflicts counted (R312). -/
def State.applyScratch (s : State) (t : Task) (cs : List VCell) : State :=
  let ws := winners cs
  let s1 := ws.foldl (fun s w => match w.loc with
    | .sp rp c off => s.modTaskPage t (t.holder rp) fun pg => pg.setCore c ((pg.core c).boundaryByte t.rcd.carry t.phase (t.spOff rp off) w.val)
    | _ => s) s
  let offs := fun (rp c : Nat) => ws.filterMap fun w => match w.loc with
    | .sp r k off => if r = rp ∧ k = c then some (t.spOff r off) else none
    | _ => none
  let s2 := (List.range t.npages).foldl (fun s rp => match t.holds rp with
    | none => s
    | some p => (List.range 8).foldl (fun s c => s.mendWords p c (offs rp c)) s) s1
  s2.countConf t.part (clashes ws)

/-- The bytes of a die that a commit writes. -/
def wonOn (ws : List Won) (d : Nat) : List (Nat × Byte) := ws.filterMap fun w => match w.loc with
  | .hbm e pa => if e = d then some (pa, w.val) else none
  | _ => none

/-- The snapshots that a commit needs on every die; none when the commit may go on, else the state with the traps of the readers, while it is held (R315). -/
def State.commitHeld (s : State) (part : Nat) (ts : List Task) (ends : List Nat) : Option State :=
  let ws := s.commitImage ts
  let (s1, held) := [0, 1, 2, 3].foldl (fun ((s, held) : State × Bool) d =>
    let (s1, h) := s.needSnapshots part d (s.altered d (wonOn ws d)) ends
    (s1, held || h)) (s, false)
  if held then some s1 else none

/-- The commit of a set of tasks: members that end their superstep together (R311 step 4), with the signals that wait for it (R401). ends: every task whose superstep ends, dropped copies
among them. -/
def State.commit (s : State) (part : Nat) (ts : List Task) (ends : List Nat) : State :=
  let ws := s.commitImage ts
  let s1 := ts.foldl (fun s t => s.applyScratch t (t.ver.filter fun c => !c.loc.outer)) s
  let s2 := [0, 1, 2, 3].foldl (fun s d => if (wonOn ws d).isEmpty then s else s.commitBytes part d (wonOn ws d) ends)
    { s1 with free := s1.free + (cellsOf ts).length }
  let s3 := ws.foldl (fun s w => match w.loc with
    | .peer c a => s.peerCommit c a [w.val] ends
    | _ => s) s2
  let s4 := ts.foldl (fun s t =>
    { (s.modTask t.tid fun t => { t with outEv := [] }) with sent := s.sent ++ t.outEv.map fun (df, n) => (df, t.part, n) }) s3
  s4.countConf part (clashes ws)

/-- The sectors that stay held; vstat.spill and the error sites of versions follow (R314, R317, R390). -/
def State.keepSectors (s : State) (part : Nat) (kept : List VSect) : State :=
  let spill := kept.any fun v => decide (v.part = part ∧ v.spilled = true)
  let gone := fun (e : HwSite) => match e with
    | .version d a => !kept.any fun v => decide (v.die = d ∧ v.sector = a / 128)
    | _ => false
  ({ s with vsects := kept, errs := if s.errs.isEmpty then s.errs else s.errs.filter fun e => !gone e } : State).modPart part fun p =>
    { p with vstat := setFld p.vstat 63 63 spill.toNat }

/-- Version sectors of tasks given up (R314). -/
def State.dropVersions (s : State) (part : Nat) (tids : List Nat) : State :=
  s.keepSectors part (s.vsects.filter fun v => v.snap || !tids.contains v.tid)

/-- Version sectors of tasks whose supersteps are over, with the snapshots that no other superstep reads (R314). -/
def State.dropSectors (s : State) (part : Nat) (ends : List Nat) : State :=
  s.keepSectors part ((s.vsects.filter fun v => v.snap || !ends.contains v.tid).filterMap fun v =>
    if !v.snap then some v
    else
      let rs := v.readers.filter fun k => !ends.contains k
      if rs.isEmpty then none else some { v with readers := rs })

/-- Version sectors of remote scratchpad writes that a local boundary has applied (R310, R314). -/
def State.dropScratch (s : State) (t : Task) : State :=
  let left := t.ver.filterMap fun c => match c.loc with
    | .sp rp k off => some (spSector rp k off)
    | _ => none
  s.keepSectors t.part (s.vsects.filter fun v => v.snap || decide (v.tid ≠ t.tid ∨ v.sector < spSector 0 0 0) || left.contains v.sector)

/-! Dual-run signatures (R247). -/

/-- Low 128 bits of SHA-384 over a sector's address and bytes. -/
def sectorSig (addr : Nat) (bs : List Byte) : BitVec 128 := BitVec.ofNat 128 (leNat ((sha384 (leBytes 8 addr ++ bs)).take 16))

/-- The signature of a copy's committed writes: exclusive or over its written sectors (R247). -/
def State.signature (s : State) (t : Task) : BitVec 128 :=
  let outer := s.commitImage [t]
  let inner := winners (t.ver.filter fun c => !c.loc.outer)
  let secs := ((outer ++ inner).map fun w => w.loc.sector).eraseDups
  secs.foldl (fun (g : BitVec 128) x =>
    let (addr, start) : Nat × Loc := match x with
      | .hbm d n => (s.dieField d * 2 ^ 48 + n * 128, .hbm d (n * 128))
      | .sp r c n => (0xF00000000000 + r * 0x400000 + c * 0x80000 + n * 128, .sp r c (n * 128))
      | .peer c n => (n * 128, .peer c (n * 128))
    let byte := fun i => match start.add i with
      | .sp r c o => (match inner.find? fun w => decide (w.loc = .sp r c o) with
        | some w => w.val
        | none => cellGet (((s.taskPages t).getD (t.holder r) {}).core c).sp (t.spOff r o))
      | l => s.underByte outer l
    g ^^^ sectorSig addr ((List.range 128).map byte)) 0

/-! Seals and L1s at a boundary (R322, R283). -/

/-- A request enters a list in ascending order of writer index, behind those of the same sequencer (R337). -/
def addRequest (l : List (Bool × Nat × W64 × W64)) (x : Bool × Nat × W64 × W64) : List (Bool × Nat × W64 × W64) :=
  (l.takeWhile fun y => decide (y.2.1 ≤ x.2.1)) ++ x :: l.dropWhile fun y => decide (y.2.1 ≤ x.2.1)

/-- Seals and unseals that tasks requested in their superstep take effect, in order of writer index and then of issue (R322, R337). -/
def State.takeSeals (s : State) (part : Nat) (ts : List Task) : State :=
  s.modPart part fun p =>
    { p with seals := ((ts.flatMap (·.seals)).foldl addRequest []).foldl (fun l (on, _, b, z) =>
        if on then (if l.contains (b, z) then l else l ++ [(b, z)]) else l.filter fun x => decide (x ≠ (b, z))) p.seals }

/-- The L1s of the pages that a task holds lose every line that is not sealed (R283, R311 step 5). -/
def State.emptyL1s (s : State) (t : Task) : State :=
  (s.heldPages t.tid).foldl (fun s p => s.modPage p fun pg => { pg with cores := pg.cores.map fun k =>
    { k with l1 := (k.l1.filter fun l => s.sealedLine t l.die l.line).map fun l => { l with marked := false } } }) s

/-- Step 5 of R311 at a core: its undo buffer empties. -/
def Core.stepOver (k : Core) : Core := { k with undo := [], undoOut := false, wlog := [] }

/-- Step 5 of R311 at a page: an SSEND that holds completes and its sequencer's sstep increases. -/
def Page.stepOver (pg : Page) (live : Bool) : Page :=
  if pg.phase = .arrived ∧ pg.word.toNat / 2 ^ 56 = 0x30 then
    { pg.complete with sstep := pg.sstep + 1, phase := if live then .after else .ready }
  else pg

/-- The task's record of a new superstep. -/
def Task.newStep (t : Task) : Task :=
  { t with ver := [], reds := [], snap := [], phase := 0, nonIdem := false, seals := [], mismatched := false, ovfl := false
           dualOps := [], colls := [] }

/-- What a checkpoint holds of a core and of a page (R378). -/
def Core.checkpoint (k : Core) : Core := { v := k.v, s := k.s, m := k.m, mshape := k.mshape, cfr := k.cfr, kprog := k.kprog }
def Page.checkpoint (pg : Page) : Page :=
  { pg with cores := pg.cores.map Core.checkpoint, ports := pg.ports.map (fun x => { x with fifo := [], resv := 0 })
            slots := List.replicate 8 {}, feed := [], drains := [] }

/-- Step 5 of R311 for one member: L1s, undo buffers, SSENDs, and the checkpoint of the new superstep (R378, R388). -/
def State.finishStep (s : State) (t : Task) : State :=
  let live := !t.pages.isEmpty
  let n := (s.taskPages t).length
  let s1 := (List.range n).foldl (fun s rp => s.modTaskPage t rp fun pg =>
    let pg1 := pg.stepOver live
    { pg1 with cores := pg1.cores.map Core.stepOver }) (s.emptyL1s t)
  let s2 := s1.modTask t.tid Task.newStep
  if t.keeps then s2.modTask t.tid fun u => { u with check := (s2.taskPages u).map Page.checkpoint } else s2

/-! Restart of a superstep (R319, R379). -/

/-- Waits of a task leave the event queues. -/
def State.dropWaits (s : State) (tid part : Nat) : State :=
  s.modPart part fun p => { p with events := p.events.map fun (n, e) => (n, { e with queue := e.queue.filter fun (w, _) => match w with
    | .page k _ => decide (k ≠ tid)
    | _ => true }) }

/-- A core at the superstep's start: registers from the checkpoint, carry sectors from the undo buffer, newest first (R319, R378, R379). -/
def Core.restart (k c : Core) : Core :=
  { k with v := c.v, s := c.s, m := c.m, mshape := c.mshape, cfr := c.cfr, kprog := c.kprog, mprog := 0, mres := none, mrun := none
           sp := k.undo.foldl (fun sp u => cellsWrite sp u.off u.bytes) k.sp
           undo := [], undoOut := false, redq := [], redResv := 0, flight := [], arrive := [], fresh := [], wlog := [] }

/-- A page at the superstep's start (R379). A pre-emption request that is pending stays (R388). -/
def Page.restart (pg c : Page) : Page :=
  { pg with pc := c.pc, x := c.x, pdl := c.pdl, sstep := c.sstep, kend := c.kend, kport := c.kport, user := c.user, rep := c.rep
            wimm := c.wimm, latch := c.latch, kprog := c.kprog, phase := .ready, halted := c.halted, yielded := false, frozen := false
            ports := c.ports.map fun x => { x with fifo := [], resv := 0 }
            slots := List.replicate 8 {}, orders := 0, feed := [], feedResv := 0, feedSpace := 0, drains := [], wfill := c.wfill
            cores := pg.cores.zipIdx.map fun (k, i) => k.restart (c.core i) }

/-- The restart of a task's superstep in place (R319, R379): version, reductions and waits dropped, every page from its checkpoint. A pre-emption
request that is pending applies from the restarted state (R388). -/
def State.restartTask (s : State) (t : Task) : State :=
  let s1 := (List.range (s.taskPages t).length).foldl (fun s rp => s.modTaskPage t rp fun pg => pg.restart (t.check.getD rp {})) (s.dropWaits t.tid t.part)
  let s2 := s1.modTask t.tid fun t =>
    { t with ver := [], reds := [], phase := 0, nonIdem := false, seals := [], dualOps := [], colls := [], kern := none, waves := [], steers := []
             localDue := none, causes := [], ovfl := false, failed := none, held := [], outEv := [], exit := none
             preqAt := t.preqAt.map fun _ => s.cycle, preqCause := t.preqCause % 4 }
  s2.dropVersions t.part [t.tid]

/-- Is the superstep of a task idempotent so far (R319)? -/
def State.idempotent (s : State) (t : Task) : Bool :=
  !t.nonIdem && (s.taskPages t).all fun pg => pg.cores.all fun k => !k.undoOut

/-- A signature mismatch of a dual-run pair (R391): both copies restart the superstep on its first mismatch when it is idempotent, else both raise
trap(system, dual_mismatch). -/
def State.dualFail (s : State) (t u : Task) : State :=
  if !t.mismatched && s.idempotent t && s.idempotent u && !t.check.isEmpty && !u.check.isEmpty then
    ((s.restartTask t).restartTask u).modTask t.tid (fun t => { t with mismatched := true }) |>.modTask u.tid fun u => { u with mismatched := true }
  else
    let c : Cause := { cls := 5, code := 1 }
    (((s.modTask t.tid fun t => { t with mismatched := true }).modTask u.tid fun u => { u with mismatched := true }).raise t.tid c).raise u.tid c

/-! Events. -/

/-- LOCAL_BOUNDARY (R310): the region's remote scratchpad writes but the engines' are applied, and every LSYNC completes. -/
def execVLocalBoundary (s : State) : Res :=
  match s.focus.ev with
  | .localBoundary tid =>
    match s.task tid with
    | none => .next s
    | some t =>
      match t.localDue with
      | none => .next s
      | some due =>
        if s.cycle < due ∨ (t.pages.all fun p => decide ((s.page p).atSync = 2) && !(s.page p).frozen) = false then .next s
        else
          let mine := fun (c : VCell) => !c.loc.outer && decide (c.w % 16 ≠ 8)
          let u : Task := { t with ver := t.ver.filter (fun c => !mine c), phase := t.phase + 1, localDue := none }
          let s1 := ((s.applyScratch t (t.ver.filter mine)).modTask tid fun _ => u).dropScratch u
          .next (t.pages.foldl (fun s p => s.modPage p fun pg => { pg.complete with phase := .after }) s1)
  | _ => .next s

/-- The members of a member set that have not ended (R245). -/
def State.members (s : State) (part bg mset : Nat) : List Task :=
  (s.tasks.map (·.2)).filter fun t => decide (t.part = part ∧ t.isMember = true ∧ t.group = bg ∧ t.mset = some mset ∧ t.state ≠ .ended)

/-- Has every page of a task arrived by SSEND (R167, R245)? -/
def State.arrived (s : State) (t : Task) : Bool :=
  let ps := s.taskPages t
  !ps.isEmpty && ps.all fun pg => decide (pg.phase = .arrived ∧ pg.word.toNat / 2 ^ 56 = 0x30)

/-- Does a task's version hold bytes at a device that no route reaches (R398)? -/
def State.cutOff (s : State) (t : Task) : Bool := t.ver.any fun c => match c.loc with
  | .peer _ va => s.noRoute.contains (va / 2 ^ 48 / 4)
  | _ => false

/-- Steps 1 and 2 of R311 for a member set. -/
def State.boundReady (s : State) (ts : List Task) : Bool :=
  !ts.isEmpty && ts.all fun t => s.arrived t && !s.cutOff t && (s.taskPages t).all Page.drained && t.trap.isNone && t.causes.isEmpty

/-- The member sets that live tasks belong to: partition, group, set. -/
def State.sets (s : State) : List (Nat × Nat × Nat) :=
  ((s.tasks.map (·.2)).filterMap fun t => match t.mset with
    | some m => if t.isMember = true ∧ t.state ≠ .ended then some (t.part, t.group, m) else none
    | none => none).eraseDups

/-- Does a task's version hold bytes at another device (R400)? -/
def Task.reaches (t : Task) : Bool := t.ver.any fun c => match c.loc with
  | .peer _ _ => true
  | _ => false

/-- Boundaries that begin in this cycle: due after 120 cycles, 300 when the members span dies, one round trip more when a version reaches another
device, and 160 more with a checkpoint (R311, R378, R400). -/
def State.formBounds (s : State) : State :=
  s.sets.foldl (fun s (part, bg, m) =>
    let ts := s.members part bg m
    if s.bounds.any (fun b => decide (b.part = part ∧ b.bg = bg ∧ b.mset = m)) || !s.boundReady ts then s
    else
      let dies := ((ts.flatMap (·.pages)).map (· / 40)).eraseDups
      let far := ts.any Task.reaches
      let wait := (if dies.length ≤ 1 && !far then 120 else 300) + (if far then Config.latDevice else 0) + (if ts.any Task.keeps then 160 else 0)
      { s with bounds := s.bounds ++ [{ part := part, bg := bg, mset := m, due := s.cycle + wait }] }) s

/-- The copies of a list whose versions commit: copy B of a pair is dropped (R247). -/
def committing (ts : List Task) : List Task := ts.filter fun t => !(t.dual.isSome && t.copyB)

/-- Have both copies issued the same effects, unit by unit (R247)? -/
def sameOps (t u : Task) : Bool :=
  let of := fun (x : Task) (src : Nat) => (x.dualOps.filter fun o => decide (o.src = src)).map (·.ops)
  ((t.dualOps ++ u.dualOps).map (·.src)).all fun src => decide (of t src = of u src)

/-- The first dual-run pair among tasks whose signatures or effects differ (R247). -/
def State.mismatchIn (s : State) (ts : List Task) : Option (Task × Task) :=
  ts.findSome? fun t =>
    if t.copyB then none
    else
      match s.partner t with
      | none => none
      | some u => if s.signature t = s.signature u ∧ sameOps t u = true then none else some (t, u)

/-- The collectives that ended members of a set have issued match none of the next superstep (R364). -/
def State.dropColls (s : State) (part mset : Nat) : State :=
  { s with tasks := s.tasks.map fun (k, t) => if t.part = part ∧ t.mset = some mset ∧ t.state = .ended then (k, { t with colls := [] }) else (k, t) }

/-- A group boundary completes for its members (R311, R312, R320, R247). -/
def State.groupBoundary (s : State) (b : Bound) : State :=
  let ts := s.members b.part b.bg b.mset
  let s0 : State := { s with bounds := s.bounds.filter fun x => decide (x ≠ b) }
  if !s.boundReady ts then s0
  else
    match s.mismatchIn ts with
    | some (t, u) => s0.dualFail t u
    | none =>
      let tids := ts.map (·.tid)
      match s.commitHeld b.part (committing ts) tids with
      | some s1 => { s1 with bounds := s1.bounds.map fun x => if x = b then { x with due := s.cycle + 1 } else x }
      | none => (((ts.foldl State.finishStep (s0.commit b.part (committing ts) tids)).takeSeals b.part (committing ts)).dropSectors b.part tids).dropColls
          b.part b.mset

/-- GROUP_BOUNDARY (R311). -/
def execVGroupBoundary (s : State) : Res :=
  match s.focus.ev with
  | .groupBoundary part bg =>
    .next ((s.bounds.filter fun b => decide (b.part = part ∧ b.bg = bg ∧ b.due ≤ s.cycle)).foldl State.groupBoundary s)
  | _ => .next s

end Sys2Proof.Machine
end

