-- ==== Sys2Proof/Machine/Loader.lean ====
section
/-! DEFINITION. The loader: configuration images (03 R89 to R92) with their checks in the order of R79 and R480 (01 R13, 05 R135 to R149, 06
R157, 08 R207 to R222), folding (R228, R229), graph images (R93, 10 R255, R262), and the refusal record (R80, R81). -/
namespace Sys2Proof.Machine

/-- A refusal record (R80). -/
structure Refuse where
  reason : Nat
  plane : Nat := 3
  page : Nat := 0
  core : Nat := 0
  sched : Nat := 0
  slot : Nat := 0
  index : Nat := 0
  field : Nat := 0
  deriving DecidableEq, Repr

/-- The sixteen bytes of a refusal record (R80). -/
def Refuse.bits (r : Refuse) : BitVec 128 :=
  BitVec.ofNat 128 (r.reason + r.plane * 2 ^ 8 + r.page * 2 ^ 16 + r.core * 2 ^ 24 + r.sched * 2 ^ 32 + r.slot * 2 ^ 40
    + r.index * 2 ^ 48 + r.field * 2 ^ 64)

/-- A fault when a condition holds. -/
def refuseIf (c : Bool) (r : Refuse) : Option Refuse := if c then some r else none

/-- n bytes at an offset, little-endian (R9). -/
def leAt (bs : List Byte) (off n : Nat) : Nat := leNat ((bs.drop off).take n)

/-- A page record of an image, as its bytes (R90). -/
structure ImgPage where
  raw : List Byte
  deriving DecidableEq, Repr

def ImgPage.u (g : ImgPage) (off n : Nat) : Nat := leAt g.raw off n
def ImgPage.mode (g : ImgPage) : Nat := g.u 0 1
def ImgPage.ring (g : ImgPage) : Nat := g.u 1 1
def ImgPage.ii (g : ImgPage) : Nat := g.u 2 1
def ImgPage.stages (g : ImgPage) : Nat := g.u 3 1
def ImgPage.n (g : ImgPage) : Nat := g.u 6 2
def ImgPage.mask (g : ImgPage) (c j : Nat) : Bool := (g.u 8 16).testBit (16 * c + j)
def ImgPage.wimm (g : ImgPage) (i : Nat) : Nat := g.u (0x40 + 4 * i) 4
def ImgPage.entry (g : ImgPage) (c i : Nat) : Nat := g.u (0x140 + 512 * c + 8 * i) 8
def ImgPage.konst (g : ImgPage) (c i : Nat) : Nat := g.u (0x1140 + 256 * c + 64 * i) 64
def ImgPage.portByte (g : ImgPage) (p i : Nat) : Nat := g.u (0x1940 + 136 * p + i) 1
def ImgPage.portOn (g : ImgPage) (p : Nat) : Bool := (g.portByte p 0).testBit 0
def ImgPage.portOut (g : ImgPage) (p : Nat) : Bool := (g.portByte p 0).testBit 1
def ImgPage.win (g : ImgPage) (p k : Nat) : BitVec 512 := BitVec.ofNat 512 (g.u (0x1940 + 136 * p + 8 + 64 * k) 64)
def ImgPage.hasWin (g : ImgPage) (p : Nat) : Bool := decide (g.win p 0 ≠ 0 ∨ g.win p 1 ≠ 0)
def ImgPage.vInit (g : ImgPage) (c j : Nat) : Nat := g.u (0x1D80 + 576 * c + 64 * j) 64
def ImgPage.sInit (g : ImgPage) (c j : Nat) : Nat := g.u (0x1D80 + 576 * c + 512 + 8 * j) 8
def ImgPage.seqWord (g : ImgPage) (i : Nat) : W64 := BitVec.ofNat 64 (g.u (0x2F80 + 8 * i) 8)
/-- The operand type of a matrix page: ty of the SMAC in core 0's slot 0 of schedule A (R217). -/
def ImgPage.opType (g : ImgPage) : Nat := g.entry 0 0 % 8

/-- Length of a page record (R90). -/
def recLen (n : Nat) : Nat := (0x2F80 + 8 * n + 63) / 64 * 64

/-- A configuration image: pages, edges and weight sources (R89, R92). -/
structure Img where
  pages : List ImgPage
  edges : List Nat
  weights : List Nat
  deriving DecidableEq, Repr

/-- Edge fields (R92). -/
def edgeFrom (e : Nat) : Nat := e % 256
def edgeTo (e : Nat) : Nat := e / 2 ^ 8 % 256
def edgeSide (e : Nat) : Nat := e / 2 ^ 16 % 256
def edgeExtra (e : Nat) : Nat := e / 2 ^ 24 % 256
/-- Weight-source fields (R92). -/
def wsPage (e : Nat) : Nat := e % 256
def wsCore (e : Nat) : Nat := e / 2 ^ 8 % 256
def wsFirst (e : Nat) : Nat := e / 2 ^ 16 % 256
def wsCount (e : Nat) : Nat := e / 2 ^ 24 % 256
def wsImage (e : Nat) : Nat := e / 2 ^ 32 % 2 ^ 32
def wsOff (e : Nat) : Nat := e / 2 ^ 64 % 2 ^ 64

/-- The page records from the rest of an image; none when it ends early. -/
def takePages : Nat → List Byte → Option (List ImgPage × List Byte)
  | 0, bs => some ([], bs)
  | k + 1, bs =>
    let n := recLen (leAt bs 6 2)
    if bs.length < 64 ∨ bs.length < n then none
    else (takePages k (bs.drop n)).map fun (ps, r) => ({ raw := bs.take n } :: ps, r)

/-- k entries of n bytes as numbers. -/
def takeNums (n : Nat) : Nat → List Byte → List Nat
  | 0, _ => []
  | k + 1, bs => leNat (bs.take n) :: takeNums n k (bs.drop n)

/-- Step 1 of R79: the header, and the image's parts. -/
def parseImg (bs : List Byte) : Except Refuse Img :=
  let np := leAt bs 6 1
  if bs.length < 128 ∨ leAt bs 0 4 ≠ 0x4643344B ∨ leAt bs 4 2 ≠ 1 then .error { reason := 0x12 }
  else if np = 0 ∨ 16 < np then .error { reason := 0x0F }
  else if leAt bs 0x0A 6 ≠ 0 ∨ leAt bs 0x10 8 ≠ bs.length ∨ leAt bs 0x18 40 ≠ 0 ∨ leAt bs 0x70 16 ≠ 0 then .error { reason := 0x12 }
  else
    match takePages np (bs.drop 128) with
    | none => .error { reason := 0x12 }
    | some (ps, r) =>
      let ne := leAt bs 7 1
      let nw := leAt bs 8 2
      if r.length ≠ 8 * ne + 16 * nw then .error { reason := 0x12 }
      else .ok { pages := ps, edges := takeNums 8 ne r, weights := takeNums 16 nw (r.drop (8 * ne)) }

/-- The hash of an image with its 48 hash bytes taken as zero (R89, R93). -/
def imageHash (bs : List Byte) (off : Nat) : List Byte := sha384 (bs.take off ++ List.replicate 48 0 ++ bs.drop (off + 48))

/-- The library entry of a hash and kind (R444, R445). -/
def Part.libOf (x : Part) (kind : Byte) (h : List Byte) : Option LibE := x.lib.find? fun e => decide (e.kind = kind ∧ e.hash = h)

/-- Step 2 of R79 with R445: the entry, when every model image that the image names lists its signer. -/
def State.libHit (s : State) (part : Nat) (bs : List Byte) (img : Img) : Option LibE :=
  match (s.part part).libOf 0 (imageHash bs 0x40) with
  | none => none
  | some e =>
    if img.weights.all fun w => s.tum.models.any fun m => decide (m.part = part ∧ m.idx = wsImage w) &&
      (List.range 4).any fun j => decide ((m.header.drop (0x78 + 48 * j)).take 48 = e.signer) then some e else none

/-! Step 3: pages (R79, R90). -/

/-- The page header of a page record. R79 gives its checks no order among themselves: mode with a general page's reserved semiring byte, the ranges of II, S and
n, the reserved bytes, the semiring code, the initial values of registers that the mask leaves out (log 94). -/
def ImgPage.headFault (g : ImgPage) (p : Nat) : Option Refuse :=
  let at_ := fun r => some ({ reason := r, page := p } : Refuse)
  if 1 < g.mode ∨ (g.mode = 0 ∧ g.ring ≠ 0) then at_ 0x12
  else if g.ii = 0 ∨ 32 < g.ii ∨ g.stages = 0 ∨ 32 < g.stages ∨ 1024 < g.n then at_ 0x0F
  else if g.u 4 1 / 8 ≠ 0 ∨ g.u 5 1 ≠ 0 ∨ g.u 24 40 ≠ 0 ∨ leNat (g.raw.drop (0x2F80 + 8 * g.n)) ≠ 0 then at_ 0x12
  else if 4 < g.ring then at_ 0x0C
  else if (List.range 8).any fun c => (List.range 8).any fun j =>
    (!g.mask c j && decide (g.vInit c j ≠ 0)) || (!g.mask c (8 + j) && decide (g.sInit c j ≠ 0)) then at_ 0x12
  else none

/-- The static rules of REP (R157): the bodies' last indices still open, innermost first. -/
def repFault (n i : Nat) (w : SWord) (open_ : List Nat) : Bool × List Nat :=
  let still := open_.filter fun l => decide (i ≤ l)
  let last := i + fld w.imm 9 0
  (decide (n ≤ last) || still.any (fun l => decide (l < last)) || decide (4 ≤ still.length), last :: still)

/-- Sequencer words in ascending index (R75, R157, R209). -/
def ImgPage.seqFault (g : ImgPage) (p : Nat) : List Nat → List Nat → Option Refuse
  | [], _ => none
  | i :: is, open_ =>
    let w := g.seqWord i
    let op := w.toNat / 2 ^ 56
    let f := seqFields w
    let (badRep, open1) := if op = 0x20 then repFault g.n i f open_ else (false, open_)
    let extra := if op = 0x20 then faultIf badRep 6 0xE
      else if op = 0x21 ∧ p ≠ 0 then faultIf (decide (f.xa ≠ 0)) 3 0xE ++ faultIf (decide (f.mod ≠ 0)) 5 0xE ++ faultIf (decide (f.imm ≠ 0)) 6 0xE
      else []
    match firstFault (seqFaults op f ++ extra) with
    | some (fi, r) => some { reason := r, plane := 1, page := p, index := i, field := fi }
    | none => g.seqFault p is open1

/-- The matrix pages of an image, in region order. -/
def Img.matrix (m : Img) : List Nat := ((m.pages.zipIdx).filter fun (g, _) => decide (g.mode = 1)).map (·.2)
def Img.page (m : Img) (p : Nat) : ImgPage := m.pages.getD p { raw := [] }

/-- Does a word pop, push or skip a port of its page (R139)? -/
def takesPort (mode op : Nat) (w : EWord) : Option Nat :=
  if op = 0x63 ∨ op = 0x64 ∨ op = 0x65 then some w.a.toNat else if op = 0x73 ∧ mode = 0 then some 7 else none

/-- An element word of an image in its place. -/
structure LWord where
  page : Nat
  core : Nat
  sched : Bool
  slot : Nat
  stage : Nat
  op : Nat
  w : EWord
  deriving DecidableEq, Repr

/-- A word of a page's control table; index i counts schedule A's slots, then B's. -/
def ImgPage.lword (g : ImgPage) (p c i : Nat) : LWord :=
  let e := g.entry c i
  { page := p, core := c, sched := decide (32 ≤ i), slot := i % 32, stage := e / 2 ^ 40 % 32,
    op := e / 2 ^ 33 % 128, w := elemFields (BitVec.ofNat 40 e) }

def ImgPage.lwords (g : ImgPage) (p : Nat) : List LWord :=
  ((List.range 8).flatMap fun c => (List.range 64).map fun i => g.lword p c i).filter fun l => decide (l.op ≠ 0)

/-- Do two words conflict on a port: different cores, one port, issue in one cycle (R139)? -/
def portConflict (mode ii : Nat) (x y : LWord) : Bool :=
  match takesPort mode x.op x.w, takesPort mode y.op y.w with
  | some n, some k => decide (n = k ∧ x.core ≠ y.core ∧ (x.slot + x.core) % ii = (y.slot + y.core) % ii)
  | _, _ => false

/-- The faults of one control-table entry in the order of R79. before holds the page's words already passed. Nonzero bits [63:45] (R91) belong to no field of
R79's list and are reported first, with field 0 (log 94). A SMAC of a matrix page outside slot 0 breaks the slot rules (R144), one of a general page stands
at its op (R145). -/
def Img.entryFault (m : Img) (p c i : Nat) (before : List LWord) : Option Refuse :=
  let g := m.page p
  let e := g.entry c i
  let l := g.lword p c i
  let w := l.w
  let op := l.op
  let mat := decide (g.mode = 1)
  let place : Refuse := { reason := 0, plane := 0, page := p, core := c, sched := l.sched.toNat, slot := l.slot }
  let at_ := fun (r : Nat) (f : Nat) => some { place with reason := r, field := f }
  let target := m.matrix[c]?
  if e / 2 ^ 45 ≠ 0 then at_ 0x12 0
  else if (elemForm op).isNone then at_ 1 1
  else if (mat && decide (l.slot = 0 ∧ op ≠ 0x72)) || (op = 0x72 && !mat)
      || (op = 0x74 && mat) || ((op = 0x67 || op = 0x68) && mat) then at_ 2 1
  else if (decide ((if mat then 2 else g.ii) ≤ l.slot) && decide (op ≠ 0))
      || (mat && decide (l.slot = 1) && !(decide (op = 0 ∨ op = 0x70 ∨ op = 0x71 ∨ op = 0x73))) then at_ 6 0
  else
    let port := decide (op = 0x63 ∨ op = 0x64 ∨ op = 0x65 ∨ op = 0x66)
    let a := w.a.toNat
    let extra :=
      faultIf (port && mat && decide (a = 6 ∨ (a = 1 ∧ g.portOn 1 = true ∧ g.portOut 1 = false))) 3 2
        ++ faultIf (decide (a < 8) && g.portOn a && ((decide (op = 0x63) && g.portOut a) || (decide (op = 0x64) && !g.portOut a))) 3 2
        ++ (if op = 0x72 then
              faultIf (decide (a ≠ 43)) 3 2 ++ faultIf (decide (w.b ≠ 40)) 4 2 ++ faultIf (w.fwd.getLsbD 2) 6 2
                ++ faultIf (decide (w.ty.toNat ≠ g.opType)) 8 2 ++ faultIf (!ringAdmits g.ring w.ty.toNat) 8 0xC
            else [])
        ++ faultIf (decide (op = 0x74) && (match target with
            | some q => decide (w.ty.toNat ≠ (m.page q).opType)
            | none => false)) 8 2
    match firstFault ((elemFaults op w).filter (fun (f, _) => decide (f ≠ 1)) ++ extra) with
    | some (f, r) => at_ r f
    | none =>
      let other := g.lword p c l.slot
      if g.stages ≤ l.stage then at_ 7 9
      else if l.sched && decide (op ≠ 0 ∧ other.op ≠ 0 ∧ other.stage ≠ l.stage) then at_ 8 9
      else if op = 0x72 ∧ g.wimm i / 8 ≠ 0 then at_ 2 10
      else if op = 0x73 && !(g.portOn 7 && g.portOut 7) then at_ 2 0
      else if op = 0x74 && (match target with
        | none => true
        | some q => (m.page q).hasWin 0) then at_ 2 0
      else if before.any fun x => portConflict g.mode g.ii x l then at_ 2 0
      else none

/-- The control tables of a page: cores 0 to 7, schedule A, then B. -/
def Img.tableFault (m : Img) (p : Nat) : Option Refuse :=
  let ls := (m.page p).lwords p
  (List.range 512).findSome? fun k =>
    m.entryFault p (k / 64) (k % 64) (ls.filter fun l => decide (l.core * 64 + l.sched.toNat * 32 + l.slot < k))

/-- Port setups (R90, R222, R350). -/
def ImgPage.portFault (g : ImgPage) (p : Nat) : Option Refuse :=
  (List.range 8).findSome? fun n =>
    let bad := (1 < g.portByte n 0 / 2) || (List.range 7).any (fun i => decide (g.portByte n (1 + i) ≠ 0))
      || (!g.portOn n && decide (g.u (0x1940 + 136 * n) 136 ≠ 0))
      || (decide (g.mode = 1 ∧ n = 1) && g.portOn n && g.portOut n)
      || [0, 1].any fun k => decide (g.win n k ≠ 0) && patBad (g.win n k) false
    refuseIf bad { reason := 0x12, page := p }

def Img.pageFault (m : Img) (p : Nat) : Option Refuse :=
  let g := m.page p
  match g.headFault p with
  | some r => some r
  | none =>
    match g.seqFault p (List.range g.n) [] with
    | some r => some r
    | none =>
      match m.tableFault p with
      | some r => some r
      | none => g.portFault p

/-! Step 4: tables and the region (R92, R207, R480). -/

/-- The later page of the pair that an edge links, when it is well formed (R92, R207). -/
def edgePair (np e : Nat) : Option Nat :=
  if np ≤ edgeFrom e ∨ np ≤ edgeTo e ∨ 15 < edgeExtra e ∨ e / 2 ^ 32 ≠ 0 then none
  else if edgeSide e = 2 ∧ edgeTo e = edgeFrom e + 1 then some (edgeTo e)
  else if edgeSide e = 0 ∧ edgeFrom e = edgeTo e + 1 then some (edgeFrom e)
  else none

/-- D(p) of every page, 0 for page 0 (R208). -/
def Img.links (m : Img) : List Nat :=
  (List.range m.pages.length).map fun p =>
    match m.edges.find? fun e => decide (edgePair m.pages.length e = some p) with
    | some e => 1 + edgeExtra e
    | none => 0

def Img.edgeFault (m : Img) : Option Refuse :=
  m.edges.zipIdx.findSome? fun (e, i) =>
    let pair := edgePair m.pages.length e
    refuseIf (pair.isNone || (m.edges.take i).any fun x => decide (edgePair m.pages.length x = pair))
      { reason := 0x12, page := edgeFrom e, index := i }

def Img.weightFault (m : Img) : Option Refuse :=
  m.weights.zipIdx.findSome? fun (e, i) =>
    refuseIf (decide (m.pages.length ≤ wsPage e ∨ 7 < wsCore e ∨ 16 < wsFirst e + wsCount e ∨ 63 < wsImage e))
      { reason := 0x12, page := wsPage e, core := wsCore e, index := i }

/-- Does some FEED word feed matrix page q (R147, R218)? -/
def Img.fed (m : Img) (q : Nat) : Bool :=
  m.pages.zipIdx.any fun (g, p) => decide (g.mode = 0) && (g.lwords p).any fun l => decide (l.op = 0x74 ∧ m.matrix[l.core]? = some q)

/-- The region checks in their order (R480). A pair of pages without an edge (R207) is no fault of an entry and has no place in that order: it is reported before
the four checks, with page 0 (log 94). -/
def Img.regionFault (m : Img) : Option Refuse :=
  let g0 := m.page 0
  let ps := List.range m.pages.length
  let one := fun (r : Nat) (bad : Nat → Bool) => (ps.find? bad).map fun p => ({ reason := r, page := p } : Refuse)
  let mat := fun p => decide ((m.page p).mode = 1)
  let first := m.matrix.headD 0
  if (ps.drop 1).any fun p => decide (m.links.getD p 0 = 0) then some { reason := 0x12 }
  else
    (one 0x0F fun p => decide ((m.page p).ii ≠ g0.ii ∨ (m.page p).stages ≠ g0.stages)).or
      ((one 0x0F fun p => mat p && decide ((m.page p).ii ≠ 1)).or
        ((one 0x0C fun p => mat p && decide (p ≠ first) &&
            (!mat (p - 1) || decide ((m.page p).opType ≠ (m.page first).opType ∨ (m.page p).ring ≠ (m.page first).ring))).or
          (one 2 fun p => mat p &&
            ((let g := m.page p; g.portOn 0 && !g.portOut 0 && g.hasWin 0) == m.fed p))))

/-! Step 5: latency, steer and keyed data (R213 to R216, R148). -/

/-- How the words of an image lie in time: folded or not, the physical II, and D of each virtual page (R208, R210, R229). -/
structure Lay where
  fold : Bool
  ii : Nat
  links : List Nat
  deriving DecidableEq, Repr

/-- δ of the page that holds a virtual page (R208). -/
def Lay.delta (y : Lay) (p : Nat) : Nat :=
  if y.fold then ((List.range (p / 2)).map fun j => y.links.getD (2 * j + 2) 0).sum
  else ((List.range p).map fun j => y.links.getD (j + 1) 0).sum

/-- Issue slot of a word (R213, R229). -/
def Lay.slot (y : Lay) (mat : Nat → Bool) (l : LWord) : Nat :=
  if mat l.page then 0 else if y.fold then 2 * l.slot + l.page % 2 else l.slot

/-- Skew of a word's core. -/
def Lay.skew (y : Lay) (l : LWord) : Nat := l.core + y.delta l.page

/-- The input that side X of a core feeds: page, core, its side, hop delay (R212, R229). -/
def Lay.hop (y : Lay) (p c side : Nat) : Option (Nat × Nat × Nat × Nat) :=
  if side = 1 then (if c < 7 then some (p, c + 1, 3, 1) else none)
  else if side = 3 then (if 0 < c then some (p, c - 1, 1, 1) else none)
  else
    let q := if side = 2 then p + 1 else p
    if (side = 0 ∧ p = 0) ∨ y.links.length ≤ q then none
    else
      let d := if y.fold ∧ q % 2 = 1 then 1 else y.links.getD q 0
      some (if side = 2 then p + 1 else p - 1, c, 2 - side, d)

/-- A write to a location: page, core and place (a static or scalar code, 8 for the rotating registers, 40 + side for links, 44 + side for
tokens), latency plus hop delay, and the register's code. -/
structure LWrite where
  loc : Nat × Nat × Nat
  cost : Nat
  code : Nat
  deriving DecidableEq, Repr

/-- What a word writes and forwards, with its latencies (R70, R142, R145, R213). -/
def Lay.writes (y : Lay) (l : LWord) : List LWrite :=
  match elemForm l.op with
  | none => []
  | some f =>
    let d := l.w.d.toNat
    let reg : List LWrite :=
      if f.d = 1 ∧ (d < 40 ∨ (48 ≤ d ∧ d < 56)) then
        [{ loc := (l.page, l.core, if 8 ≤ d ∧ d < 40 then 8 else d), cost := f.lat, code := d }] else []
    let send := fun (side base lat : Nat) => (match y.hop l.page l.core side with
      | none => ([] : List LWrite)
      | some (p, c, t, h) => [{ loc := (p, c, base + t), cost := lat + h, code := 0 }])
    let base := if f.d = 1 ∧ 44 ≤ d ∧ d < 56 then 44 else 40
    let sides := (List.range 4).filter fun x => l.w.fwd.getLsbD (3 - x) || (decide (f.d = 1 ∧ 40 ≤ d ∧ d < 48) && decide ((d - 40) % 4 = x))
    reg ++ (sides.flatMap fun x => send x base f.lat) ++ (if l.op = 0x72 then send 1 40 1 else [])

/-- Locations that a word reads, with their codes. -/
def LWord.reads (l : LWord) : List ((Nat × Nat × Nat) × Nat) :=
  ((srcCodes l.op l.w).filter fun n => decide (n < 56)).map fun n => ((l.page, l.core, if 8 ≤ n ∧ n < 40 then 8 else n), n)

/-- Does a pair (P, C) at one location break R213? -/
def Lay.late (y : Lay) (mat : Nat → Bool) (pw : LWord) (x : LWrite) (cw : LWord) (code : Nat) : Bool :=
  let int := fun (n : Nat) => (n : Int)
  let k := int (y.skew cw) - int (y.skew pw)
  let base := (int cw.stage - int pw.stage) * int y.ii + int (y.slot mat cw) - int (y.slot mat pw) + k
  let cross := decide (pw.sched ≠ cw.sched)
  if x.loc.2.2 = 8 then
    let ring := if y.fold then 16 else 32
    let om := int ((code + ring - x.code % ring) % ring) - (int cw.stage - int pw.stage)
    if cross && decide (om = 0) then false
    else decide (om < 0 ∨ base + om * int y.ii < int x.cost)
  else
    let lo : Int := if cross then 1 else 0
    let need := (int y.ii - base) / int y.ii
    let om := max lo need
    decide (base + om * int y.ii < int x.cost)

/-- Place of a STEER's condition in the interval (R215). -/
def Lay.steerAt (y : Lay) (mat : Nat → Bool) (l : LWord) : Nat := (y.slot mat l + 2 * y.skew l) % y.ii

/-- Links that can hold a keyed beat (R216): the first marks, then what WLD words pass on. -/
def Lay.marks0 (y : Lay) (m : Img) : List (Nat × Nat × Nat) :=
  (m.pages.zipIdx.flatMap fun (g, p) => (List.range g.n).flatMap fun i =>
    let w := g.seqWord i
    let f := seqFields w
    if w.toNat / 2 ^ 56 = 0x42 ∧ f.imm.getLsbD 31 = false then
      ((List.range 8).filter fun c => f.imm.getLsbD (4 + c)).filterMap fun c =>
        (y.hop p c (if f.imm.getLsbD 30 then 2 else 1)).map fun (q, d, t, _) => (q, d, t)
    else []).eraseDups

def Lay.marksFrom (y : Lay) (ls : List LWord) : Nat → List (Nat × Nat × Nat) → List (Nat × Nat × Nat)
  | 0, ms => ms
  | fuel + 1, ms =>
    let more := ls.flatMap fun l =>
      if l.op = 0x70 ∧ 40 ≤ l.w.a.toNat ∧ l.w.a.toNat < 44 ∧ ms.contains (l.page, l.core, l.w.a.toNat - 40) = true then
        ((List.range 4).filter fun x => l.w.fwd.getLsbD (3 - x)).filterMap fun x => (y.hop l.page l.core x).map fun (q, d, t, _) => (q, d, t)
      else []
    let next := (ms ++ more).eraseDups
    if next.length = ms.length then ms else y.marksFrom ls fuel next

/-- The cross-word checks of R79 step 5: the first consumer word at fault, and there latency, steer, keyed data in this order. -/
def Lay.crossFault (y : Lay) (m : Img) : Option Refuse :=
  let mat := fun p => decide ((m.page p).mode = 1)
  let ls := m.pages.zipIdx.flatMap fun (g, p) => g.lwords p
  let ws := ls.flatMap fun l => (y.writes l).map fun x => (l, x)
  let marks := y.marksFrom ls 512 (y.marks0 m)
  let steers := ls.filter fun l => decide (l.op = 0x2D)
  let ord := fun (l : LWord) => ((l.page * 8 + l.core) * 2 + l.sched.toNat) * 32 + l.slot
  ls.findSome? fun l =>
    let at_ := fun r => some ({ reason := r, plane := 0, page := l.page, core := l.core, sched := l.sched.toNat, slot := l.slot } : Refuse)
    let g := m.page l.page
    if l.reads.any fun (loc, code) => ws.any fun (p, x) => decide (x.loc = loc) && y.late mat p x l code then at_ 9
    else if l.op = 0x2D && (decide (15 < y.skew l) || steers.any fun q => decide (ord q < ord l ∧ (q.page ≠ l.page ∨ q.core ≠ l.core)
        ∧ y.steerAt mat q = y.steerAt mat l)) then at_ 0xA
    else if l.op ≠ 0x70 && (l.reads.any (fun (loc, code) => decide (40 ≤ code ∧ code < 44) && marks.contains (loc.1, loc.2.1, code - 40))
        || (decide (l.op = 0x63 ∨ l.op = 0x64 ∨ l.op = 0x65) && [0, 1].any fun k =>
          decide (g.win l.w.a.toNat k ≠ 0 ∧ patCls (g.win l.w.a.toNat k) = 3))) then at_ 0xB
    else none

/-- The layout of an image as it stands, and folded. -/
def Img.lay (m : Img) : Lay := { fold := false, ii := (m.page 0).ii, links := m.links }
def Img.foldLay (m : Img) : Lay := { fold := true, ii := 2 * (m.page 0).ii, links := m.links }

/-- Steps 3 to 5 of R79. -/
def Img.fault (m : Img) : Option Refuse :=
  match (List.range m.pages.length).findSome? m.pageFault with
  | some r => some r
  | none =>
    match m.edgeFault with
    | some r => some r
    | none =>
      match m.weightFault with
      | some r => some r
      | none =>
        match m.regionFault with
        | some r => some r
        | none => m.lay.crossFault m

/-- The whole check of a configuration image for a partition (R79): the image and its library entry, or the refusal record. -/
def State.checkImage (s : State) (part : Nat) (bs : List Byte) : Except Refuse (Img × LibE) :=
  match parseImg bs with
  | .error r => .error r
  | .ok m =>
    match s.libHit part bs m with
    | none => .error { reason := 0x11 }
    | some e =>
      match m.fault with
      | some r => .error r
      | none => .ok (m, e)

/-! Folding (R228, R229). -/

/-- Register codes that a word names in its used fields (R72). -/
def LWord.names (l : LWord) : List Nat :=
  match elemForm l.op with
  | none => []
  | some f => (if f.d = 1 then [l.w.d.toNat] else []) ++ srcCodes l.op l.w

/-- The names that a folded page may use: v0 to v3, s0 to s3, v8 to v23 and everything that is no register (R228). -/
def foldName (n : Nat) : Bool := decide (n < 4 ∨ (8 ≤ n ∧ n < 24) ∨ (40 ≤ n ∧ n < 52) ∨ 56 ≤ n)

/-- The words of a program that meet other pages: KRUN by its opcode, LSYNC, SSEND and HALT whole (R228). -/
def ImgPage.meetings (g : ImgPage) : List Nat :=
  (List.range g.n).filterMap fun i =>
    let w := (g.seqWord i).toNat
    let op := w / 2 ^ 56
    if op = 0x21 then some op else if op = 0x31 ∨ op = 0x30 ∨ op = 0x24 then some w else none

/-- The words of a program with an opcode. -/
def ImgPage.seqOps (g : ImgPage) (op : Nat) : List SWord :=
  ((List.range g.n).filter fun i => decide ((g.seqWord i).toNat / 2 ^ 56 = op)).map fun i => seqFields (g.seqWord i)

/-- Does a page use a port: enabled by its record, or named by a SPSET or WIN of its program (R172, R228)? -/
def ImgPage.portUsed (g : ImgPage) (n : Nat) : Bool :=
  g.portOn n || (g.seqOps 0x62).any (fun w => decide (fld w.imm 2 0 = n)) || (g.seqOps 0x63).any fun w => decide (fld w.mod 2 0 = n)

/-- Does a page's program name only statics s0 to s3 of its cores (R171, R228)? -/
def ImgPage.lowStatics (g : ImgPage) : Bool :=
  (g.seqOps 0x64 ++ g.seqOps 0x65).all fun w => decide (fld w.mod 2 0 < 4)

/-- Can an image be folded (R228)? The loader declines, as it may, an image in whose pairs a register of the core is shared for good: unlike
initial cfr, WRCTL, SDRN on an odd page; it also keeps R139 (log 12). -/
def Img.canFold (m : Img) : Bool :=
  let np := m.pages.length
  let words := m.pages.zipIdx.flatMap fun (g, p) => g.lwords p
  decide ((m.page 0).ii ≤ 16) && m.matrix.isEmpty
    && (words.all fun l => l.names.all foldName && decide (l.op ≠ 0x76) && !(decide (l.op = 0x73 ∧ l.page % 2 = 1)))
    && ((List.range np).all fun p => (m.page p).lowStatics && (List.range 8).all fun c =>
      (List.range 16).all fun j => decide (j % 8 < 4) || !(m.page p).mask c j)
    && ((List.range (np / 2)).all fun j =>
      let a := m.page (2 * j)
      let b := m.page (2 * j + 1)
      let used := fun (p c i : Nat) => words.any fun l => decide (l.page = p ∧ l.core = c) && l.names.contains (60 + i)
      decide (b.meetings.length = b.n ∧ a.meetings = b.meetings) && decide (a.u 4 1 = b.u 4 1)
        && decide (((List.range 8).filter a.portUsed).length + ((List.range 8).filter b.portOn).length ≤ 8)
        && (List.range 8).all fun c => (List.range 4).all fun i =>
          !(used (2 * j) c i && used (2 * j + 1) c i) || decide (a.konst c i = b.konst c i))
    && words.all (fun x => words.all fun z => !(decide (x.page = z.page) &&
      portConflict 0 (2 * (m.page 0).ii) { x with slot := 2 * x.slot } { z with slot := 2 * z.slot }))
    && (m.foldLay.crossFault m).isNone

/-- A register code of an odd page renamed (R229). -/
def foldCode (n : Nat) : Nat := if n < 4 then n + 4 else if 8 ≤ n ∧ n < 24 then n + 16 else if 48 ≤ n ∧ n < 52 then n + 4 else n

/-- The port that port n of an odd page becomes: its enabled ports take the ports that the even page does not use, then the others (R229). -/
def foldPort (a b : ImgPage) (n : Nat) : Nat :=
  let free := (List.range 8).filter fun k => !a.portUsed k
  let mine := (List.range 8).filter b.portOn ++ (List.range 8).filter fun k => !b.portOn k
  free.getD (mine.idxOf n) n

/-- An element word of an odd page rewritten (R229). -/
def foldWord (a b : ImgPage) (e : Nat) : Nat :=
  let op := e / 2 ^ 33 % 128
  let w := elemFields (BitVec.ofNat 40 e)
  match elemForm op with
  | none => 0
  | some f =>
    let x := BitVec.ofNat 45 e
    let x1 := if f.d = 1 then setFld x 32 27 (foldCode w.d.toNat) else x
    let x2 := if f.a = 1 then setFld x1 26 21 (foldCode w.a.toNat) else if f.a = 2 then setFld x1 26 21 (foldPort a b w.a.toNat) else x1
    let x3 := if f.b = 1 then setFld x2 20 15 (foldCode w.b.toNat) else x2
    let x4 := if f.c = 2 ∨ (f.c = 1 ∧ w.vm = 3) then setFld x3 14 9 (foldCode w.c.toNat) else x3
    x4.toNat

/-! Writing pages (R236, R90). -/

/-- The eight ports of a page record. -/
def ImgPage.ports (g : ImgPage) : List Port :=
  (List.range 8).map fun n =>
    { en := g.portOn n, out := g.portOut n,
      win0 := { pat := g.win n 0, fresh := decide (g.win n 0 ≠ 0) }, win1 := { pat := g.win n 1, fresh := decide (g.win n 1 ≠ 0) } }

/-- An item of the even page, or at 4 and above of the odd page of a pair. -/
def pickOf {α : Type} (a : ImgPage) (b : Option ImgPage) (f : ImgPage → Nat → α) (j : Nat) : α :=
  match b with
  | some g => if 4 ≤ j then f g (j - 4) else f a j
  | none => f a j

/-- The registers that an image sets in a core; statics of the odd page of a pair stand at 4 to 7. -/
def loadCore (a : ImgPage) (b : Option ImgPage) (used : Nat → Bool) (c : Nat) (fold : Bool) (ctab : List (BitVec 45)) : Core :=
  let vreg := fun (g : ImgPage) j => ({ lanes := BitVec.ofNat 512 (g.vInit c j), valid := 0xFFFF } : VReg)
  let sreg := fun (g : ImgPage) j => ({ val := BitVec.ofNat 64 (g.sInit c j) } : SReg)
  { v := (List.range 8).map (pickOf a b vreg) ++ List.replicate 32 {}
    s := (List.range 8).map (pickOf a b sreg)
    k := (List.range 4).map fun i => BitVec.ofNat 512 (match b with
      | some g => if used i then g.konst c i else a.konst c i
      | none => a.konst c i)
    fold := fold
    ctab := ctab
    cfr := BitVec.ofNat 32 (a.u 4 1) }

/-- The configuration of region page j: one page record, or two folded (R229). Everything else of the page is as a load leaves it. -/
def Img.load (m : Img) (fold : Bool) (j : Nat) : Page :=
  let a := m.page (if fold then 2 * j else j)
  let b := if fold then m.pages[2 * j + 1]? else none
  let ii := if fold then 2 * a.ii else a.ii
  let table := fun (f : Nat → Nat → Option Nat) => (List.range 64).map fun i =>
    (match f (i / 32) (i % 32) with
    | some e => e
    | none => 0)
  let ctab := fun (c : Nat) => (table fun sch s =>
    if !fold then some (a.entry c (32 * sch + s))
    else if s % 2 = 0 then some (a.entry c (32 * sch + s / 2))
    else b.map fun g => foldWord a g (g.entry c (32 * sch + s / 2))).map (BitVec.ofNat 45)
  let wimm := (table fun sch s =>
    if !fold then some (a.wimm (32 * sch + s))
    else if s % 2 = 0 then some (a.wimm (32 * sch + s / 2)) else b.map fun g => g.wimm (32 * sch + s / 2)).map (BitVec.ofNat 32)
  let ports := a.ports.zipIdx.map fun (x, n) => if fold then { x with orig := some (2 * j, n) } else x
  let ports2 := match b with
    | none => ports
    | some g => (List.range 8).foldl (fun ps n =>
        if g.portOn n then ps.set (foldPort a g n) { g.ports.getD n {} with orig := some (2 * j + 1, n) } else ps) ports
  let used := fun (c i : Nat) => match b with
    | none => false
    | some g => (g.lwords 0).any fun l => decide (l.core = c) && l.names.contains (60 + i)
  { mode := decide (a.mode = 1)
    ring := a.ring
    ii := ii
    stages := a.stages
    nwords := a.n
    seqMem := (List.range a.n).map a.seqWord
    wimm := wimm
    wload := wimm
    ports := ports2
    cores := (List.range 8).map fun c => loadCore a b (used c) c fold (ctab c) }

/-- Extra latencies of the region's links as placed: D(p) of region page p (R208). -/
def Img.physLinks (m : Img) (fold : Bool) : List Nat :=
  if fold then (List.range ((m.pages.length + 1) / 2)).map fun j => m.links.getD (2 * j) 0 else m.links

/-! Graph images (R93, R83, R262). -/

/-- A check of LOOP and ENDL words: for each word the bodies that hold it, given from the image's start (R262). -/
def loopPairs : List (Nat × Nat) → List Nat → Option (List (Nat × Nat))
  | [], open_ => if open_.isEmpty then some [] else none
  | (i, op) :: r, open_ =>
    if op = 0x12 then (if 8 ≤ open_.length then none else loopPairs r (i :: open_))
    else if op = 0x13 then
      match open_ with
      | [] => none
      | o :: os => (loopPairs r os).map fun ps => (o, i) :: ps
    else loopPairs r open_

/-- The first word at fault in the pairing of LOOP and ENDL (R262): an ENDL without a LOOP, a ninth level, or a LOOP without an ENDL. -/
def loopFault (ops : List (Nat × Nat)) : Option Nat :=
  let go := ops.foldl (fun ((bad, open_) : Option Nat × List Nat) (i, op) =>
    match bad with
    | some b => (some b, open_)
    | none =>
      if op = 0x12 then (if 8 ≤ open_.length then (some i, open_) else (none, i :: open_))
      else if op = 0x13 then
        match open_ with
        | [] => (some i, [])
        | _ :: os => (none, os)
      else (none, open_)) (none, [])
  match go.1 with
  | some i => some i
  | none => go.2.getLast?

/-- Does a branch from word i to word t enter a body from outside other than at its LOOP (R262)? -/
def badBranch (pairs : List (Nat × Nat)) (i t : Nat) : Bool :=
  pairs.any fun (l, e) => decide (l < t ∧ t ≤ e) && !decide (l < i ∧ i ≤ e)

/-- The words of a graph image, or its refusal record (R83, R93, R255, R262); a LOOP or ENDL without a partner comes after its word's own fields
(R79). -/
def State.checkGraph (s : State) (part : Nat) (bs : List Byte) : Except Refuse (List W64) :=
  let n := leAt bs 8 4
  let bad : Refuse := { reason := 0x22, plane := 2 }
  if bs.length < 64 ∨ leAt bs 0 4 ≠ 0x5247344B ∨ leAt bs 4 2 ≠ 1 ∨ leAt bs 6 2 ≠ 0 ∨ n = 0 ∨ leAt bs 12 4 ≠ 0
      ∨ bs.length ≠ 64 + 8 * n then .error bad
  else
    let h := imageHash bs 16
    if (bs.drop 16).take 48 ≠ h ∨ ((s.part part).libOf 1 h).isNone then .error bad
    else
      let ws := (takeNums 8 n (bs.drop 64)).map (BitVec.ofNat 64)
      let ops := ws.zipIdx.map fun (w, i) => (i, w.toNat / 2 ^ 58)
      let pairs := (loopPairs ops []).getD []
      let loopAt := loopFault ops
      let one := fun ((w, i) : W64 × Nat) =>
        let op := w.toNat / 2 ^ 58
        let f := graphFields w
        let target := f.imm.toNat
        let jump := decide ((op = 0x10 ∨ op = 0x11) ∧ (n ≤ target ∨ badBranch pairs i target = true))
        ((firstFault (graphFaults op f ++ faultIf jump 6 0x21)).or (if loopAt = some i then some (0, 0x21) else none)).map
          fun (fi, r) => ({ reason := r, plane := 2, index := i, field := fi } : Refuse)
      match ws.zipIdx.findSome? one with
      | some r => .error r
      | none => .ok ws

end Sys2Proof.Machine
end

