-- ==== Sys2Proof/Machine/Tasks.lean ====
section
/-! DEFINITION. Tasks: the task record and the checks of a launch (09 R230 to R233, R245), queues and selection (R237 to R240), leases
(R235), the image check (R482), placement (R242 to R244), loading (R236, 08 R224) and the end of a task (R246, 18 R374). -/
namespace Sys2Proof.Machine

/-! The task record (R230). -/

/-- A task record from its 256 bytes; none when a fixed field is malformed (status 0x30, R233). -/
def parseTask (bs : List Byte) : Option TaskRec :=
  let u := leAt bs
  let carry := (List.range 4).map fun i => (u (0x48 + 8 * i) 4, u (0x4C + 8 * i) 4)
  let trips := u 0x38 8
  let n := fun i => trips / 2 ^ (16 * i) % 65536
  if bs.length ≠ 256 ∨ u 0 4 ≠ 0x4B54344B ∨ u 4 2 ≠ 1 ∨ 3 < u 6 1 ∨ 15 < u 7 1 ∨ u 0x10 8 % 8 ≠ 0 ∨ 128 < u 0x18 2
      ∨ (u 0x1A 1).testBit 6 = true ∨ 256 < u 0x1C 2 ∨ 256 < u 0x1B 1 + u 0x1C 2 ∨ 1 < u 0x1F 1 ∨ u 0x20 8 % 65536 ≠ 0
      ∨ u 0x28 8 % 65536 ≠ 0 ∨ u 0x28 8 = 0 ∨ u 0x44 4 ≠ 0 ∨ u 0x68 24 ≠ 0
      ∨ (carry.any fun (o, z) => decide (o % 128 ≠ 0 ∨ z % 128 ≠ 0 ∨ 0x80000 < o + z)) = true then none
  else
    some { prio := u 6 1, flags := BitVec.ofNat 8 (u 7 1), config := BitVec.ofNat 64 (u 8 8), wtab := BitVec.ofNat 64 (u 0x10 8),
           wcount := u 0x18 2, bg := BitVec.ofNat 8 (u 0x1A 1), evbase := u 0x1B 1, evcount := u 0x1C 2, cev := u 0x1E 1,
           cflags := BitVec.ofNat 8 (u 0x1F 1), lbase := BitVec.ofNat 64 (u 0x20 8), lsize := BitVec.ofNat 64 (u 0x28 8),
           tco := BitVec.ofNat 64 (u 0x30 8), trips := BitVec.ofNat 64 (n 0 + n 1 * 2 ^ 16 + n 2 * 2 ^ 32 + n 3 * 2 ^ 48),
           pdl := BitVec.ofNat 32 (u 0x40 4), carry := carry.filter fun c => decide (c.2 ≠ 0),
           param := (List.range 16).map fun i => BitVec.ofNat 64 (u (0x80 + 8 * i) 8) }

/-- Trip count j of a record (R230). -/
def TaskRec.trip (r : TaskRec) (j : Nat) : Nat := fld r.trips (16 * j + 15) (16 * j)
def TaskRec.instances (r : TaskRec) : Nat := r.trip 0 * r.trip 1 * r.trip 2 * r.trip 3

/-- Tile coordinate of the instance with a linear index (R232). -/
def TaskRec.tcoAt (r : TaskRec) (k : Nat) : W64 :=
  let i0 := k % r.trip 0
  let i1 := k / r.trip 0 % r.trip 1
  let i2 := k / (r.trip 0 * r.trip 1) % r.trip 2
  let i3 := k / (r.trip 0 * r.trip 1 * r.trip 2)
  let c := fun j i => (fld r.tco (16 * j + 15) (16 * j) + i) % 65536
  BitVec.ofNat 64 (c 0 i0 + c 1 i1 * 2 ^ 16 + c 2 i2 * 2 ^ 32 + c 3 i3 * 2 ^ 48)

/-- A window table entry; none when malformed (R231, R233). -/
def parseWin (bs : List Byte) : Option WinEntry :=
  let pat := BitVec.ofNat 512 (leAt bs 8 64)
  if 7 < leAt bs 1 1 ∨ 1 < leAt bs 2 1 ∨ leAt bs 3 5 ≠ 0 ∨ patBad pat false = true then none
  else some { page := leAt bs 0 1, port := leAt bs 1 1, win := decide (leAt bs 2 1 = 1), pat := pat }

/-- The pieces of a range as a context reads it for itself, as a record or by a fetch (R301). -/
def State.ctxPlaces (s : State) (w : Who) (k : Access) (va : W64) (n : Nat) : List (Except Deny (Loc × Nat)) :=
  (pieces (n / 65536 + 2) va n).map fun (a, m) =>
    if spaceOf a ≠ .translated then Except.error dUnmapped
    else
      match s.place w k false a with
      | .error e => .error e
      | .ok (.peer c x) => .ok (Loc.peer c (s.resolve w.home (BitVec.ofNat 64 x)).toNat, m)
      | .ok (.hbm d pa _) => .ok (Loc.hbm d pa, m)

/-- Does an uncorrectable error spoil a read of bytes at a location past every L1 (R289, R390)? -/
def State.badLoc (s : State) (l : Loc) (n : Nat) : Bool :=
  match l with
  | .hbm d pa => s.errs.any fun e => (linesOf pa n).any fun x => s.badLine e d (x / 4)
  | _ => false

/-- Bytes that a context reads for itself as a record or by a fetch (R301): committed bytes, or the refusal; integrity comes last (R304, R390). -/
def State.ctxRead (s : State) (w : Who) (k : Access) (va : W64) (n : Nat) : Except Deny (List Byte) :=
  let ps := s.ctxPlaces w k va n
  let ok := ps.filterMap Except.toOption
  match firstDeny ps with
  | some e => .error e
  | none => if ok.any fun (l, m) => s.badLoc l m then .error dIntegrity else .ok (ok.flatMap fun (l, m) => s.committedLoc l m)

/-- The requests of such a read at the home L2s (R282, R342, R343, R345); a page that refuses gets none. -/
def State.ctxTouch (s : State) (w : Who) (k : Access) (va : W64) (n : Nat) : State :=
  ((s.ctxPlaces w k va n).filterMap Except.toOption).foldl (fun s (l, m) => (s.touchL2 w va [(l, m, none)]).1) s

/-- The Pintle of a die as requester for a context (R409). -/
def pintleWho (part tenant die : Nat) : Who := { part := part, tenant := tenant, home := die, die := die, port := 14 }

/-- Does a range lie outside the partition's address space (R233 status 0x31)? -/
def State.outside (s : State) (home : Nat) (va : W64) (n : Nat) : Bool :=
  decide (0x800000000000 < va.toNat % 2 ^ 48 + n) || (match s.owning home (va.toNat / 2 ^ 48) with
    | .ok _ => false
    | .error _ => true)

/-! Pages of a partition on a die. -/

def State.ownsCluster (s : State) (part d c : Nat) : Bool := (s.partDie part d).part.getLsbD c
def State.clustersOf (s : State) (part d : Nat) : List Nat := (List.range 10).filter (s.ownsCluster part d)
def State.pageFree (s : State) (p : Nat) : Bool := (s.page p).owner.isNone
def clusterPages (d c : Nat) : List Nat := (List.range 4).map fun q => d * 40 + c * 4 + q
def State.freePages (s : State) (part d : Nat) : List Nat := ((s.clustersOf part d).flatMap (clusterPages d)).filter s.pageFree

/-- Pages that a launch's region needs at least: the header's page count, halved when folding is permitted (R233). -/
def needPages (r : TaskRec) (p : Nat) : Nat := if r.flags.getLsbD 1 then (p + 1) / 2 else p

/-- Page count of the image header, read for the launch; none when the fetch is refused or the header is malformed (R482). -/
def State.headPages (s : State) (w : Who) (r : TaskRec) : Option Nat :=
  match s.ctxRead w .fetch r.config 128 with
  | .error _ => none
  | .ok bs =>
    if leAt bs 0 4 ≠ 0x4643344B ∨ leAt bs 4 2 ≠ 1 ∨ leAt bs 6 1 = 0 ∨ 16 < leAt bs 6 1 then none else some (leAt bs 6 1)

/-- The window table of a record: its entries, none for malformed ones; or the refusal of the read (R231, R233). -/
def State.readWins (s : State) (w : Who) (r : TaskRec) : Except Deny (Option (List WinEntry)) :=
  if r.wtab = 0 then .ok (some [])
  else (s.ctxRead w .record r.wtab (72 * r.wcount)).map fun x => (List.range r.wcount).mapM fun i => parseWin ((x.drop (72 * i)).take 72)

/-- The die of copy B of a dual-run pair: the lowest-numbered one above copy A's, mod 4, on which the partition owns a cluster, else copy A's (R247). -/
def State.copyDie (s : State) (part die : Nat) : Nat :=
  ((((List.range 3).map fun i => (die + 1 + i) % 4).filter fun d => !(s.clustersOf part d).isEmpty).headD die)

/-- Pages that n instances of a launch take on a die at once, launched on another (R244, R245, R247). -/
def State.demand (s : State) (part die x n : Nat) (r : TaskRec) (pages : Nat) : Nat :=
  let need := needPages r pages
  let one := if r.flags.getLsbD 0 then (need + 3) / 4 * 4 else need
  n * one * ((if x = die then 1 else 0) + if r.flags.getLsbD 2 ∧ x = s.copyDie part die then 1 else 0)

/-- Does the partition own too few pages for launches that must find pages at once, each given by its instances, record and page count (R233, R245)? -/
def State.crowded (s : State) (part die : Nat) (ls : List (Nat × TaskRec × Nat)) : Bool :=
  (List.range 4).any fun x => decide (4 * (s.clustersOf part x).length < (ls.map fun (n, r, p) => s.demand part die x n r p).sum)

/-- A launch that passes its checks: record, window table, page count (0 when unknown). -/
structure Launched where
  rcd : TaskRec
  wins : List WinEntry
  pages : Nat
  deriving DecidableEq, Repr

/-- The checks of a launch in ascending status (R233); ev: the events of the instance's grant (R251). A window table in pages that refuse the read is not
checked here and has no entries yet (log 88). -/
def State.launchCheck (s : State) (part tenant die evbase evcount : Nat) (bs : List Byte) : Except Nat Launched :=
  match parseTask bs with
  | none => .error 0x30
  | some r =>
    if (List.range 4).any (fun j => decide (r.trip j = 0)) || decide (65536 < r.instances) then .error 0x30
    else
      let w := pintleWho part tenant die
      match (s.readWins w r).toOption.getD (some []) with
      | none => .error 0x30
      | some wins =>
          let pd := (s.partDie part die).part
          let np := (s.headPages w r).getD 0
          if s.outside die r.lbase r.lsize.toNat || s.outside die r.config 1 || (decide (r.wtab ≠ 0) && s.outside die r.wtab (72 * r.wcount)) then
            .error 0x31
          else if (decide (r.evcount ≠ 0) && decide (r.evbase < evbase ∨ evbase + evcount < r.evbase + r.evcount))
              || (r.cflags.getLsbD 0 && decide (r.cev < evbase ∨ evbase + evcount ≤ r.cev))
              || (r.bg.getLsbD 7 && decide (fld r.bg 5 0 < fld pd 21 16 ∨ fld pd 21 16 + fld pd 28 22 ≤ fld r.bg 5 0)) then .error 0x32
          else if s.crowded part die [(if r.bg.getLsbD 7 then r.instances else 1, r, np)] then .error 0x33
          else if 65536 ≤ (s.tasks.filter fun (_, t) => decide (t.part = part ∧ t.inst.die = die ∧ t.state = .queued ∧ t.copyB = false)).length then
            .error 0x34
          else .ok { rcd := r, wins := wins, pages := np }

/-! Queues (R237). -/

/-- The record level: 0 counts as 1 unless the tenant's p0 is set (R237, R239). -/
def State.recLevel (s : State) (part tenant prio : Nat) : Nat :=
  if prio = 0 ∧ ((s.part part).schw.getD tenant 0).getLsbD 8 = false then 1 else prio

/-- Does a task wait in a queue: queued, or saved and to be selected again (R234)? -/
def Task.waits (t : Task) : Bool := decide (t.state = .queued ∨ t.state = .saved)

/-- The queue of a partition's level and tenant on a Pintle, in order. -/
def State.queueOf (s : State) (part die level tenant : Nat) : List Task :=
  let q := (s.tasks.map (·.2)).filter fun t =>
    decide (t.part = part ∧ t.inst.die = die ∧ t.level = level ∧ t.tenant = tenant ∧ t.waits = true)
  q.foldl (fun l t => (l.filter fun x => decide (x.qpos ≤ t.qpos)) ++ t :: l.filter fun x => decide (t.qpos < x.qpos)) []

/-- Places behind the last and before the first of a queue. -/
def State.backPos (s : State) (part die level tenant : Nat) : Int :=
  match (s.queueOf part die level tenant).getLast? with
  | none => 0
  | some t => t.qpos + 1
def State.headPos (s : State) (part die level tenant : Nat) : Int :=
  match (s.queueOf part die level tenant).head? with
  | none => 0
  | some t => t.qpos - 1

/-- A task returns to the head of its tenant's queue at its record level, and its aging starts again (R237). -/
def State.requeue (s : State) (t : Task) : State :=
  let l := s.recLevel t.part t.tenant t.rcd.prio
  let pos := s.headPos t.part t.inst.die l t.tenant
  s.modTask t.tid fun t => { t with level := l, qpos := pos, qsince := s.cycle, agedAt := s.cycle }

/-- One instance queued; a dual-run record makes two copies (R232, R247). set: the member set with the instance's index in it. -/
def State.enqueueOne (s : State) (l : Launched) (part tenant : Nat) (inst : InstRef) (num k : Nat) (set : Option (Nat × Nat × Nat)) : State :=
  let level := s.recLevel part tenant l.rcd.prio
  let base : Task :=
    { tid := s.nextTid, part := part, tenant := tenant, rcd := l.rcd, wins := l.wins, tco := l.rcd.tcoAt k, inst := inst
      launch := num, mset := set.map (·.1), midx := (set.map (·.2.1)).getD 0, mcount := (set.map (·.2.2)).getD 1, level := level
      qpos := s.backPos part inst.die level tenant, qsince := s.cycle, agedAt := s.cycle, die := inst.die, npages := l.pages
      fused := l.rcd.flags.getLsbD 0 }
  if l.rcd.flags.getLsbD 2 then
    let a := { base with dual := some (s.nextTid + 1) }
    let b := { base with tid := s.nextTid + 1, dual := some s.nextTid, copyB := true, qpos := base.qpos + 1, die := s.copyDie part inst.die }
    { ((s.setTask a).setTask b) with nextTid := s.nextTid + 2 }
  else { s.setTask base with nextTid := s.nextTid + 1 }

/-- All instances of a launch queued in ascending linear index (R232). -/
def State.enqueue (s : State) (l : Launched) (part tenant : Nat) (inst : InstRef) (num : Nat) (set : Option (Nat × Nat × Nat)) : State :=
  (List.range l.rcd.instances).foldl (fun s k =>
    s.enqueueOne l part tenant inst num k (set.map fun (m, first, count) => (m, first + k, count))) s

/-! Selection (R238). -/

def State.sched (s : State) (part die : Nat) : Sched := (s.part part).sched.getD die {}
def State.modSched (s : State) (part die : Nat) (f : Sched → Sched) : State := s.modPart part fun p => { p with sched := modAt p.sched die f }
def State.weight (s : State) (part tenant : Nat) : Nat := fld ((s.part part).schw.getD tenant 0) 7 0
def State.quantum (s : State) (part : Nat) : Nat := 2 ^ fld (s.part part).schq 4 0

/-- Is the tenant at its limit of one selection unit in a state, lease-wait or page-wait, at a level (R238)? -/
def State.atLimit (s : State) (part die level tenant : Nat) (st : TState) : Bool :=
  s.tasks.any fun (_, t) => decide (t.part = part ∧ t.inst.die = die ∧ t.level = level ∧ t.tenant = tenant ∧ t.state = st)

/-- May the head of a tenant's queue be selected (R237, R238)? A saved task goes on to page-wait, a queued one to lease-wait (R234). -/
def State.selectable (s : State) (part die level tenant : Nat) : Bool :=
  decide (s.weight part tenant ≠ 0) && (match (s.queueOf part die level tenant).head? with
    | none => false
    | some h => !s.atLimit part die level tenant (if h.state = .saved then .pageWait else .leaseWait))

/-- The rounds of R238 at one level: the selected tenant. -/
def selectLoop (weight : Nat → Nat) (q : Nat) (empty ok : Nat → Bool) : Nat → Nat → List Int → Option (Nat × List Int)
  | 0, _, _ => none
  | fuel + 1, t, d =>
    let next := (t + 1) % 16
    if weight t = 0 then selectLoop weight q empty ok fuel next d
    else if empty t then selectLoop weight q empty ok fuel next (d.set t 0)
    else if !ok t then selectLoop weight q empty ok fuel next d
    else if 0 < d.getD t 0 then some (t, d)
    else selectLoop weight q empty ok fuel next (d.set t (d.getD t 0 + (weight t * q : Nat)))

/-- The lowest level with a selectable task. -/
def State.selectLevel (s : State) (part die : Nat) : Option Nat :=
  (List.range 4).find? fun l => (List.range 16).any (s.selectable part die l)

/-- The tasks that enter lease-wait with the selected head: its member set, its dual-run partner (R238, R245, R247). -/
def State.unitOf (s : State) (t : Task) : List Task :=
  let mine := (s.tasks.map (·.2)).filter fun u =>
    decide (u.tid = t.tid ∨ u.dual = some t.tid) || (decide (t.mset.isSome ∧ u.mset = t.mset ∧ u.part = t.part ∧ t.restore = false ∧ u.restore = false))
  mine.filter Task.waits

/-- TASK_SELECT (R237, R238): a queued unit enters lease-wait; a saved task's image is checked again, and page-wait follows (R234, R482). -/
def execVTaskSelect (s : State) : Res :=
  match s.focus.ev with
  | .taskSelect die part =>
    match s.selectLevel part die with
    | none => .next s
    | some l =>
      let sc := s.sched part die
      let q := s.quantum part
      let worst := sc.deficit.foldl (fun m d => max m d.natAbs) 0
      match selectLoop (s.weight part) q (fun t => (s.queueOf part die l t).isEmpty) (s.selectable part die l)
          (16 * (worst / q + 3)) (sc.ptr.getD l 0) sc.deficit with
      | none => .next s
      | some (t, d) =>
        let s1 := s.modSched part die fun c => { c with deficit := d, ptr := c.ptr.set l t }
        match (s.queueOf part die l t).head? with
        | none => .next s1
        | some h => .next ((s.unitOf h).foldl (fun s u =>
            if u.state = .saved then s.later (.event (.imageCheck u.tid))
            else s.modTask u.tid fun u => { u with state := .leaseWait, memSince := s.cycle, leaseOk := u.leaseOk && u.restore }) s1)
  | _ => .next s

/-- TASK_AGING (R237). -/
def execVTaskAging (s : State) : Res :=
  match s.focus.ev with
  | .taskAging tid =>
    match s.task tid with
    | none => .next s
    | some t =>
      if t.waits = true ∧ 1 < t.level ∧ t.agedAt + 2 ^ 20 ≤ s.cycle then
        let pos := s.backPos t.part t.inst.die (t.level - 1) t.tenant
        .next (s.modTask tid fun t => { t with level := t.level - 1, qpos := pos, agedAt := t.agedAt + 2 ^ 20 })
      else .next s
  | _ => .next s

/-- The charge of a task up to this cycle (R238). -/
def State.charge (s : State) (t : Task) : State :=
  let used := (s.heldPages t.tid).length * (s.cycle - t.charged)
  (s.modSched t.part t.inst.die fun c => { c with deficit := modAt c.deficit t.tenant fun d => d - (used : Nat) }).modTask t.tid
    fun t => { t with charged := s.cycle }

/-- DEFICIT_CHARGE (R238), with the slice end of R240. -/
def execVDeficitCharge (s : State) : Res :=
  match s.focus.ev with
  | .deficitCharge tid =>
    match s.task tid with
    | none => .next s
    | some t =>
      if t.state ≠ .running ∨ s.cycle < t.charged + 2 ^ 16 then .next s
      else
        let s1 := s.charge t
        let d := (s1.sched t.part t.inst.die).deficit.getD t.tenant 0
        let past := decide (d < -((s.weight t.part t.tenant * s.quantum t.part : Nat) : Int))
        let rival := (List.range 16).any fun u => decide (u ≠ t.tenant) && s.selectable t.part t.inst.die t.level u
        .next (if past && rival && t.preqAt.isNone then s1.later (.event (.preemptRequest tid 1)) else s1)
  | _ => .next s

/-- Pages that a task takes at least when it is placed: whole clusters when fused, half when it may be folded (R228, R244). -/
def Task.leastPages (t : Task) : Nat :=
  let n := match parseImg t.img.bytes with
    | .ok m => (m.physLinks (if t.restore then t.img.folded else t.rcd.flags.getLsbD 1 && m.canFold)).length
    | .error _ => t.npages
  if t.fused then (n + 3) / 4 * 4 else n

/-- Tasks that leave page-wait together (R245, R247). -/
def State.gang (s : State) (t : Task) : List Task :=
  (s.tasks.map (·.2)).filter fun u =>
    decide (u.state ≠ .ended) && (decide (u.tid = t.tid ∨ u.dual = some t.tid) ||
      (decide (t.mset.isSome ∧ u.mset = t.mset ∧ u.part = t.part) && !t.restore && !u.restore && decide (u.state ≠ .running ∧ u.state ≠ .ending)))

/-- Running tasks of a partition on a die at levels above a level, in the order in which R240 stops them. -/
def State.preyOf (s : State) (part die level : Nat) : List Task :=
  let before := fun (a b : Task) => decide (b.level < a.level ∨ (a.level = b.level ∧ b.startSeq < a.startSeq))
  ((s.tasks.map (·.2)).filter fun u => decide (u.part = part ∧ u.die = die ∧ u.state = .running ∧ level < u.level)).foldl
    (fun l u => (l.filter fun x => !before u x) ++ u :: l.filter (before u)) []

/-- PRIORITY_PREEMPT (R240): a task that has waited unplaceable for 2^14 cycles, with all that it is placed with, stops tasks of higher levels, highest
level first, newest first, until on every die the pages suffice. -/
def execVPriorityPreempt (s : State) : Res :=
  match s.focus.ev with
  | .priorityPreempt tid =>
    match s.task tid with
    | none => .next s
    | some t =>
      if t.state ≠ .pageWait ∨ s.cycle < t.memSince + 2 ^ 14 then .next s
      else
        let gang := s.gang t
        let dies := (gang.map (·.die)).eraseDups
        let need := fun d => max 1 ((gang.filter fun u => decide (u.die = d)).map Task.leastPages).sum
        let free := fun d => (s.freePages t.part d).length
        let total := fun d => free d + ((s.preyOf t.part d t.level).map fun u => (s.heldPages u.tid).length).sum
        if dies.any fun d => decide (total d < need d) then .next s
        else
          .next (dies.foldl (fun s1 d => ((s.preyOf t.part d t.level).foldl (fun ((s1, got) : State × Nat) u =>
            if need d ≤ got then (s1, got)
            else
              let s2 := if u.preqAt.isNone then s1.later (.event (.preemptRequest u.tid 0)) else s1
              (s2, got + (s.heldPages u.tid).length)) (s1, free d)).1) s)
  | _ => .next s

/-! Ends (R246, R374). -/

/-- A freed page keeps its scratchpads and L1 lines; weights and keyed banks are cleared (R32, R281). -/
def Core.cleared (k : Core) : Core :=
  let sp := k.sp.filter fun (a, _) => !k.ckb.getLsbD (a / 65536)
  { sp := sp, l1 := k.l1 }

def Page.freed (pg : Page) : Page :=
  { lastHash := pg.lastHash, lastPart := pg.lastPart, lastRp := pg.lastRp, cores := pg.cores.map Core.cleared }

/-- The record of a region page in an image's layout: what a page that held it need not be written again (R236, log 90). -/
def recordId (rp : Nat) (fold : Bool) : Nat := rp + 16 * fold.toNat

/-- TLB entries that leases name: die, partition, tenant and virtual page in one number. -/
def pinKey (d part tenant vpn : Nat) : Nat := ((d * 16 + part) * 16 + tenant) * 2 ^ 32 + vpn

/-- Entries that the graph leases of a die's instances pin (R266). -/
def State.graphPins (s : State) (d : Nat) : List Nat :=
  (s.die d).insts.flatMap fun g => g.leases.flatMap fun (_, b, z) =>
    match s.owning d (b.toNat / 2 ^ 48) with
    | .ok (.inl e) => (List.range (z.toNat / 65536)).map fun i => pinKey e g.part g.tenant ((b.toNat / 65536 + i) % 2 ^ 32)
    | _ => []

/-- Pins given up; an entry stays pinned while another task or a graph lease pins it (R235, R266). -/
def State.dropPins (s : State) (keys : List Nat) (but : Nat) : State :=
  let still := ((s.tasks.map (·.2)).flatMap fun u => if u.tid = but ∨ u.state = .ended then [] else u.pins)
    ++ (List.range 4).flatMap s.graphPins
  { s with dies := s.dies.zipIdx.map fun (x, d) =>
      { x with tlb := x.tlb.map fun e =>
          let key := pinKey d e.part e.tenant e.vpn
          if keys.contains key && !still.contains key then { e with pinned := false } else e } }

/-- One instance of a launch has ended: the launcher's counts follow (R259). A dual-run pair counts once, by copy A. -/
def State.countEnd (s : State) (t : Task) (bad : Bool) : State :=
  if t.copyB ∨ (s.inst t.inst.die t.inst.slot).gen ≠ t.inst.gen then s
  else s.modInst t.inst.die t.inst.slot fun g =>
    { g with faults := g.faults.filter (fun x => decide (x ≠ t.tid))
             launches := g.launches.map fun l => if l.num = t.launch then { l with left := l.left - 1, bad := l.bad + bad.toNat } else l }

/-- A task gives up everything it holds and is ended (R246): waits, claims, pins, version, pages. -/
def State.release1 (s : State) (t : Task) (bad : Bool) : State :=
  let s1 := if t.state = .running ∨ t.state = .ending ∨ t.state = .loading then s.charge t else s
  let s2 := t.claims.foldl (fun s (d, i) => s.release d i) (s1.dropWaits t.tid t.part)
  let s3 := (s2.heldPages t.tid).foldl (fun s p => s.modPage p fun pg =>
    let pg1 := if t.fused then { pg with cores := pg.cores.map fun k => { k with l1 := [] } } else pg
    { pg1.freed with lastHash := if bad || !t.pages.contains p then [] else imageHash t.img.bytes 0x40, lastPart := t.part
                     lastRp := recordId pg.rp t.img.folded }) ((s2.dropPins t.pins t.tid).emptyL1s t)
  let keep : Task :=
    { tid := t.tid, part := t.part, tenant := t.tenant, rcd := t.rcd, tco := t.tco, inst := t.inst, launch := t.launch
      mset := t.mset, midx := t.midx, mcount := t.mcount, state := .ended, dual := t.dual, copyB := t.copyB, endTrap := bad
      frozenAt := t.frozenAt, exit := t.exit, colls := t.colls }
  ((s3.setTask keep).dropSectors t.part [t.tid]).countEnd t bad

/-- The completion event of a task, signalled at its end when its record asks for it; once for a dual-run pair (R246, R247). -/
def State.signalEnd (s : State) (t : Task) : State := if t.rcd.cflags.getLsbD 0 then s.signal t.part t.rcd.cev 1 else s

/-- A task, with its dual-run partner, ends without a commit, by the other steps of R246 (R377 end, R374). -/
def State.endTask (s : State) (tid : Nat) : State :=
  match s.task tid with
  | none => s
  | some t =>
    if t.state = .ended then s
    else
      let s1 := (s.release1 t true).signalEnd t
      match t.dual with
      | none => s1
      | some k =>
        match s1.task k with
        | none => s1
        | some u => if u.state = .ended then s1 else s1.release1 u true

/-- The stage that does not map a translated address for a task (R416); 0 when none is at fault. -/
def State.stageOf (s : State) (t : Task) (va : W64) : Nat :=
  match s.resolved (t.home.getD t.die) (va.toNat / 2 ^ 48) with
  | .ok (.inl d) =>
    (match s.translate d t.part t.tenant (va.toNat / 65536 % 2 ^ 32) with
    | .error st => st
    | .ok _ => 0)
  | _ => 0

/-- A trap record reaches its handlers (R374, R375): copies to the levels, for a page that stage 2 does not map to the operator as well
(R416); it waits in the instance's fault queue for 2^24 cycles when the
instance has issued a FAULTRD, else the task ends at once. -/
def State.postTrap (s : State) (t : Task) (r : TrapRec) : State :=
  let (op, le) := r.cause.copies
  let unmapped := decide (r.cause.cls = 2 ∧ r.cause.code = 2 ∧ s.stageOf t r.cause.addr = 2)
  let s1 := s.report t.part (op || unmapped) le r
  let g := s1.inst t.inst.die t.inst.slot
  if g.live ∧ g.gen = t.inst.gen ∧ g.frdSeen then
    (s1.modTask t.tid fun t => { t with trap := some r, trapRead := false, deadline := some (s.cycle + 2 ^ 24), frozenAt := s.cycle }).modInst
      t.inst.die t.inst.slot fun g => { g with faults := g.faults ++ [t.tid] }
  else s1.endTask t.tid

/-- The load-refusal record of a task (R80, R370). -/
def State.refuseLoad (s : State) (t : Task) (r : Refuse) : State :=
  s.postTrap t
    { cause := { cls := 4, code := 1, page := r.page, info := r.bits }, tid := t.tid, ctag := t.ctag, tco := t.tco, cycle := s.cycle }

/-! Leases (R235). -/

/-- The residence of a range for a context: the combined entries with their owning dies, or the stage that maps nothing (3: the POT refuses); a
range of another device is resident there (log 6). -/
def State.residence (s : State) (part tenant home : Nat) (base : W64) (size : Nat) : Except Nat (List (Nat × TlbE)) :=
  (List.range (size / 65536)).foldlM (fun acc i =>
    let va := base + BitVec.ofNat 64 (65536 * i)
    match s.owning home (va.toNat / 2 ^ 48) with
    | .error _ => .error 1
    | .ok (.inr _) => .ok acc
    | .ok (.inl d) =>
      match s.walk d part tenant (va.toNat / 65536 % 2 ^ 32) with
      | .error st => .error st
      | .ok e =>
        match s.localDie (e.out / 2 ^ 32) with
        | none => .ok (acc ++ [(d, e)])
        | some t =>
          match s.potAt t (e.out % 2 ^ 32 * 65536) with
          | none => .error 3
          | some p => if p.owner = part then .ok (acc ++ [(d, e)]) else .error 3) []

/-- Entries enter the TLBs of their dies, pinned while the die's budget of 16,384 pins lasts (R235, R396). -/
def State.pin (s : State) (es : List (Nat × TlbE)) : State :=
  es.foldl (fun s (d, e) =>
    let same := fun (y : TlbE) => decide (y.part = e.part ∧ y.tenant = e.tenant ∧ y.vpn = e.vpn)
    if ((s.die d).tlb.filter fun y => y.pinned && !same y).length < 16384 then
      (s.modDie d fun x => { x with tlb := x.tlb.filter fun y => !same y }).tlbAdd d { e with pinned := true }
    else s) s

/-- The smallest interval of addresses that holds the elements of a pattern: where it starts and its length (R303, R348). -/
def patSpan (p : BitVec 512) : W64 × Nat :=
  let reach := fun j => (((patCount p j - 1 : Nat) : Int) * (patStride p j).toInt)
  let low := ((List.range 4).map fun j => min 0 (reach j)).sum
  let high := ((List.range 4).map fun j => max 0 (reach j)).sum
  if patN p = 0 then (patBase p, 0) else (patBase p + BitVec.ofInt 64 low, (high - low).toNat + patEsz p)

/-- The pages of a lease that a task pins: those that its windows' intervals reach, in table order, at most 512 (R303). -/
def State.windowPages (s : State) (t : Task) (es : List (Nat × TlbE)) : List (Nat × TlbE) :=
  t.wins.foldl (fun acc w =>
    let (a, n) := patSpan w.pat
    let first := (s.resolve (t.home.getD t.die) a).toNat / 65536
    let count := if n = 0 then 0 else ((s.resolve (t.home.getD t.die) a).toNat % 65536 + n + 65535) / 65536
    (List.range (min count 1024)).foldl (fun acc i =>
      match es.find? fun (d, e) => decide (s.dieField d * 2 ^ 32 + e.vpn = first + i) with
      | some x => if acc.length < 512 ∧ acc.contains x = false then acc ++ [x] else acc
      | none => acc) acc) []

/-- A lease fault of a stage (R235, R417): its record goes to the lessee, for stages 2 and 3 to the operator as well. -/
def State.leaseReport (s : State) (part tenant tid : Nat) (stage : Nat) : State :=
  s.report part (decide (2 ≤ stage)) true
    { cause := { cls := 2, code := 4, core := 0xFF, info := BitVec.ofNat 128 stage }, tid := tid, ctag := 16 * part + tenant, cycle := s.cycle }

/-- Does a graph lease of the task's instance hold the whole lease (R266)? -/
def State.graphLease (s : State) (t : Task) : Bool :=
  let home := t.home.getD t.die
  let g := s.inst t.inst.die t.inst.slot
  g.gen = t.inst.gen && g.leases.any fun (_, b, z) => s.inLease home b z t.rcd.lbase t.rcd.lsize.toNat

/-- LEASE_RESIDENT (R235): every page of the lease is walked, and those of the task's windows are pinned (R303); a page that a stage does not map, or the POT
refuses, raises a lease fault. -/
def execVLeaseResident (s : State) : Res :=
  match s.focus.ev with
  | .leaseResident tid =>
    match s.task tid with
    | none => .next s
    | some t =>
      if t.state ≠ .leaseWait ∨ t.leaseOk = true ∨ t.leaseFault.isSome = true then .next s
      else
        let home := t.home.getD t.die
        match s.residence t.part t.tenant home t.rcd.lbase t.rcd.lsize.toNat with
        | .error st =>
          if s.graphLease t then .next (s.modTask tid fun t => { t with leaseOk := true })
          else .next ((s.modTask tid fun t => { t with leaseFault := some st }).leaseReport t.part t.tenant tid st)
        | .ok es =>
          let w := pintleWho t.part t.tenant home
          let t1 := if t.wins.length = t.rcd.wcount ∨ t.rcd.wtab = 0 then t else { t with wins := ((s.readWins w t.rcd).toOption.join).getD [] }
          let s1 := if t1.wins = t.wins then s else s.ctxTouch w .record t.rcd.wtab (72 * t.rcd.wcount)
          let ws := s.windowPages t1 es
          .next ((s1.pin ws).modTask tid fun t =>
            { t with leaseOk := true, wins := t1.wins, pins := ws.map fun (d, e) => pinKey d e.part e.tenant e.vpn })
  | _ => .next s

/-! The image check (R482). -/

/-- The bytes of a task's image, read once; no image is longer than 2^21 bytes. -/
def State.readImage (s : State) (t : Task) : Except Deny (List Byte) := do
  let w := pintleWho t.part t.tenant (t.home.getD t.die)
  let h ← s.ctxRead w .fetch t.rcd.config 128
  s.ctxRead w .fetch t.rcd.config (max 128 (min (leAt h 0x10 8) (2 ^ 21)))

/-- The window-table rules that need the image (R231, R482). -/
def winFault (m : Img) (ws : List WinEntry) : Option Refuse :=
  ws.zipIdx.findSome? fun (e, i) =>
    refuseIf (decide (m.pages.length ≤ e.page) || !(m.page e.page).portOn e.port) { reason := 0x12, page := e.page, index := i }

/-- The refusal of a window table against the image, or of one that could not be read (R231, R482, log 88). -/
def Task.winRefuse (t : Task) (m : Img) : Option Refuse :=
  if t.rcd.wtab ≠ 0 ∧ t.wins.length ≠ t.rcd.wcount then some { reason := 0x12 } else winFault m t.wins

/-- IMAGE_CHECK (R482): with the lease resident, or for a saved task selected again, and the tenant's place in page-wait free (R238), the image is read
and checked; a refused image ends the task, an error in its bytes traps it (R390), an image that passes takes it to page-wait. -/
def execVImageCheck (s : State) : Res :=
  match s.focus.ev with
  | .imageCheck tid =>
    match s.task tid with
    | none => .next s
    | some t =>
      let full := s.tasks.any fun (_, u) => decide (u.part = t.part ∧ u.inst.die = t.inst.die ∧ u.level = t.level ∧ u.tenant = t.tenant
        ∧ u.state = .pageWait ∧ (t.mset = none ∨ u.mset ≠ t.mset) ∧ u.dual ≠ some tid)
      if ¬(t.state = .saved ∨ (t.state = .leaseWait ∧ t.leaseOk = true)) ∨ t.trap.isSome = true ∨ full = true then .next s
      else
        match s.readImage t with
        | .error d => .next (if d = dIntegrity then
            s.postTrap t { cause := { cls := 2, code := 7, core := 0xFF, flags := 8, addr := s.resolve (t.home.getD t.die) t.rcd.config }, tid := t.tid
                           ctag := t.ctag, tco := t.tco, cycle := s.cycle }
          else s.refuseLoad t { reason := 0x12 })
        | .ok bs =>
          let s1 := s.ctxTouch (pintleWho t.part t.tenant (t.home.getD t.die)) .fetch t.rcd.config bs.length
          match s.checkImage t.part bs with
          | .error r => .next (s1.refuseLoad t r)
          | .ok (m, e) =>
            match t.winRefuse m with
            | some r => .next (s1.refuseLoad t r)
            | none =>
              .next (s1.modTask tid fun t =>
                { t with state := .pageWait, memSince := s.cycle, npages := m.pages.length
                         img := { bytes := bs, signer := e.signer, folded := t.img.folded && t.restore } })
  | _ => .next s

/-! Placement (R242 to R244). -/

/-- Home cluster of a tile coordinate (R242). -/
def homeCluster (tco : W64) : Nat := (fld tco 15 0 + 3 * fld tco 31 16 + 7 * fld tco 47 32 + 9 * fld tco 63 48) % 10

/-- Clusters in ring order from home (R242). -/
def ringOrder (home : Nat) : List Nat := [0, 1, 9, 2, 8, 3, 7, 4, 6, 5].map fun k => (home + k) % 10

/-- Natural delay between two pages of a die (R243). -/
def natural (a b : Nat) : Nat := if a / 4 = b / 4 then (if a = b + 1 ∨ b = a + 1 then 1 else 2) else 4

/-- The next pages of a region after page prev, from a list of free pages, each link meeting its D (R243). -/
def placeRest (d : Nat) (order : List Nat) : List Nat → Nat → List Nat → Option (List Nat)
  | [], _, _ => some []
  | dl :: ds, prev, free =>
    let here := prev % 40 / 4
    let seq := (here :: order.filter fun c => decide (c ≠ here)).flatMap (clusterPages d)
    match seq.find? fun p => free.contains p && decide (natural prev p ≤ dl) with
    | none => none
    | some p => (placeRest d order ds p (free.erase p)).map (p :: ·)

/-- A placement of a region on a die for D(1), D(2), … (R242, R243), copies of a pair in different clusters (R247); fuse takes whole clusters
(R244). taken: pages given in this cycle, with their tasks. -/
def State.findPlace (s : State) (t : Task) (links : List Nat) (taken : List (Nat × Nat)) : Option (List Nat × List Nat) :=
  let d := t.die
  let order := (ringOrder (homeCluster t.tco)).filter (s.ownsCluster t.part d)
  let avoid := match s.partner t with
    | some u => if u.die = d then
        (u.pages ++ (taken.filter fun (x : Nat × Nat) => decide (x.1 = u.tid)).map Prod.snd).map fun p => p % 40 / 4 else []
    | none => []
  let clusters := order.filter fun c => !avoid.contains c
  let free := (clusters.flatMap (clusterPages d)).filter fun p => s.pageFree p && !taken.any fun x => decide (x.2 = p)
  if t.fused then
    let whole := clusters.filter fun c => (clusterPages d c).all free.contains
    let k := (links.length + 3) / 4
    if whole.length < k then none
    else
      let all := (whole.take k).flatMap (clusterPages d)
      let ps := all.take links.length
      if (List.range (ps.length - 1)).all fun i => decide (natural (ps.getD i 0) (ps.getD (i + 1) 0) ≤ links.getD (i + 1) 0) then some (ps, all)
      else none
  else
    clusters.findSome? fun c =>
      match (clusterPages d c).find? free.contains with
      | none => none
      | some p => (placeRest d clusters (links.drop 1) p (free.erase p)).map fun r => (p :: r, p :: r)

/-- A placement of a task, unfolded, or with mayFold folded when that is permitted and the search fails (R228, R243): fold, pages, all pages held. A task that
is restored keeps its layout. -/
def State.placeTask (s : State) (t : Task) (mayFold : Bool) (taken : List (Nat × Nat)) : Option (Bool × List Nat × List Nat) :=
  match parseImg t.img.bytes with
  | .error _ => none
  | .ok m =>
    if t.restore then (s.findPlace t (m.physLinks t.img.folded) taken).map fun (a, b) => (t.img.folded, a, b)
    else
      match s.findPlace t (m.physLinks false) taken with
      | some (a, b) => some (false, a, b)
      | none =>
        if mayFold && t.rcd.flags.getLsbD 1 && m.canFold then (s.findPlace t (m.physLinks true) taken).map fun (a, b) => (true, a, b) else none

/-- Bytes of a save slot, in whole 64 KiB pages (R382). -/
def slotBytes (pages : Nat) : Nat := (0x1000 + pages * 0x510000 + 65535) / 65536 * 65536

/-- The usable size of a partition's save area: 0 when a page of it is not class G of the partition (R382). The base is an address of tenant 0. -/
def State.saveSize (s : State) (part : Nat) : Nat :=
  let r := (s.part part).savearea
  let size := fld r 95 64 * 65536
  let base := BitVec.ofNat 64 (fld r 63 16 * 65536)
  if (List.range (fld r 95 64)).all fun i =>
    match s.place (pintleWho part 0 0) .any false (base + BitVec.ofNat 64 (65536 * i)) with
    | .ok (.hbm _ _ e) => decide (e.cls = 0)
    | _ => false then size else 0

/-- The physical pages of a range of the save area. -/
def State.slotPlaces (s : State) (part off n : Nat) : List (Nat × Nat) :=
  let base := BitVec.ofNat 64 (fld (s.part part).savearea 63 16 * 65536 + off)
  (List.range (n / 65536)).filterMap fun i =>
    match s.place (pintleWho part 0 0) .any false (base + BitVec.ofNat 64 (65536 * i)) with
    | .ok (.hbm d pa _) => some (d, pa / 65536)
    | _ => none

/-- A free slot of n bytes in the save area: the lowest place after the start or after another task's slot. -/
def State.findSlot (s : State) (part n : Nat) (mine : List (Nat × Nat)) : Option Nat :=
  let used := ((s.tasks.map (·.2)).filterMap fun t => if t.part = part then t.saveSlot else none) ++ mine
  let size := s.saveSize part
  let ok := fun (a : Nat) => decide (a + n ≤ size) && used.all fun (o, z) => decide (a + n ≤ o ∨ o + z ≤ a)
  ((0 :: used.map fun (o, z) => o + z).filter ok).foldl (fun m a => match m with
    | none => some a
    | some b => some (min a b)) none

/-- Does a page still hold the record that a load would write: it last held the same image's for the same partition, in the same layout, and that task ended
normally (R236)? -/
def State.written (s : State) (t : Task) (fold : Bool) (rp p : Nat) : Bool :=
  let pg := s.page p
  decide (pg.lastHash = imageHash t.img.bytes 0x40 ∧ pg.lastPart = t.part ∧ pg.lastRp = recordId rp fold)

/-- Beats of the weight-source table that the fullest physical page receives (R236 step 2). -/
def Img.beats (m : Img) (fold : Bool) : Nat :=
  (List.range 16).foldl (fun x rp =>
    max x ((m.weights.filter fun e => decide ((if fold then wsPage e / 2 else wsPage e) = rp)).map wsCount).sum) 0

/-- Time of the load of placed tasks (R236): per die four pages at a time in 3,200 cycles each, those that need no writing left out, then a weight beat per
page and cycle. A restore writes every page from its save slot (R383). -/
def State.loadTime (s : State) (l : List (Task × Bool × List Nat)) : Nat :=
  let fresh := l.flatMap fun (t, fold, ps) => (ps.zipIdx.filter fun (p, rp) => t.restore || !s.written t fold rp p).map (·.1)
  let slowest := (List.range 4).foldl (fun m d => max m ((fresh.filter fun p => decide (p / 40 = d)).length)) 0
  let beats := l.foldl (fun m (t, fold, _) => max m (match parseImg t.img.bytes with
    | .ok m => m.beats fold
    | .error _ => 0)) 0
  3200 * ((slowest + 3) / 4) + beats

/-- A task takes its pages and its save slot and is loading (R234, R382); clusters that it fuses invalidate their L1s (R244). -/
def State.takePages (s : State) (t : Task) (fold : Bool) (ps all : List Nat) (slot : Option (Nat × Nat)) (done : Nat) : State :=
  let links := match parseImg t.img.bytes with
    | .ok m => m.physLinks fold
    | .error _ => []
  let delta := (List.range ps.length).map fun p => ((links.take (p + 1)).drop 1).sum
  let s1 := all.foldl (fun s p => s.modPage p fun pg =>
    { pg with owner := some t.tid, cores := if t.fused then pg.cores.map (fun k => { k with l1 := [] }) else pg.cores }) s
  s1.modTask t.tid fun t =>
    { t with state := .loading, pages := ps, delta := delta, img := { t.img with folded := fold }, saveSlot := slot, loadDone := some done
             charged := s.cycle }

/-- Placements for a list of tasks, one after another. -/
def State.placeAll (s : State) (mayFold : Bool) : List Task → List (Nat × Nat) → List (Nat × Nat) → Option (List (Task × Bool × List Nat × List Nat × Option (Nat × Nat)))
  | [], _, _ => some []
  | t :: ts, taken, slots =>
    match s.placeTask t mayFold taken with
    | none => none
    | some (fold, ps, all) =>
      let n := slotBytes ps.length
      let slot : Option (Option (Nat × Nat)) :=
        if t.saveSlot.isSome then some t.saveSlot
        else if s.saveSize t.part = 0 then some none
        else (s.findSlot t.part n slots).map fun o => some (o, n)
      match slot with
      | none => none
      | some sl =>
        (s.placeAll mayFold ts (taken ++ all.map fun p => (t.tid, p)) (slots ++ sl.toList)).map ((t, fold, ps, all, sl) :: ·)

/-- Does a compaction of the partition still move tasks (R243)? -/
def State.compacting (s : State) (part : Nat) : Bool :=
  s.tasks.any fun (_, u) => decide (u.part = part ∧ u.state = .running ∧ u.preqAt.isSome = true ∧ u.preqCause % 4 = 2)

/-- The tasks that a compaction for a gang moves: running on its dies, at no level below its own, and savable; none when the partition has been compacted
within 2^20 cycles or its free pages on some die would not suffice even so (R243). -/
def State.compactable (s : State) (t : Task) (gang : List Task) : List Task :=
  let dies := (gang.map (·.die)).eraseDups
  let whole := fun (u : Task) => if u.fused then (u.npages + 3) / 4 * 4 else u.npages
  let due := match (s.part t.part).compacted with
    | none => true
    | some c => decide (c + 2 ^ 20 ≤ s.cycle)
  if due && dies.all fun d => decide (((gang.filter fun u => decide (u.die = d)).map whole).sum ≤ (s.freePages t.part d).length) then
    (s.tasks.map (·.2)).filter fun u =>
      decide (u.part = t.part ∧ dies.contains u.die = true ∧ u.state = .running ∧ t.level ≤ u.level ∧ u.preqAt = none ∧ u.saveSlot.isSome)
  else []

/-- Placed tasks start loading; all are done in one cycle (R236, R245). -/
def State.startLoad (s : State) (l : List (Task × Bool × List Nat × List Nat × Option (Nat × Nat))) : State :=
  let done := s.cycle + s.loadTime (l.map fun (u, fold, ps, _, _) => (u, fold, ps))
  l.foldl (fun s (u, fold, ps, all, sl) => s.takePages u fold ps all sl done) s

/-- REGION_PLACE (R242 to R245): a gang whose members all find pages starts loading; else the allocator may compact the partition, and when that is not
allowed or does not help the members are folded where they permit it (R243). -/
def execVRegionPlace (s : State) : Res :=
  match s.focus.ev with
  | .regionPlace tid =>
    match s.task tid with
    | none => .next s
    | some t =>
      let gang := s.gang t
      if t.state ≠ .pageWait ∨ (gang.all fun u => decide (u.state = .pageWait)) = false then .next s
      else
        match s.placeAll false gang [] [] with
        | some l => .next (s.startLoad l)
        | none =>
          if s.compacting t.part then .next s
          else
            match s.compactable t gang with
            | u :: us => .next ((u :: us).foldl (fun s u => s.later (.event (.preemptRequest u.tid 2)))
                (s.modPart t.part fun x => { x with compacted := some s.cycle }))
            | [] =>
              match s.placeAll true gang [] [] with
              | some l => .next (s.startLoad l)
              | none => .next s
  | _ => .next s

/-! Loading (R236, R224). -/

/-- 64 bytes of a model image at an offset: the O pages in image order; outside the image nothing is stated (log 5). -/
def State.imageBeat (s : State) (part image off : Nat) : List Byte × Bool :=
  match s.tum.models.find? fun m => decide (m.part = part ∧ m.idx = image) with
  | none => ((List.range 64).map fun i => Config.freeByte (s.free + i), false)
  | some m =>
    let bs := (List.range 64).map fun i => match m.pages[(off + i) / 65536]? with
      | some (d, p) => s.committed d (p * 65536 + (off + i) % 65536)
      | none => Config.freeByte (s.free + i)
    let bad := s.errs.any fun e => match e with
      | .hbm d a => m.pages.zipIdx.any fun ((x, p), k) => decide (x = d ∧ p = a / 65536 ∧ k * 65536 + a % 65536 / 512 * 512 < off + 64
          ∧ off < k * 65536 + a % 65536 / 512 * 512 + 512)
      | _ => false
    (bs, bad)

/-- The request of such a beat at the home L2 (R342, R343, R345). -/
def State.imageTouch (s : State) (part image off : Nat) : State :=
  match (s.tum.models.find? fun m => decide (m.part = part ∧ m.idx = image)).bind fun m => m.pages[off / 65536]? with
  | some (d, p) => s.l2Request part d (p * 65536 + off % 65536)
  | none => s

/-- The weight-source entries of an image written with K = 1 and counted (R92, R224, R456, R463). -/
def State.fillWeights (s : State) (t : Task) (m : Img) : State :=
  m.weights.foldl (fun s e =>
    match t.phys (if t.img.folded then wsPage e / 2 else wsPage e) with
    | none => s
    | some p =>
      (List.range (wsCount e)).foldl (fun s i =>
        let (bs, bad) := s.imageBeat t.part (wsImage e) (wsOff e + 64 * i)
        let s1 := (s.imageTouch t.part (wsImage e) (wsOff e + 64 * i)).modCore p (wsCore e) fun k => { k with w := k.w.set (wsFirst e + i) { val := BitVec.ofNat 512 (leNat bs), key := true } }
        let s2 : State := { s1 with free := s1.free + 64, tum := { s1.tum with usage := addUsage s1.tum.usage t.part t.tenant (wsImage e) 1 0 } }
        if bad then s2.raise t.tid { cls := 2, code := 7, page := (s.page p).rp, unit := 1 + wsCore e, core := wsCore e } else s2) s) s

/-- After a load, a core whose bank 1 the weight-source table has written is not ready for the weight port (R223). -/
def State.markReady (s : State) (t : Task) (m : Img) : State :=
  m.weights.foldl (fun s e =>
    match t.phys (if t.img.folded then wsPage e / 2 else wsPage e) with
    | none => s
    | some p => if 8 < wsFirst e + wsCount e then s.modCore p (wsCore e) fun k => { k with ready := false } else s) s

/-- A window table entry applied to its port (R231). -/
def Page.applyWin (pg : Page) (n : Nat) (e : WinEntry) : Page :=
  pg.setPort n ((pg.port n).setWin e.win { pat := e.pat, fresh := decide (e.pat ≠ 0) })

/-- The physical page and port of a window table entry. -/
def State.winPlace (s : State) (t : Task) (e : WinEntry) : Option (Nat × Nat) :=
  if t.img.folded then
    match t.phys (e.page / 2) with
    | none => none
    | some p => ((List.range 8).find? fun n => decide (((s.page p).port n).orig = some (e.page, e.port))).map fun n => (p, n)
  else (t.phys e.page).map fun p => (p, e.port)

/-- A sequencer at its start (R236 step 4). -/
def Page.seqStart (pg : Page) (t : Task) (rp : Nat) : Page :=
  { pg with owner := some t.tid, rp := rp, pc := 0, x := List.replicate 16 0 ++ t.rcd.param, tid := BitVec.ofNat 32 t.tid, tco := t.tco
            pdl := t.rcd.pdl, running := true }

/-- A region page written from the checked image; the scratchpads and L1 lines of its cores stay, and the constant caches are empty (R35,
R236, R305). -/
def State.loadPage (s : State) (t : Task) (m : Img) (rp p : Nat) : State :=
  s.modPage p fun old =>
    let pg := m.load t.img.folded rp
    ({ pg with lastHash := old.lastHash, lastPart := old.lastPart, lastRp := old.lastRp
               cores := pg.cores.zipIdx.map fun (k, c) => let o := old.core c; { k with sp := o.sp, l1 := o.l1 } } : Page).seqStart t rp

/-- Every enabled port of a task's pages takes up its first window. -/
def State.startPorts (s : State) (t : Task) : State :=
  t.pages.foldl (fun s p => (List.range 8).foldl (fun s n =>
    if ((s.page p).port n).en && ((s.page p).port n).cur.isNone && !((s.page p).port n).ended then s.portNext p n 3 else s) s) s

/-- CONFIG_LOAD (R236): pages, weights, windows and sequencers; all pages of the task run from the next cycle. -/
def execVConfigLoad (s : State) : Res :=
  match s.focus.ev with
  | .configLoad tid =>
    match s.task tid with
    | none => .next s
    | some t =>
      match t.loadDone, parseImg t.img.bytes with
      | some due, .ok m =>
        if t.state ≠ .loading ∨ t.restore = true ∨ s.cycle < due then .next s
        else
          let s0 := s.charge t
          let t1 := { t with state := TState.running, home := some (t.home.getD t.die), loadDone := none, startSeq := s.nextStart
                             images := (m.weights.map wsImage).eraseDups, charged := s.cycle }
          let s1 : State := { s0.setTask t1 with nextStart := s.nextStart + 1 }
          let s2 := t1.pages.zipIdx.foldl (fun s (p, rp) => s.loadPage t1 m rp p) s1
          let s3 := t1.wins.foldl (fun s e => match s.winPlace t1 e with
            | none => s
            | some (p, n) => s.modPage p fun pg => pg.applyWin n e) ((s2.fillWeights t1 m).markReady t1 m)
          let s4 := if t1.keeps then s3.modTask tid fun u => { u with check := (s3.taskPages u).map Page.checkpoint } else s3
          .next (s4.startPorts t1)
      | _, _ => .next s
  | _ => .next s

/-! The end of a task (R246). -/

/-- Do the end conditions of R246 hold? -/
def State.canEnd (s : State) (t : Task) : Bool :=
  decide (t.state = .running) && t.trap.isNone && t.causes.isEmpty && !t.pages.isEmpty && !s.cutOff t
    && t.pages.all fun p => (s.page p).halted.isSome && (s.page p).drained && !(s.page p).frozen && !t.flowing (s.page p).rp s.cycle

/-- The commit of an ending task as at a boundary of its own (R246, R311); it is held while a snapshot that it needs finds no room (R315). -/
def State.endCommit (s : State) (t : Task) (ends : List Nat) (release : State → State) : State :=
  match s.commitHeld t.part [t] ends with
  | some s1 => s1
  | none => (release (((s.commit t.part [t] ends).emptyL1s t).takeSeals t.part [t])).signalEnd t

/-- TASK_END (R246, R234): a running task whose end conditions hold is ending; an ending task, with its dual-run partner ending as well and
their signatures equal, commits as a boundary of its own, signals cev, and is ended. -/
def execVTaskEnd (s : State) : Res :=
  match s.focus.ev with
  | .taskEnd tid =>
    match s.task tid with
    | none => .next s
    | some t =>
      if s.canEnd t then .next (s.modTask tid fun t => { t with state := .ending })
      else if t.state ≠ .ending ∨ s.cutOff t = true then .next s
      else
        match s.partner t with
        | some u =>
          if u.state ≠ .ending ∨ t.copyB = true then .next s
          else
            match s.mismatchIn [t] with
            | some _ =>
              .next (((s.modTask tid fun t => { t with state := .running }).modTask u.tid fun u => { u with state := .running }).dualFail t u)
            | none => .next (s.endCommit t [t.tid, u.tid] fun s => (s.release1 t false).release1 u false)
        | none => .next (s.endCommit t [t.tid] fun s => s.release1 t false)
  | _ => .next s

end Sys2Proof.Machine
end

