-- ==== Sys2Proof/Machine/Faults.lean ====
section
/-! DEFINITION. The freeze and its record (18 R371 to R373), the choices of a handler (R374, R377), pre-emption, saves and restores (R380 to R388),
and the spill of matrix regions (R384). -/
namespace Sys2Proof.Machine

/-! Time that a task spends stopped. -/

/-- Cycles that a running kernel names move by the time of the stop. -/
def Kern.shift (k : Kern) (d : Nat) : Kern :=
  { k with t0 := k.t0 + d, next := k.next + d, ends := k.ends.map fun e => if e = 0 then 0 else e + d }

def Phase.shift (ph : Phase) (d : Nat) : Phase :=
  match ph with
  | .until c => .until (c + d)
  | _ => ph

/-- Everything of a task that names a later cycle moves by the time of the stop; its waves keep their skew (R385) and carry no freeze or spill bit
any more, and conditions on the return path go on. -/
def Task.shift (t : Task) (d : Nat) : Task :=
  { t with kern := t.kern.map fun k => k.shift d
           waves := t.waves.map fun w => { w with at_ := w.at_ + d, ctl := w.ctl &&& ~~~(ctlBit 3 ||| ctlBit 4) }
           steers := t.steers.map fun x => { x with at_ := x.at_ + d }
           localDue := t.localDue.map (· + d) }

/-- The pages of a task run again: thawed, with their stopped macros and commands issued again in order and their ports going on (R377, R385,
R386). -/
def State.resumePages (s : State) (t : Task) : State :=
  let d := s.cycle - t.frozenAt
  let s1 := (s.thawTask t).modTask t.tid fun t => t.shift d
  let s2 := t.pages.foldl (fun s p => s.modPage p fun pg => { pg with phase := pg.phase.shift d }) s1
  (t.pages.foldl (fun s p => (s.reissueMacros t p).reissueEngines p) s2).startPorts t

/-! The freeze (R372) and the spill of matrix regions (R384). -/

/-- The task and its dual-run partner. -/
def State.both (s : State) (t : Task) : List Task :=
  match s.partner t with
  | some u => [t, u]
  | none => [t]

/-- Bit n of the ctl field set in the wave words that stand at some core of the task in a cycle (R15). -/
def Task.markWaves (t : Task) (n cycle : Nat) : Task :=
  { t with waves := t.waves.map fun w =>
      if (List.range t.npages).any fun rp => (List.range 8).any fun c => decide (w.at_ + t.skew rp c = cycle) then
        { w with ctl := w.ctl ||| ctlBit n }
      else w }

/-- The pages of a task freeze at the end of this cycle; its wave words carry freeze = 1 (R15, R372). -/
def State.freezeNow (s : State) (t : Task) : State :=
  ((s.endCycle t).freezeTask t).modTask t.tid fun t => { t.markWaves 3 s.cycle with frozenAt := s.cycle }

/-- Results of words issued by now land; the state is captured only after that (R372). -/
def State.settle (s : State) (t : Task) : State :=
  let s1 := (List.range 28).foldl (fun (s : State) _ =>
    let s1 : State := { s with cycle := s.cycle + 1 }
    t.pages.foldl (fun s p => (List.range 8).foldl (fun s c => s.land p c) s) s1) s
  { s1 with cycle := s.cycle }

/-- 80 bytes of a link input: data, zero when keyed, validity, K, and the source of a keyed beat (R384, R150). -/
def LinkIn.bytes (l : LinkIn) : List Byte :=
  leBytes 64 (if l.key then 0 else l.v.lanes.toNat) ++ leBytes 2 l.v.valid.toNat ++ leBytes 1 l.key.toNat ++ leBytes 5 0
    ++ leBytes 8 (if l.key then l.src.toNat else 0)

def VReg.bytes80 (v : VReg) : List Byte := leBytes 64 v.lanes.toNat ++ leBytes 16 v.valid.toNat

/-- A wave word of a region page as bits (R14). -/
def Wave.bits (w : Wave) (rp : Nat) : Nat :=
  w.live.toNat * 2 ^ 63 + w.sched.toNat * 2 ^ 62 + w.slot % 32 * 2 ^ 57 + w.tag.toNat * 2 ^ 41
    + w.ctl.toNat * 2 ^ 32 + (w.wimm.getD rp 0).toNat

/-- The kernel-state record of a core (R384): 4 KiB. -/
def Core.stateRecord (k : Core) (rp c wave tag : Nat) : List Byte :=
  let bs := (k.lin.take 4).flatMap LinkIn.bytes
    ++ (k.qin.take 4).flatMap (fun q => leBytes 4 q.val.toNat ++ leBytes 4 q.valid.toNat)
    ++ k.hist.flatMap (fun h => leBytes 4 (h.live.toNat * 2 ^ 31 + h.sched.toNat * 2 ^ 30 + h.tag.toNat))
    ++ leBytes 32 k.rbase.toNat ++ (k.v.drop 8).flatMap VReg.bytes80 ++ (k.v.take 8).flatMap VReg.bytes80
    ++ leBytes 8 wave ++ leBytes 8 tag ++ leBytes 4 (rp + 256 * c)
  bs ++ List.replicate (4096 - bs.length) 0

/-- Bytes left in the current window of a port. -/
def Port.windowLeft (x : Port) : Nat :=
  match x.cur with
  | none => 0
  | some _ => patN x.pat * patEsz x.pat - 64 * x.pos

/-- A core whose kernel state is read back from its 4 KiB record (R384). -/
def Core.ofRecord (k : Core) (bs : List Byte) : Core :=
  let u := leAt bs
  let vec := fun (o : Nat) => ({ lanes := BitVec.ofNat 512 (u o 64), valid := BitVec.ofNat 16 (u (o + 64) 2) } : VReg)
  { k with
    lin := (List.range 4).map (fun i =>
      ({ v := vec (80 * i), key := (u (80 * i + 66) 1).testBit 0, src := BitVec.ofNat 64 (u (80 * i + 72) 8) } : LinkIn)) ++ k.lin.drop 4
    qin := (List.range 4).map (fun i =>
      ({ val := BitVec.ofNat 32 (u (0x140 + 8 * i) 4), valid := (u (0x144 + 8 * i) 4).testBit 0 } : Tok)) ++ k.qin.drop 4
    hist := (List.range 32).map fun i =>
      let h := u (0x160 + 4 * i) 4
      { live := h.testBit 31, sched := h.testBit 30, tag := BitVec.ofNat 16 h }
    rbase := BitVec.ofNat 5 (u 0x1E0 1)
    v := (List.range 8).map (fun i => vec (0xC00 + 80 * i)) ++ (List.range 32).map fun i => vec (0x200 + 80 * i) }

/-- A matrix page spills its cores' records through sp6, when its window has 32 KiB left; else they stay in the core sections (R384). -/
def State.spillPage (s : State) (t : Task) (k : Kern) (rp p : Nat) : State :=
  let pg := s.page p
  let x := pg.port 6
  if pg.mode = false ∨ x.en = false ∨ x.out = false ∨ x.windowLeft < 32768 then s
  else
    let tag := (k.cutTag.getD (BitVec.ofNat 16 k.intervals)).toNat
    let bytes := (List.range 8).flatMap fun c =>
      (pg.core c).stateRecord rp c (match t.waveAt rp c (s.cycle + 1) with
        | some w => w.bits rp
        | none => 0) tag
    let before := ((s.task t.tid).getD t).causes.length
    let s1 := (List.range 512).foldl (fun s i =>
      let s1 := s.portPush p 6 (BitVec.ofNat 512 (leNat ((bytes.drop (64 * i)).take 64))) (lowMask 64) false
      let s2 := s1.modPort p 6 fun x => { x with fifo := x.fifo.map fun e => { e with at_ := min e.at_ (s.cycle - 1) } }
      s2.portWriteOne t p 6) s
    if before < ((s1.task t.tid).getD t).causes.length then s
    else s1.modPage p fun pg => { pg with spillPos := some (x.pat, x.pos) }

/-- The kernel of a region that spills is cut, when no drain has begun: columns of C and above never enter, those below C complete after the resume, and
KRUN is issued again (R384). -/
def Kern.cut (k : Kern) (stages : Nat) : Kern :=
  if k.drain.isSome ∨ k.ends ≠ [] then k
  else { k with cause := 3, cutTag := some (BitVec.ofNat 16 k.intervals), drain := some (stages - 1) }

/-- The spill of a frozen region with a kernel in flight (R384): its wave words carry spill = 1 (R15), and its kernel is cut. -/
def State.spill (s : State) (t : Task) : State × Bool :=
  match t.kern, t.pages.head? with
  | some k, some lead =>
    if t.kernelRuns && s.matrixRegion t then
      let t1 : Task := { t with waves := t.waves.map fun w =>
          if s.cycle ≤ w.at_ + t.skew (t.npages - 1) 7 then { w with ctl := w.ctl ||| ctlBit 4 } else w }
      let s1 := (s.settle t).modTask t.tid fun u => { u with waves := t1.waves, kern := some (k.cut (s.page lead).stages) }
      (t.pages.zipIdx.foldl (fun s (p, rp) => s.spillPage t1 k rp p) s1, true)
    else (s, false)
  | _, _ => (s, false)

/-- The 32 KiB of records of a spill, read through the window they were written to; none when an access is refused. -/
def State.spillBytes (s : State) (t : Task) (p rp : Nat) (pat : BitVec 512) (k0 : Nat) : Except (Deny × W64) (List Byte × State) :=
  ((List.range 512).flatMap fun i => patRuns pat (k0 + i) 64 0).foldlM (fun (bs, s1) (_, va, len) =>
    match s1.elemAccess t (s1.who t p) .write false va len 1 none none with
    | .error e => .error (e, va)
    | .ok ps => let (b, s2) := s1.readPlaces t (t.windex rp 6) rp 6 ps; .ok (bs ++ b, s2)) ([], s)

/-- The records of a spill read back at a resume (R384); a window that no longer admits it traps as its port. -/
def State.readBack (s : State) (t : Task) : State :=
  t.pages.zipIdx.foldl (fun s (p, rp) =>
    match (s.page p).spillPos with
    | none => s
    | some (pat, k0) =>
      let s1 := s.modPage p fun pg => { pg with spillPos := none }
      match s1.spillBytes t p rp pat k0 with
      | .error (e, va) => s1.portTrap p 6 e.cls e.code (some (s.resolve (s.who t p).home va))
      | .ok (bs, s2) => s2.modPage p fun pg =>
          { pg with cores := pg.cores.zipIdx.map fun (k, c) => k.ofRecord ((bs.drop (4096 * c)).take 4096) }) s

/-- The record of a trap (R373). A load or system trap is raised by no unit of a page. -/
def State.trapRecord (s : State) (t : Task) (c : Cause) (spilled : Bool) : TrapRec :=
  let pg := match t.phys c.page with
    | some p => s.page p
    | none => {}
  let unit := decide (c.cls ≠ 4 ∧ c.cls ≠ 5)
  { cause := { c with flags := c.flags ||| BitVec.ofNat 8 (t.copyB.toNat * 16 + spilled.toNat * 32) }
    tid := t.tid, ctag := t.ctag, tco := t.tco, pc := if unit then pg.pc else 0, sstep := pg.sstep, cycle := s.cycle
    seqst := if unit then pg.seqst else 0 }

/-- TRAP_FREEZE (R371, R372): the task, with its dual-run partner, freezes at the end of this cycle and its record goes to its handlers; a first
signature mismatch restarts the superstep instead (R391). -/
def execVTrapFreeze (s : State) : Res :=
  match s.focus.ev with
  | .trapFreeze tid =>
    match s.task tid with
    | none => .next s
    | some t =>
      let waiting := (s.both t).any fun u => u.trap.isSome
      let s0 := (s.both t).foldl (fun s u => s.modTask u.tid fun u => { u with causes := [] }) s
      match pickCause t.causes with
      | none => .next s
      | some c =>
        if waiting = true ∨ t.state = .ended then .next s0
        else
          match c.cls == 5 && c.code == 1 && !t.mismatched, s.partner t with
          | true, some u => .next (s0.dualFail { t with causes := [] } { u with causes := [] })
          | _, _ =>
            let s1 := (s0.both t).foldl State.freezeNow s0
            match s1.task tid with
            | none => .next s1
            | some t1 =>
              let (s2, spilled) := s1.spill t1
              .next (s2.postTrap ((s2.task tid).getD t1) (s2.trapRecord t1 c spilled))
  | _ => .next s

/-! The three choices (R377). -/

/-- Causes that admit only the end: (memory lease), load refused, (protection pot, priv_space, save_tag), system. -/
def Cause.endOnly (c : Cause) : Bool :=
  decide ((c.cls = 2 ∧ c.code = 4) ∨ c.cls = 4 ∨ c.cls = 5 ∨ (c.cls = 3 ∧ (c.code = 1 ∨ c.code = 3 ∨ c.code = 12)))

/-- Does a cause admit resume in place? -/
def Cause.admitsResume (c : Cause) : Bool := !c.endOnly && !c.flags.getLsbD 2 && !(decide (c.cls = 2 ∧ c.code = 6) && c.snap)

/-- Does a waiting task admit a restart (R377, R319)? A trap that ends a task at its restore admits none (R150, R365). -/
def State.admitsRestart (s : State) (t : Task) (c : Cause) : Bool :=
  !c.endOnly && decide (t.state ≠ .loading) && t.keeps && (s.both t).all fun u => s.idempotent u && !u.check.isEmpty

/-- The record no longer waits. -/
def State.settled (s : State) (t : Task) : State :=
  (s.modTask t.tid fun t => { t with trap := none, trapRead := false, deadline := none }).modInst t.inst.die t.inst.slot
    fun g => { g with faults := g.faults.filter fun x => decide (x ≠ t.tid) }

/-- The task that a fault handle names for an instance: a waiting record of a task that the instance launched (R376). -/
def State.waitingFor (s : State) (die slot : Nat) (h : W64) : Option (Task × Cause) :=
  if (s.inst die slot).faults.contains h.toNat then
    match s.task h.toNat with
    | none => none
    | some t => t.trap.map fun r => (t, r.cause)
  else none

/-- A keyed link input read again from its recorded source; a source that no longer admits it is trap(protection, keyed_source) (R150). -/
def State.refillLink (s : State) (t : Task) (p rp c i : Nat) : Except Cause State :=
  let l := (s.core p c).lin.getD i {}
  if l.key = false then .ok s
  else
    match s.keyedBeat t p c (s.reuseAddr (s.who t p).home l.src) with
    | .error _ => .error { cls := 3, code := 7, page := rp, unit := 1 + c, flags := 8, core := c, addr := l.src }
    | .ok (b, s1) => .ok (s1.modCore p c fun k => { k with lin := k.lin.set i { l with v := { l.v with lanes := b } } })

/-- Every keyed link input of a restored task, in page, core and input order (R150). -/
def State.refillLinks (s : State) (t : Task) : Except Cause State :=
  t.pages.zipIdx.foldlM (fun s (p, rp) => (List.range 8).foldlM (fun s c => (List.range 8).foldlM (fun s i => s.refillLink t p rp c i) s) s) s

/-- A task for which a snapshot found no room while it stood raises version_overflow when it runs again; the trap counts (R315). -/
def State.lostSnapshot (s : State) (t : Task) : State :=
  if t.ovfl then (s.countVofl t.part).raise t.tid { cls := 2, code := 6, snap := true, core := 0xFF } else s

/-- A task that was stopped in place runs again: records of a spill are read back, with the keyed beats that they leave out (R150, R384). A request for
its pages raised meanwhile applies from now (R388). -/
def State.resumeOne (s : State) (t : Task) : State :=
  let spilled := t.pages.any fun p => (s.page p).spillPos.isSome
  let s1 := s.readBack t
  match if spilled then s1.refillLinks t else .ok s1 with
  | .error c => s1.postTrap t (s1.trapRecord t c false)
  | .ok s2 =>
    ((s2.resumePages t).modTask t.tid fun u => { u with preqAt := u.preqAt.map fun _ => s.cycle, preqCause := u.preqCause % 4 }).lostSnapshot t

/-- FAULTACK.resume: every page of the task and its partner runs again (R377). -/
def State.resumeTask (s : State) (t : Task) : State := (s.both t).foldl State.resumeOne (s.settled t)

/-- RETRY: the superstep of the task and its partner starts again in place (R377, R379). -/
def State.retryTask (s : State) (t : Task) : State := (s.both t).foldl State.restartTask (s.settled t)

/-- FAULT_DEADLINE (R374). -/
def execVFaultDeadline (s : State) : Res :=
  match s.focus.ev with
  | .faultDeadline tid =>
    match s.task tid with
    | none => .next s
    | some t =>
      match t.deadline with
      | none => .next s
      | some d => .next (if d ≤ s.cycle then s.endTask tid else s)
  | _ => .next s

/-! Pre-emption (R380, R381). -/

/-- Does a waiting trap record keep a task or its partner stopped? -/
def State.trapped (s : State) (t : Task) : Bool := (s.both t).any fun u => u.trap.isSome || !u.causes.isEmpty

/-- Does the word at the program counter of a page hold at a pre-emption point, no kernel running (R152, R380)? -/
def Page.atPoint (pg : Page) (kernel : Bool) : Bool :=
  let w := seqFields pg.word
  let op := pg.word.toNat / 2 ^ 56
  match pg.phase with
  | .queued => true
  | .arrived => true
  | .kern => !kernel
  | .join => !kernel
  | .until _ => decide (op = 0x26)
  | .ready =>
    if 0x40 ≤ op ∧ op ≤ 0x4F then (List.range 8).any fun c => w.imm.getLsbD (4 + c) && (pg.core c).busy
    else if op = 0x60 ∨ op = 0x24 ∨ op = 0x30 then !pg.idle
    else if op = 0x86 then (if w.imm.getLsbD 17 then !pg.idle else (pg.core (fld w.imm 16 14)).busy)
    else if op = 0x85 then (w.imm.getLsbD 0 && !pg.idle) || (w.imm.getLsbD 2 && pg.cores.any fun k => !k.redq.isEmpty)
    else if op = 0x77 then (List.range 8).any fun n => w.imm.getLsbD n && (pg.eslot n).busy
    else if 0x70 ≤ op ∧ op ≤ 0x75 then (pg.eslot (fld w.mod 2 0)).busy
    else if op = 0x62 then (let x := pg.port (fld w.imm 2 0); x.out && !x.fifo.isEmpty)
    else false
  | _ => false

/-- Has a page yielded (R380)? -/
def Page.hasYielded (pg : Page) (kernel : Bool) : Bool := pg.halted.isSome || pg.yielded || pg.atPoint kernel

/-- Is a word of a frozen page still allowed to complete: one of the bounded holds (R152)? -/
def Page.bounded (pg : Page) : Bool :=
  match pg.phase with
  | .mem _ _ => true
  | .land _ _ => true
  | .until _ => decide (0x80 ≤ pg.word.toNat / 2 ^ 56)
  | _ => false

/-- Nothing of a page is still on its way: results, pushed entries, reductions, bounded holds (R372, R152). -/
def Page.quiet (pg : Page) : Bool :=
  !pg.bounded && pg.drains.isEmpty && (pg.ports.all fun x => !(x.en && x.out) || x.fifo.isEmpty)
    && pg.cores.all fun k => k.redq.isEmpty && k.flight.isEmpty && k.arrive.isEmpty

/-- The pre-emption deadline of a task (R380). -/
def State.deadlineOf (s : State) (t : Task) (req : Nat) : Nat :=
  req + (match t.pages.head? with
    | some p => (s.page p).pdl.toNat
    | none => 0)

/-- Pages that have yielded freeze at once and wait for the others (R380). -/
def State.freezeYielded (s : State) (t : Task) : State :=
  if t.preqAt.isNone ∨ t.state ≠ .running ∨ s.trapped t = true then s
  else t.pages.foldl (fun s p => s.modPage p fun pg => if !pg.frozen && pg.hasYielded t.kernelRuns then pg.freeze else pg) s

/-- A pre-emption for which the deadline has passed carries this mark in preqCause. -/
def forcedMark : Nat := 4

/-- Is every page of a task frozen and quiet, so that its save can be written? -/
def State.savable (s : State) (t : Task) : Bool := t.pages.all fun p => (s.page p).frozen && (s.page p).quiet

/-- Has the whole task, with its dual-run partner, yielded by the deadline, or been forced, and come to rest (R380, R388)? -/
def State.saveReady (s : State) (t : Task) (forced : Bool) : Bool :=
  (s.both t).all fun u => decide (u.state = .running) && u.preqAt.isSome && decide ((forcedMark ≤ u.preqCause) = forced) && s.savable u

/-! Saves and restores (R382 to R388). -/

/-- Does an offset lie in a keyed bank of a core (R281)? -/
def Core.keyedAt (k : Core) (off : Nat) : Bool := k.ckb.getLsbD (off / 65536)

/-- A core as its save section holds it: no weight register, keyed banks and keyed link inputs as zero (R32, R150, R281, R383). Where their beats came
from stays beside them, and the Pintle reads those again at the resume. -/
def Core.saved (k : Core) : Core :=
  { k with w := List.replicate 16 {}
           lin := k.lin.map fun l => if l.key then { l with v := { l.v with lanes := 0 } } else l
           sp := k.sp.filter fun (a, _) => !k.keyedAt a
           undo := k.undo.map fun u => if k.keyedAt u.off then { u with bytes := List.replicate 128 0 } else u
           wlog := k.wlog.filter fun x => !k.keyedAt x.off
           mrun := none, l1 := [] }

/-- A page as its record of the save slot holds it: keyed beats that wait at the weight port are no data of it (R383). -/
def Page.saved (pg : Page) : Page :=
  let pg1 := if pg.weightPort 1 then
      pg.setPort 1 (let x := pg.port 1; { x with fifo := x.fifo.map fun e => if e.skip then { e with data := 0 } else e })
    else pg
  { pg1 with cores := pg1.cores.map Core.saved }

/-- A task leaves its pages: everything into its save slot, the pages free, the task at the head of its queue (R234, R237, R380). -/
def State.saveTask (s : State) (t0 : Task) (next : TState) : State :=
  let t := ((s.charge t0).task t0.tid).getD t0
  let save := t.pages.map fun p => (s.page p).saved
  let places := match t.saveSlot with
    | some (off, n) => s.slotPlaces t.part off n
    | none => []
  let s1 := ((s.charge t0).heldPages t.tid).foldl (fun s p => s.modPage p fun pg =>
    { (if t.fused then { pg with cores := pg.cores.map fun k => { k with l1 := [] } } else pg).freed with lastHash := [], lastPart := t.part }) (s.charge t0)
  let t1 : Task :=
    { t with state := next, restore := true, save := save, pages := [], delta := [], slotPages := places, saveGen := t.saveGen + 1
             tampered := false, loadDone := none, preqAt := none, preqCause := 0 }
  ((s1.setTask t1).writeSlot t.tid (t.saveGen + 1) places).requeue t1
/-- A save of a task and its partner, with the spill of a matrix region whose kernel is in flight. -/
def State.saveBoth (s : State) (t : Task) : State :=
  (s.both t).foldl (fun s u =>
    let (s1, _) := s.spill u
    s1.saveTask ((s1.task u.tid).getD u) .saved) s

/-- A load in progress is given up: not started, the task returns to page-wait at the head of its queue at its record level, or to saved (R388, R234,
R237). What the loader has written is no configuration of the page any more (R236). -/
def State.dropLoad (s : State) (t0 : Task) : State :=
  let s0 := s.charge t0
  let t := (s0.task t0.tid).getD t0
  let s1 := (s0.heldPages t.tid).foldl (fun s p => s.modPage p fun pg => { pg.freed with lastHash := [] }) s0
  let t1 : Task :=
    { t with state := if t.restore then .saved else .pageWait, pages := [], delta := [], loadDone := none, memSince := s.cycle
             saveSlot := if t.restore then t.saveSlot else none, preqAt := none, preqCause := 0 }
  let s2 := (s1.setTask t1).requeue t1
  if t.restore then s2 else s2.modTask t.tid fun u => { u with qsince := t.qsince }

/-- Does a slice end restart the task instead of saving it (R381)? -/
def State.sliceRestart (s : State) (t : Task) : Bool :=
  (s.both t).all fun u => u.rcd.flags.getLsbD 3 && s.idempotent u && !u.check.isEmpty
    && (s.taskPages u).all fun pg => !decide (pg.phase = .arrived ∧ pg.word.toNat / 2 ^ 56 = 0x30)

/-- PREEMPT_REQUEST (R380, R381, R388): preq on every page of the task and its partner in one cycle. A task with no save slot cannot be saved
(R382). -/
def execVPreemptRequest (s : State) : Res :=
  match s.focus.ev with
  | .preemptRequest tid cause =>
    match s.task tid with
    | none => .next s
    | some t =>
      if t.state = .loading then .next ((s.both t).foldl State.dropLoad s)
      else if t.state ≠ .running ∨ t.preqAt.isSome = true then .next s
      else if cause = 1 ∧ s.trapped t = false ∧ s.sliceRestart t = true then .next (s.later (.event (.sliceEndRestart tid)))
      else if (s.both t).any (fun u => u.saveSlot.isNone) then .next s
      else
        .next ((s.both t).foldl (fun s u =>
          let s1 := u.pages.foldl (fun s p => s.modPage p fun pg => { pg with preq := BitVec.ofNat 64 (1 + 2 * (cause % 4)) }) s
          s1.modTask u.tid fun u => { u with preqAt := some s.cycle, preqCause := cause % 4 }) s)
  | _ => .next s

/-- SLICE_END_RESTART (R381): the restart of R379 at t_r; the task returns to the head of its queue and starts as from a fresh placement. -/
def execVSliceEndRestart (s : State) : Res :=
  match s.focus.ev with
  | .sliceEndRestart tid =>
    match s.task tid with
    | none => .next s
    | some t =>
      if t.state ≠ .running ∨ s.trapped t = true ∨ s.sliceRestart t = false then .next s
      else
        .next ((s.both t).foldl (fun s u =>
          let s1 := s.restartTask u
          s1.saveTask ((s1.task u.tid).getD u) .queued) s)
  | _ => .next s

/-- COOPERATIVE_SAVE (R380): every page has yielded by the deadline. -/
def execVCooperativeSave (s : State) : Res :=
  match s.focus.ev with
  | .cooperativeSave tid =>
    match s.task tid with
    | none => .next s
    | some t =>
      .next (if s.trapped t = false ∧ s.saveReady t false = true then
        let s1 := (s.both t).foldl (fun s u => s.modTask u.tid fun u => { u with frozenAt := s.cycle }) s
        s1.saveBoth ((s1.task tid).getD t)
      else s)
  | _ => .next s

/-- FORCED_SAVE (R380, R385): at the deadline the remaining pages freeze at the end of the cycle; when everything that R372 lets land has landed the
save is written. -/
def execVForcedSave (s : State) : Res :=
  match s.focus.ev with
  | .forcedSave tid =>
    match s.task tid with
    | none => .next s
    | some t =>
      match t.preqAt with
      | none => .next s
      | some req =>
        if t.state ≠ .running ∨ s.trapped t = true then .next s
        else if forcedMark ≤ t.preqCause then .next (if s.saveReady t true then s.saveBoth t else s)
        else if s.cycle < s.deadlineOf t req then .next s
        else .next ((s.both t).foldl (fun s u =>
          (s.freezeNow u).modTask u.tid fun u => { u with preqCause := u.preqCause + forcedMark }) s)
  | _ => .next s

/-- A tag that fails ends the task: the memory holds something else than the save wrote, or an error (R383, R390). -/
def State.slotBad (s : State) (t : Task) : Bool :=
  t.tampered || s.errs.any fun e => match e with
    | .hbm d pa => t.slotPages.contains (d, pa / 65536)
    | _ => false

/-- The task of a restore as it runs again. -/
def State.restoredTask (s : State) (t : Task) : Task :=
  { t with state := TState.running, restore := false, loadDone := none, startSeq := s.nextStart, charged := s.cycle, save := [], slotPages := [] }

/-- The save slot back into the task's new pages, and the weights filled again from the image (R383, R385, R224). -/
def State.restored (s : State) (t : Task) : State :=
  let t1 := s.restoredTask t
  let s1 : State := { s.setTask t1 with nextStart := s.nextStart + 1 }
  let s2 := t1.pages.zipIdx.foldl (fun s (p, rp) => s.modPage p fun old =>
    let pg := t.save.getD rp {}
    { pg with owner := some t.tid, rp := rp, preq := 0, frozen := true, running := true, lastHash := old.lastHash, lastPart := old.lastPart, lastRp := old.lastRp
              cores := pg.cores.zipIdx.map fun (k, c) => { k with l1 := (old.core c).l1 } }) s1
  match parseImg t1.img.bytes with
  | .error _ => s2
  | .ok m => s2.fillWeights t1 m

/-- A keyed read that a refill needs and does not get ends the task (R150, log 85). -/
def refillCause (rp c : Nat) (addr : W64) : Cause := { cls := 3, code := 7, page := rp, unit := 1 + c, flags := 8, core := c, addr := addr }

/-- A beat of the weight port read again from entry k of a window, with its K flag (R222, R224). -/
def State.portBeat (s : State) (t : Task) (p rp : Nat) (pat : BitVec 512) (k : Nat) : Except Cause (BitVec 512 × Bool × State) := do
  let (bs, key, s1) ← (patRuns pat k 64 0).foldlM (fun ((bs, key, s1) : List (Nat × List Byte) × Bool × State) (i, va, len) =>
    match s1.elemAccess t (s1.who t p) .matrix false va len 1 (some (patCls pat)) none with
    | .error _ => .error (refillCause rp 1 (s.resolve (s.who t p).home va))
    | .ok ps =>
      if !s1.policyOk t (imagesOf ps) then .error (refillCause rp 1 (s.resolve (s.who t p).home va))
      else
        let (b, s2) := (s1.countBeats t (imagesOf ps) 1).readPlaces t (t.windex rp 1) rp 1 ps
        .ok (bs ++ [(i, b)], key || s1.touchesKeyed t ps || !(imagesOf ps).isEmpty, s2)) ([], false, s)
  .ok ((entryOf bs).1, key, s1)

/-- The beats that the weight port of a page had delivered to idle banks since their last WSEL, and those that wait in its FIFO, read again from its
windows (R224, R383). -/
def State.refillPort (s : State) (t : Task) (p rp : Nat) : Except Cause State := do
  if !(s.page p).weightPort 1 then return s
  let s1 ← (List.range 8).foldlM (fun s c =>
    let k := s.core p c
    k.got.zipIdx.foldlM (fun s ((pat, e), i) => do
      let (b, key, s1) ← s.portBeat t p rp pat e
      return s1.modCore p c fun k => { k with w := k.w.set ((if k.wsel then 0 else 8) + i) { val := b, key := key } }) s) s
  ((s.page p).port 1).fifo.zipIdx.foldlM (fun s (e, i) =>
    if !e.skip then .ok s
    else do
      let (b, _, s1) ← s.portBeat t p rp e.pat e.idx
      return s1.modPort p 1 fun x => { x with fifo := modAt x.fifo i fun e => { e with data := b } }) s1

/-- The keyed banks of a core filled again from the sources of their beats, oldest first (R281). -/
def State.refillBanks (s : State) (t : Task) (p rp c : Nat) : Except Cause State :=
  (s.core p c).kbsrc.foldlM (fun s (off, src) =>
    match s.keyedBeat t p c (s.reuseAddr (s.who t p).home src) with
    | .error _ => .error (refillCause rp c src)
    | .ok (b, s1) => .ok (s1.modCore p c fun k => { k with sp := cellsWrite k.sp off (entryBytes b) })) s

/-- What a forced save keeps no data of, read again at the resume through the Keyway: weights that a port delivered, keyed banks, then keyed link
inputs (R150, R224, R281). -/
def State.refill (s : State) (t : Task) : Except Cause State := do
  let s1 ← t.pages.zipIdx.foldlM (fun s (p, rp) => s.refillPort t p rp) s
  let s2 ← t.pages.zipIdx.foldlM (fun s (p, rp) => (List.range 8).foldlM (fun s c => s.refillBanks t p rp c) s) s1
  s2.refillLinks t

/-- TASK_RESTORE (R383 to R387): the save slot back into the task's new pages, the weights filled again, keyed data read again (R150, R224, R281),
records of a spill read back (R384), and every page going on in one cycle; a member that a collective has timed out without ends with coll_timeout
instead (R365). A task that ends here is recorded with the fields of its saved pages (R373). -/
def execVTaskRestore (s : State) : Res :=
  match s.focus.ev with
  | .taskRestore tid =>
    match s.task tid with
    | none => .next s
    | some t =>
      match t.loadDone with
      | none => .next s
      | some due =>
        let s1 := (s.charge t).restored t
        let record := fun (c : Cause) => s1.trapRecord (s.restoredTask t) c false
        if t.state ≠ .loading ∨ t.restore = false ∨ s.cycle < due ∨ t.trap.isSome = true then .next s
        else if s.slotBad t then .next (s.postTrap t (record { cls := 3, code := 12, core := 0xFF }))
        else if t.failed.isSome then
          .next (s.postTrap t (record { cls := 1, code := 20, core := 0xFF, info := BitVec.ofNat 128 (t.failed.getD 0) }))
        else
          match (s1.readBack (s.restoredTask t)).refill (s.restoredTask t) with
          | .error c => .next (s.postTrap t (record c))
          | .ok s4 =>
            let s5 := s4.resumePages ((s4.task tid).getD (s.restoredTask t))
            .next (s5.lostSnapshot t)
  | _ => .next s

end Sys2Proof.Machine
end

