-- ==== Sys2Proof/Machine/Tumbler.lean ====
section
/-! DEFINITION. The Tumbler: its mailbox (21 R431 to R433), identity and attestation (R428 to R435), firmware slots (R436 to R439), page ownership
(R440 to R443), the signed library (R444, R445), model images (R446 to R449), sessions and replies (R450 to R455), receipts (R456, R457), links and
exports (R458 to R462). The bytes of the request blocks follow log 13. -/
namespace Sys2Proof.Machine

/-! The mailbox (R431). -/

/-- The mailbox register of a function. -/
def State.tmbx (s : State) (fn : Nat) : BitVec 128 := if fn = 0 then s.dev.tmbx else (s.part (fn - 1)).tmbx

def State.setTmbx (s : State) (fn : Nat) (v : BitVec 128) : State :=
  if fn = 0 then { s with dev := { s.dev with tmbx := v } } else s.modPart (fn - 1) fun p => { p with tmbx := v }

/-- A command completes: its status, go cleared, its place in the queue given up, vector 1 raised (R431, R474). -/
def State.mailDone (s : State) (fn status : Nat) : State :=
  let v := setFld (setFld (s.tmbx fn) 72 72 0) 87 80 status
  let s1 := s.setTmbx fn v
  ({ s1 with tum := { s1.tum with queue := s1.tum.queue.erase fn } } : State).interrupt fn 1

/-- Places of a byte range that a function names, all in class G pages that it owns (R481). -/
def State.fnPages (s : State) (fn : Nat) (a : W64) (n : Nat) : Option (List (Nat × Nat × Nat)) :=
  (pieces (n / 65536 + 2) a n).mapM fun (x, m) => (s.fnPlace fn x false).map fun (d, pa) => (d, pa, m)

/-- Is some byte of the places under an uncorrectable error (R478, R390)? -/
def State.placesBad (s : State) (ps : List (Nat × Nat × Nat)) : Bool :=
  s.errs.any fun e => match e with
    | .hbm d a => ps.any fun (x, pa, n) => decide (x = d ∧ a / 512 * 512 < pa + n ∧ pa < a / 512 * 512 + 512)
    | _ => false

/-- Bytes that the Tumbler reads at an address of a function, or the status that refuses them. -/
def State.tumRead (s : State) (fn : Nat) (a : W64) (n : Nat) : Except Nat (List Byte) :=
  match s.fnPages fn a n with
  | none => .error 0x05
  | some ps => if s.placesBad ps then .error 0x02 else .ok (ps.flatMap fun (d, pa, m) => s.committedN d pa m)

/-- Bytes that the Tumbler writes at an address of a function. -/
def State.tumWrite (s : State) (fn : Nat) (a : W64) (bs : List Byte) : Except Nat State :=
  match s.fnWrite fn a bs with
  | none => .error 0x05
  | some s1 => .ok s1

/-- A command in the mailbox of a function (R431 to R433): admitted callers, at least least input bytes (exactly them when exact), its effect, and
its outputs behind its inputs. A status other than 0x00 leaves everything but the status. -/
def State.mailbox (s : State) (fn : Nat) (op le : Bool) (least : Nat) (exact : Bool)
    (f : State → List Byte → Except Nat (State × List Byte)) : State :=
  let a : W64 := BitVec.ofNat 64 (fld (s.tmbx fn) 63 12 * 4096)
  if (if fn = 0 then !op else !le) then s.mailDone fn 0x01
  else
    let r : Except Nat State := do
      let len := leNat (← s.tumRead fn a 8)
      if len < least ∨ 2 ^ 32 < len ∨ (exact = true ∧ len ≠ least) then .error 0x07
      else
        let input ← s.tumRead fn (a + 8) len
        let (s1, out) ← f s input
        s1.tumWrite fn (a + 8 + BitVec.ofNat 64 len) out
    match r with
    | .ok s1 => s1.mailDone fn 0
    | .error st => s.mailDone fn st

def State.modTum (s : State) (f : Tumbler → Tumbler) : State := { s with tum := f s.tum }

/-- n bytes at an offset. -/
def bytesAt (bs : List Byte) (off n : Nat) : List Byte := (bs.drop off).take n

/-! Identity and attestation. -/

/-- IDENT (R428, R435): both certificate chains, then the encapsulation key. -/
def execCIdent (fn : Nat) (s : State) : Res :=
  .next (s.mailbox fn true true 0 false fun s _ => .ok (s, Config.identityChains ++ Config.encapsKey s.tum.boots))

/-- Entries of a library in ascending order of image hash (R444). -/
def sortLib (l : List LibE) : List LibE :=
  l.foldl (fun out e => (out.filter fun x => decide (beNat x.hash ≤ beNat e.hash)) ++ e :: out.filter fun x => decide (beNat e.hash < beNat x.hash)) []

/-- The library digest (R444). -/
def libDigest (l : List LibE) : List Byte := sha384 ((sortLib l).flatMap fun e => e.kind :: e.hash ++ e.signer)

/-- The body of an attestation report (R435): 1,024 bytes. -/
def State.reportBody (s : State) (nonce : List Byte) (part : Nat) : List Byte :=
  [0x4B, 0x34, 0x41, 0x54] ++ leBytes 2 1 ++ leBytes 2 s.devNum ++ Config.identifier ++ nonce ++ s.tum.mreg.flatten
    ++ [BitVec.ofNat 8 (fld s.dev.fwst 0 0), BitVec.ofNat 8 (fld s.dev.fwst 2 2)] ++ leBytes 2 (fld s.dev.fwst 31 16)
    ++ leBytes 1 part ++ leBytes 3 0 ++ (if part = 0xFF then List.replicate 48 0 else libDigest (s.part part).lib)
    ++ s.tum.nonce ++ sha384 (Config.encapsKey s.tum.boots) ++ List.replicate 576 0

/-- ATTEST (R435). -/
def execCAttest (fn : Nat) (s : State) : Res :=
  .next (s.mailbox fn true true 65 true fun s x =>
    let part := leAt x 64 1
    if 15 < part ∧ part ≠ 0xFF then .error 0x07
    else
      let body := s.reportBody (bytesAt x 0 64) part
      .ok ({ s with free := s.free + 1, tum := { s.tum with reports := assocSet s.tum.reports fn (bytesAt x 0 64) } },
        body ++ Config.signature body s.tum.boots s.free))

/-- The report nonce of a function: the caller's nonce in its last report since the cold reset (R430, R435, log 98). -/
def State.reportNonce (s : State) (fn : Nat) : List Byte :=
  ((assocGet s.tum.reports fn).getD (Config.sized 64 (Config.noReport s.tum.boots fn)))

/-- The secret agreed with another party (R430): label, its ciphertext, its share; none when its share is no point. The order of what is hashed and the length of
48 bytes are log 98's. -/
def State.agreed (s : State) (fn : Nat) (label : List Byte) (ct other : List Byte) : Option (List Byte) :=
  (Config.agreeIkm s.tum.boots ct other).map fun ikm =>
    hkdf384 (List.replicate 48 0) ikm (label ++ sha384 (ct ++ other ++ Config.share s.tum.boots other ++ s.reportNonce fn)) 48

/-- The labels of R430: "K4 model" and "K4 session". -/
def labelModel : List Byte := [0x4B, 0x34, 0x20, 0x6D, 0x6F, 0x64, 0x65, 0x6C]
def labelSession : List Byte := [0x4B, 0x34, 0x20, 0x73, 0x65, 0x73, 0x73, 0x69, 0x6F, 0x6E]

/-! Firmware slots (R436 to R439). -/

def State.setFwst (s : State) (hi lo v : Nat) : State := { s with dev := { s.dev with fwst := setFld s.dev.fwst hi lo v } }
def State.actSlot (s : State) : Nat := fld s.dev.fwst 0 0

/-- FWSTAGE (R437, R438). -/
def execCFwstage (fn : Nat) (s : State) : Res :=
  .next (s.mailbox fn true false 16608 false fun s x =>
    if !slotSigned x then .error 0x02
    else if (Config.fwVersion x).toNat < fld s.dev.fwst 31 16 then .error 0x06
    else
      let i := 1 - s.actSlot
      let s1 := s.modTum fun t => { t with slots := t.slots.set i x }
      .ok ((s1.setFwst 1 1 1).setFwst (39 + 8 * i) (32 + 8 * i) (Config.fwVersion x).toNat, []))

/-- mreg1 as a switch to a slot leaves it (R439). -/
def State.measureSlot (s : State) (i : Nat) : State :=
  s.modTum fun t => { t with mreg := t.mreg.set 1 (mregExtend (List.replicate 48 0) (Config.fwDigest 2 (t.slots.getD i []))) }

/-- FWSWITCH (R438, R439): the Pintles hold while they take up the new firmware. -/
def execCFwswitch (fn : Nat) (s : State) : Res :=
  .next (s.mailbox fn true false 0 false fun s _ =>
    if fld s.dev.fwst 1 1 = 0 then .error 0x07
    else .ok ((((s.measureSlot (1 - s.actSlot)).setFwst 2 2 1).setFwst 3 3 0).modTum fun t =>
      { t with fwDue := some (s.cycle + 2 ^ 29), hold := s.cycle + Config.latSwitch }, []))

/-- FW_HEARTBEAT (R438): the switched-in firmware writes hbt before the deadline: act flips, the floor rises, the switch is complete. -/
def execVFwHeartbeat (s : State) : Res :=
  match s.focus.ev with
  | .fwHeartbeat =>
    match s.tum.fwDue with
    | none => .next s
    | some due =>
      if due ≤ s.cycle then .next s
      else
        let i := 1 - s.actSlot
        let svn := fld s.dev.fwst (39 + 8 * i) (32 + 8 * i)
        let s1 := (((s.setFwst 3 3 1).setFwst 0 0 i).setFwst 31 16 (max (fld s.dev.fwst 31 16) svn)).setFwst 2 2 0
        .next ((s1.setFwst 1 1 0).modTum fun t => { t with fwDue := none })
  | _ => .next s

/-- FW_SWITCH_DEADLINE (R438): without a heartbeat the old slot's firmware returns, and the Pintles hold once more (R439). -/
def execVFwSwitchDeadline (s : State) : Res :=
  match s.focus.ev with
  | .fwSwitchDeadline =>
    match s.tum.fwDue with
    | none => .next s
    | some due =>
      if s.cycle < due then .next s
      else .next ((((s.measureSlot s.actSlot).setFwst 4 4 1).setFwst 2 2 0).modTum fun t => { t with fwDue := none, hold := s.cycle + Config.latSwitch })
  | _ => .next s

/-! The page ownership table (R440 to R442). -/

/-- Does a running or saved task hold a lease over a physical page (R442, R449, R453, R455)? -/
def State.leased (s : State) (d page : Nat) (ctag : Option Nat) : Bool :=
  s.tasks.any fun (_, t) => t.inStep && s.covers t d (page * 512) && (match ctag with
    | none => true
    | some c => decide (t.ctag = c))

/-- Lines of a page leave every L1 and L2 (R442, R406). -/
def State.purge (s : State) (d page : Nat) : State :=
  let s1 := s.dropLines d (page * 65536) 65536
  { s1 with pages := s1.pages.map fun (p, pg) => (p, { pg with cores := pg.cores.map fun k =>
      { k with l1 := k.l1.filter fun l => decide (¬(l.die = d ∧ l.line / 512 = page)) } }) }

/-- Does a page lie in an enabled compression range, where no page is O, S or Y (R293)? -/
def State.inCmp (s : State) (d page : Nat) : Bool :=
  (s.die d).cmprange.any fun r => decide (fld r 257 256 ≠ 0 ∧ fld r 63 0 < (page + 1) * 65536 ∧ page * 65536 < fld r 63 0 + fld r 127 64)

/-- Every byte of a page becomes zero; the changed sectors are marked for a migration and for the owner's dirty log (R441, R405, R424). -/
def State.scrub (s : State) (part d page : Nat) : State :=
  let base := page * 65536
  if s.inCmp d page then
    s.commitBytes part d ((List.range 65536).map fun i => (base + i, 0))
  else
    let cells := s.hbm.filter fun (k, _) => decide (k < hbmKey d base ∨ hbmKey d (base + 65536) ≤ k)
    let gone := fun (e : HwSite) => match e with
      | .hbm x pa => decide (x = d ∧ pa / 65536 = page)
      | _ => false
    (({ s with hbm := cells, errs := s.errs.filter (fun e => !gone e), slotImg := s.slotImg.filter fun x => decide (x.1 ≠ pageKey d page) }
      : State).logDirty part d page (List.range 512)).markMig d page (List.range 512)

/-- A page's entry is written after its scrub and the purge of its lines (R442). -/
def State.setPot (s : State) (d page : Nat) (e : Option PotE) (wipe : Bool) : State :=
  let owner := match s.potAt d (page * 65536), e with
    | some x, _ => x.owner
    | none, some x => x.owner
    | none, none => 0
  let s1 := (if wipe then s.scrub owner d page else s).purge d page
  s1.modTum fun t => { t with pot := match e with
    | none => assocDel t.pot (d * 2 ^ 32 + page)
    | some x => assocSet t.pot (d * 2 ^ 32 + page) x }

/-- Session id open for a partition. -/
def State.openSess (s : State) (part id : Nat) : Option Sess := s.tum.sessions.find? fun x => decide (x.id = id ∧ x.part = part)

/-- The transition of PAGESET for one page (R441): the new entry and whether it scrubs; none when it is not listed. -/
def State.transition (s : State) (fn : Nat) (old : Option PotE) (cls id : Nat) : Option (Option PotE × Bool) :=
  match old with
  | none => if fn = 0 ∧ cls = 0 ∧ id ≤ 16 then some (some { cls := 0, owner := id }, true) else none
  | some e =>
    if fn = 0 then (if cls = 7 ∧ e.cls = 0 ∧ e.owner < 16 then some (none, true) else none)
    else if e.owner ≠ fn - 1 then none
    else if e.cls = 0 ∧ cls = 4 then some (some { e with cls := 4 }, false)
    else if e.cls = 4 ∧ cls = 0 then some (some { e with cls := 0 }, false)
    else if e.cls = 0 ∧ (cls = 1 ∨ cls = 2) ∧ (s.openSess (fn - 1) id).isSome then some (some { e with cls := cls, sess := id }, true)
    else if (e.cls = 1 ∨ e.cls = 2) ∧ cls = 0 then some (some { cls := 0, owner := e.owner }, true)
    else none

/-- The physical pages of a range of pages that a function names (R441, R481). -/
def State.fnRange (s : State) (fn : Nat) (first : W64) (count : Nat) : Option (List (Nat × Nat)) :=
  (List.range count).mapM fun i => (s.fnAddr fn (first + BitVec.ofNat 64 (65536 * i))).map fun (d, pa) => (d, pa / 65536)

/-- PAGESET (R441, R442): the whole range or nothing. -/
def execCPageset (fn : Nat) (s : State) : Res :=
  .next (s.mailbox fn true true 19 true fun s x =>
    let first : W64 := BitVec.ofNat 64 (leAt x 0 8)
    let count := leAt x 8 8
    if first.toNat % 65536 ≠ 0 ∨ 2 ^ 24 < count then .error 0x07
    else
      match s.fnRange fn first count with
      | none => .error 0x05
      | some ps =>
        match ps.mapM fun (d, p) => (s.transition fn (s.potAt d (p * 65536)) (leAt x 16 1) (leAt x 17 2)).map fun r => (d, p, r) with
        | none => .error 0x05
        | some rs =>
          if rs.any fun (d, p, e, wipe) => (wipe && s.leased d p none)
              || ((e.map fun x => decide (x.cls = 1 ∨ x.cls = 2)).getD false && s.inCmp d p) then .error 0x05
          else .ok (rs.foldl (fun s (d, p, e, wipe) => s.setPot d p e wipe) s, []))

/-! The signed library (R444). -/

/-- LIBADD (R444): modulus, SLH-DSA key, a 4-byte count, the entries and the signature. -/
def execCLibadd (fn : Nat) (s : State) : Res :=
  .next (s.mailbox fn false true (436 + 16608) false fun s x =>
    let k := leAt x 432 4
    let n := 436 + 49 * k
    let keys := bytesAt x 0 432
    let es := (List.range k).map fun i => bytesAt x (436 + 49 * i) 49
    if x.length ≠ n + 16608 ∨ (es.any fun e => decide (1 < leAt e 0 1)) = true then .error 0x07
    else if !Config.dualVerify keys (x.take n) (x.drop n) then .error 0x02
    else
      let lib := es.foldl (fun l e => (l.filter fun (y : LibE) => decide (y.hash ≠ e.drop 1)) ++
        [{ kind := e.headD 0, hash := e.drop 1, signer := sha384 keys }]) (s.part (fn - 1)).lib
      if 256 < lib.length then .error 0x04 else .ok (s.modPart (fn - 1) fun p => { p with lib := lib }, []))

/-- LIBREVOKE (R444, R82). -/
def execCLibrevoke (fn : Nat) (s : State) : Res :=
  .next (s.mailbox fn false true 48 true fun s x =>
    .ok (s.modPart (fn - 1) fun p => { p with lib := p.lib.filter fun e => decide (e.hash ≠ x) }, []))

/-! Model images (R446 to R449). -/

def State.model (s : State) (part i : Nat) : Option Model := s.tum.models.find? fun m => decide (m.part = part ∧ m.idx = i)

/-- Chunk count and pod flag of a package header (R446). -/
def Model.chunks (m : Model) : Nat := leAt m.header 0x13C 4
def Model.podOk (m : Model) : Bool := decide (leAt m.header 0x138 4 % 2 = 1)

/-- Does a measurement match what a header requires, all zero meaning any (R446)? -/
def digestOk (need have_ : List Byte) : Bool := decide (need = List.replicate 48 0 ∨ need = have_)

/-- MODELOPEN (R446, R447): header, its dual signature, the owner keys, the KEM ciphertext, the ECDH share, the wrapped model key. -/
def execCModelopen (fn : Nat) (s : State) : Res :=
  .next (s.mailbox fn false true (512 + 16608 + 432 + 1568 + 96) false fun s x =>
    let part := fn - 1
    let h := bytesAt x 0 512
    let share := bytesAt x 19120 96
    let free := (List.range 64).find? fun i => (s.model part i).isNone
    if bytesAt h 0 4 ≠ [0x4B, 0x34, 0x4D, 0x44] ∨ leAt h 4 2 ≠ 1 ∨ (h.drop 0x148).any (fun b => decide (b ≠ 0)) = true then .error 0x07
    else if !Config.dualVerify (bytesAt x 17120 432) h (bytesAt x 512 16608) then .error 0x02
    else if !(digestOk (bytesAt h 0x18 48) (s.tum.mreg.getD 0 []) && digestOk (bytesAt h 0x48 48) (s.tum.mreg.getD 1 [])) || s.tum.debug then
      .error 0x03
    else if 64 ≤ s.tum.models.length then .error 0x04
    else
      match free, (s.agreed fn labelModel (bytesAt x 17552 1568) share).bind fun z => Config.unwrapKey z (x.drop 19216) with
      | none, _ => .error 0x04
      | some _, none => .error 0x02
      | some i, some key =>
        .ok (s.modTum fun t =>
          { t with models := t.models ++ [{ part := part, idx := i, header := h, key := key }]
                   modelIds := assocSet t.modelIds (64 * part + i) (bytesAt h 8 16) },
          leBytes 1 i ++ Config.share s.tum.boots share))

/-- The nonce of a chunk (R446). -/
def chunkNonce (j : Nat) : List Byte := leBytes 4 0 ++ beBytes 8 j

/-- Chunks of a model go from staging into target pages in ascending order until one fails its tag (R448). -/
def State.fillChunks (s : State) (part i : Nat) : List (List Byte × Nat × Nat) → State × Bool
  | [] => (s, true)
  | (c, d, p) :: r =>
    match s.model part i with
    | none => (s, false)
    | some m =>
      let text := c.take 65536
      let nonce := chunkNonce m.filled
      if c.drop 65536 ≠ gcmTag m.key nonce m.header text then (s, false)
      else
        let s1 := s.setPot d p (some { cls := 3, owner := part, image := i }) true
        let s2 := s1.commitBytes part d ((gcmText m.key nonce text).zipIdx.map fun (b, k) => (p * 65536 + k, b))
        (s2.modTum fun t => { t with models := t.models.map fun m =>
          if m.part = part ∧ m.idx = i then { m with filled := m.filled + 1, pages := m.pages ++ [(d, p)] } else m }).fillChunks part i r

/-- MODELFILL (R448): image index, staging address and length, target address and page count. A failed tag keeps the chunks before it. -/
def execCModelfill (fn : Nat) (s : State) : Res :=
  let part := fn - 1
  let a : W64 := BitVec.ofNat 64 (fld (s.tmbx fn) 63 12 * 4096)
  let plan : Except Nat (Nat × List (List Byte × Nat × Nat)) := do
    let len := leNat (← s.tumRead fn a 8)
    if len ≠ 33 then .error 0x07
    else
      let x ← s.tumRead fn (a + 8) 33
      let i := leAt x 0 1
      let n := leAt x 25 8
      match s.model part i with
      | none => .error 0x07
      | some m =>
        if m.chunks < m.filled + n ∨ leAt x 9 8 ≠ 65552 * n ∨ leAt x 17 8 % 65536 ≠ 0 then .error 0x07
        else
          let staging ← s.tumRead fn (BitVec.ofNat 64 (leAt x 1 8)) (65552 * n)
          match s.fnRange fn (BitVec.ofNat 64 (leAt x 17 8)) n with
          | none => .error 0x05
          | some ps =>
            if ps.all fun (d, p) => (match s.potAt d (p * 65536) with
              | some e => decide (e.cls = 0 ∧ e.owner = part) && !s.inCmp d p
              | none => false) then
              .ok (i, ps.zipIdx.map fun ((d, p), k) => (bytesAt staging (65552 * k) 65552, d, p))
            else .error 0x05
  if fn = 0 then .next (s.mailDone fn 0x01)
  else
    match plan with
    | .error st => .next (s.mailDone fn st)
    | .ok (i, cs) =>
      let (s1, ok) := s.fillChunks part i cs
      .next (s1.mailDone fn (if ok then 0 else 0x02))

/-- Pages of a partition's image or session become G after a scrub. -/
def State.returnPages (s : State) (ps : List (Nat × Nat)) (part : Nat) : State :=
  ps.foldl (fun s (d, p) => s.setPot d p (some { cls := 0, owner := part }) true) s

/-- An image is closed (R449, R426). -/
def State.closeModel (s : State) (m : Model) : State :=
  (s.returnPages m.pages m.part).modTum fun t => { t with models := t.models.filter fun x => decide (¬(x.part = m.part ∧ x.idx = m.idx)) }

/-- MODELCLOSE (R449). -/
def execCModelclose (fn : Nat) (s : State) : Res :=
  .next (s.mailbox fn false true 1 true fun s x =>
    match s.model (fn - 1) (leAt x 0 1) with
    | none => .error 0x07
    | some m =>
      let named := s.tasks.any fun (_, t) => t.inStep && decide (t.part = m.part) && t.images.contains m.idx
      if named || m.pages.any fun (d, p) => s.leased d p none then .error 0x05 else .ok (s.closeModel m, []))

/-! Sessions (R450 to R455, R462). -/

/-- SESSOPEN (R450): tenant, KEM ciphertext, ECDH share. -/
def execCSessopen (fn : Nat) (s : State) : Res :=
  .next (s.mailbox fn false true 1665 true fun s x =>
    let part := fn - 1
    let tenant := leAt x 0 1
    let share := bytesAt x 1569 96
    if 15 < tenant then .error 0x07
    else if s.tum.debug then .error 0x03
    else
      match (List.range 4096).find? fun i => !s.tum.sessions.any fun y => decide (y.id = i),
        s.agreed fn labelSession (bytesAt x 1 1568) share with
      | none, _ => .error 0x04
      | some _, none => .error 0x02
      | some i, some z =>
        let k := hkdf384 [] z [] 72
        let sess : Sess := { id := i, part := part, tenant := tenant, krx := bytesAt k 0 32, ktx := bytesAt k 32 32, srx := bytesAt k 64 4, stx := bytesAt k 68 4 }
        .ok (s.modTum fun t => { t with sessions := t.sessions ++ [sess], tenants := addTenant t.tenants (16 * part + tenant) 1 0 0 },
          leBytes 2 i ++ Config.share s.tum.boots share))

/-- The pages of a session in this device's memory. -/
def State.sessPages (s : State) (x : Sess) : List (Nat × Nat) :=
  (s.tum.pot.filter fun (_, e) => decide ((e.cls = 1 ∨ e.cls = 2) ∧ e.owner = x.part ∧ e.sess = x.id)).map fun (k, _) => (k / 2 ^ 32, k % 2 ^ 32)

/-- A session is closed (R453, R426). -/
def State.closeSess (s : State) (x : Sess) : State :=
  (s.returnPages (s.sessPages x) x.part).modTum fun t => { t with sessions := t.sessions.filter fun y => decide (y.id ≠ x.id) }

/-- SESSCLOSE (R453). -/
def execCSessclose (fn : Nat) (s : State) : Res :=
  .next (s.mailbox fn false true 2 true fun s b =>
    match s.openSess (fn - 1) (leAt b 0 2) with
    | none => .error 0x07
    | some x =>
      if (s.sessPages x).any fun (d, p) => s.leased d p (some (16 * x.part + x.tenant)) then .error 0x05 else .ok (s.closeSess x, []))

/-- The record of a closed reply (R454). -/
def replyRecord (x : Sess) (text : List Byte) : List Byte :=
  let nonce := x.stx ++ beBytes 8 x.ctx.toNat
  let aad := leBytes 2 x.id ++ [2] ++ List.replicate 5 0 ++ leBytes 8 x.ctx.toNat
  let ct := gcmText x.ktx nonce text
  [0x4B, 0x34, 0x52, 0x50] ++ leBytes 2 x.id ++ leBytes 2 0 ++ leBytes 8 x.ctx.toNat ++ leBytes 8 text.length ++ leBytes 8 0 ++ ct
    ++ gcmTag x.ktx nonce aad ct

/-- REPLYCLOSE (R454, R455, R462): session, first page and page count of the Y range, length, output address. -/
def execCReplyclose (fn : Nat) (s : State) : Res :=
  .next (s.mailbox fn false true 34 true fun s b =>
    let n := leAt b 10 8
    let len := leAt b 18 8
    match s.openSess (fn - 1) (leAt b 0 2) with
    | none => .error 0x07
    | some x =>
      if !x.enc then .error 0x03
      else if leAt b 2 8 % 65536 ≠ 0 ∨ 2 ^ 24 < n ∨ 65536 * n < len then .error 0x07
      else
        match s.fnRange fn (BitVec.ofNat 64 (leAt b 2 8)) n with
        | none => .error 0x05
        | some ps =>
          let yOk := ps.all fun (d, p) => match s.potAt d (p * 65536) with
            | some e => decide (e.cls = 2 ∧ e.owner = x.part ∧ e.sess = x.id) && !s.leased d p none
            | none => false
          if !yOk then .error 0x05
          else if s.placesBad (ps.map fun (d, p) => (d, p * 65536, 65536)) then .error 0x02
          else
            let text := (ps.flatMap fun (d, p) => s.committedN d (p * 65536) 65536).take len
            match s.tumWrite fn (BitVec.ofNat 64 (leAt b 26 8)) (replyRecord x text) with
            | .error e => .error e
            | .ok s1 =>
              let s2 := ps.foldl (fun s (d, p) => (s.scrub x.part d p).purge d p) s1
              .ok (s2.modTum fun t =>
                { t with sessions := t.sessions.map fun y => if y.id = x.id then { y with ctx := y.ctx + 1 } else y
                         tenants := addTenant t.tenants (16 * x.part + x.tenant) 0 0 len }, []))

/-! Receipts (R457). -/

/-- One entry of a receipt. -/
def receiptEntry (t : Tumbler) (part image beats kcols : Nat) : List Byte :=
  (((assocGet t.modelIds (64 * part + image)).getD []) ++ List.replicate 16 0).take 16 ++ leBytes 8 beats ++ leBytes 8 kcols

/-- A receipt: body and signature. seq is the value after this receipt's increase. -/
def State.receipt (s : State) (owner : Bool) (part tenant : Nat) (entries : List (List Byte)) : List Byte :=
  let (a, b, c) := if owner then (0, 0, 0) else (assocGet s.tum.tenants (16 * part + tenant)).getD (0, 0, 0)
  let body := [0x4B, 0x34, 0x52, 0x43] ++ leBytes 2 1 ++ leBytes 1 owner.toNat ++ leBytes 1 0 ++ Config.identifier ++ s.tum.nonce
    ++ leBytes 8 (s.tum.seq + 1).toNat ++ leBytes 8 s.cycle ++ leBytes 1 part ++ leBytes 1 (if owner then 0xFF else tenant)
    ++ leBytes 2 entries.length ++ leBytes 4 0 ++ leBytes 8 a.toNat ++ leBytes 8 b.toNat ++ leBytes 8 c.toNat ++ List.replicate 120 0
    ++ entries.flatten
  body ++ Config.signature body s.tum.boots s.free

/-- A receipt has been written: seq has counted it (R456, R457). -/
def State.receiptDone (s : State) : State := { s with free := s.free + 1, tum := { s.tum with seq := s.tum.seq + 1 } }

/-- The receipt of a tenant: every image with a nonzero counter, in ascending index. -/
def State.tenantReceipt (s : State) (part tenant : Nat) : List Byte :=
  s.receipt false part tenant ((List.range 64).filterMap fun i =>
    (s.tum.usage.find? fun u => decide (u.part = part ∧ u.tenant = tenant ∧ u.image = i ∧ (u.beats ≠ 0 ∨ u.kcols ≠ 0))).map
      fun u => receiptEntry s.tum part i u.beats.toNat u.kcols.toNat)

/-- OWNRECEIPT (R457): image index and output address. -/
def execCOwnreceipt (fn : Nat) (s : State) : Res :=
  .next (s.mailbox fn false true 9 true fun s x =>
    let part := fn - 1
    let i := leAt x 0 1
    if (s.model part i).isNone then .error 0x07
    else
      let us := s.tum.usage.filter fun u => decide (u.part = part ∧ u.image = i)
      let r := s.receipt true part 0xFF [receiptEntry s.tum part i (us.map fun u => u.beats.toNat).sum (us.map fun u => u.kcols.toNat).sum]
      match s.tumWrite fn (BitVec.ofNat 64 (leAt x 1 8)) r with
      | .error e => .error e
      | .ok s1 => .ok (s1.receiptDone, []))

/-! Links and exports (R458 to R462). -/

/-- LINKUP (R458, R459): link number. A handshake that fails leaves the link refused. -/
def execCLinkup (fn : Nat) (s : State) : Res :=
  let put := fun (s : State) (n st peer : Nat) =>
    { s with free := s.free + 1, dev := { s.dev with links := modAt s.dev.links n fun l => setFld (setFld l 1 0 st) 15 2 peer } }
  let a : W64 := BitVec.ofNat 64 (fld (s.tmbx fn) 63 12 * 4096)
  if fn ≠ 0 then .next (s.mailDone fn 0x01)
  else
    match (do
      let len := leNat (← s.tumRead fn a 8)
      if len ≠ 1 then .error 0x07 else s.tumRead fn (a + 8) 1 : Except Nat (List Byte)) with
    | .error e => .next (s.mailDone fn e)
    | .ok x =>
      let n := leNat x
      if 63 < n then .next (s.mailDone fn 0x07)
      else
        match Config.linkPeer n s.free with
        | none => .next ((put s n 3 0x3FFF).mailDone fn 0x02)
        | some (devId, dev, pod, m0, m1) =>
          if pod = fld (s.dev.links.getD n 0) 31 16 ∧ m0 = s.tum.mreg.getD 0 [] ∧ m1 = s.tum.mreg.getD 1 [] then
            .next (((put s n 2 dev).modTum fun t =>
              { t with mreg := t.mreg.set 2 (mregExtend (t.mreg.getD 2 []) (devId ++ leBytes 2 pod)) }).mailDone fn 0)
          else .next ((put s n 3 0x3FFF).mailDone fn 0x03)

/-- Is a secured link to a device up (R458, R460)? -/
def State.peerUp (s : State) (dev : Nat) : Bool := s.dev.links.any fun l => decide (fld l 1 0 = 2 ∧ fld l 15 2 = dev)

/-- A flit leaves this device. -/
def State.emit (s : State) (x : FlitDest) (b : FlitBody) : State := { s with flitsOut := s.flitsOut ++ [(x, b)] }

/-- A pod peer's session opens here under its id, for the enc direction alone; one whose id is taken is not taken over (R460, R462). -/
def State.importSess (s : State) (part tenant id : Nat) (ktx stx : List Byte) (ctx : W64) : State :=
  if s.tum.sessions.any fun y => decide (y.id = id) then s
  else s.modTum fun t =>
    { t with sessions := t.sessions ++ [{ id := id, part := part, tenant := tenant, ktx := ktx, stx := stx, ctx := ctx, dec := false }] }

/-- A pod peer's image takes the lowest free index of its partition, with no chunk filled; without the package flag pod, or without a place, it is not taken
(R447, R460). -/
def State.importModel (s : State) (part : Nat) (header key : List Byte) : State :=
  let m : Model := { part := part, idx := 0, header := header, key := key }
  match (List.range 64).find? fun i => (s.model part i).isNone with
  | none => s
  | some i =>
    if !m.podOk || decide (64 ≤ s.tum.models.length) then s
    else s.modTum fun t =>
      { t with models := t.models ++ [{ m with idx := i }], modelIds := assocSet t.modelIds (64 * part + i) (bytesAt header 8 16) }

/-- EXPORT (R460, R462): kind (0 session, 1 image), id, peer device. The keys leave in a flit to the peer; of a session the enc direction goes with them. -/
def execCExport (fn : Nat) (s : State) : Res :=
  .next (s.mailbox fn false true 5 true fun s x =>
    let id := leAt x 1 2
    let peer := leAt x 3 2
    let go := fun (allowed : Bool) (s1 : State) (b : FlitBody) =>
      if !allowed || !s.peerUp peer then .error 0x03
      else if !Config.peerAccepts peer id s.tum.boots then .error 0x04
      else .ok (s1.emit (.die (4 * peer)) b, [])
    match leAt x 0 1, s.openSess (fn - 1) id, s.model (fn - 1) id with
    | 0, some y, _ =>
      go y.enc (s.modTum fun t => { t with sessions := t.sessions.map fun z => if z.id = id then { z with enc := false, ktx := [], stx := [] } else z })
        (.session y.part y.tenant id y.ktx y.stx y.ctx)
    | 1, _, some m => go m.podOk s (.image m.part m.header m.key)
    | _, _, _ => .error 0x07)

end Sys2Proof.Machine
end

