-- ==== Sys2Proof/Machine/Graph.lean ====
section
/-! DEFINITION. Graph instances and the graph words (10 R248 to R271, 18 R376, R377), and DATA_RETURN (14 R331). -/
namespace Sys2Proof.Machine

/-! The instance in focus. -/

def State.finst (s : State) : GInst := s.inst s.focus.die s.focus.inst
def State.onInst (s : State) (f : GInst → GInst) : State := s.modInst s.focus.die s.focus.inst f

/-- Instance handle (R249). -/
def handleOf (die slot gen : Nat) : Nat := die + 4 * slot + 256 * gen

/-- The instance that a handle names, if it is live (R249). -/
def State.instOf (s : State) (h : Nat) : Option (Nat × Nat) :=
  let g := s.inst (h % 4) (h / 4 % 64)
  if g.live ∧ g.gen = h / 256 % 2 ^ 24 then some (h % 4, h / 4 % 64) else none

/-- The word completes: its result, and the next word. -/
def GInst.wrote (g : GInst) (n : BitVec 4) (v : W64) : GInst := { g.setG n v with phase := .ready, pc := g.pc + 1 }
def State.gdone (s : State) : State := s.onInst fun g => { g with phase := .ready, pc := g.pc + 1 }
def State.gwrite (s : State) (n : BitVec 4) (v : W64) : State := s.onInst fun g => g.wrote n v

/-- Result of a word that fails with a status. -/
def failed (status : Nat) : W64 := BitVec.ofNat 64 (2 ^ 63 + status)

/-- gb, or imm sign-extended when i = 1 (R257). -/
def GInst.opB (g : GInst) (w : GWord) : W64 := if w.mod.getLsbD 0 then sext w.imm else g.gr w.gb

/-! Ends (R268, R269). -/

/-- A graph fault: the open step is discarded and the instance ends with code 0xFFFF (R269). -/
def GInst.fault (g : GInst) (code : Nat) : GInst :=
  { g with stepOpen := false, step := [], phase := .closing 0xFFFF code
           launches := g.launches.map fun l => if l.inStep then { l with inStep := false, left := 0 } else l }

def State.gfault (s : State) (d k code : Nat) : State :=
  let s1 := s.modInst d k fun g => g.fault code
  (s1.inst d k).faults.foldl State.endTask s1

/-- Has every task of a closing instance ended? -/
def GInst.drained (g : GInst) : Bool := g.launches.all fun l => decide (l.left = 0)

/-- Steps 3 to 6 of R268, once every task has ended and the channel's ring takes the completion packet: leases and patches go, the packet is sent
or the code goes to the caller, the slot is free. -/
def State.closeInst (s : State) (d k : Nat) : State :=
  let g := s.inst d k
  match g.phase with
  | .closing code fault =>
    let c := s.chan g.part g.chan
    if !g.live || !g.drained || (g.parent.isNone && c.on && (c.full || !c.pending.isEmpty)) then s
    else
      let keys := g.leases.flatMap fun (_, b, z) => match s.owning d (b.toNat / 2 ^ 48) with
        | .ok (.inl e) => (List.range (z.toNat / 65536)).map fun i => pinKey e g.part g.tenant ((b.toNat / 65536 + i) % 2 ^ 32)
        | _ => []
      let s1 := (s.modInst d k fun g => ({ gen := g.gen } : GInst)).dropPins keys 0
      match g.parent with
      | some p => s1.modInst d p fun x => match x.phase with
        | .child _ => x.wrote ((graphFields (x.code.getD x.pc 0)).gd) (BitVec.ofNat 64 code)
        | _ => x
      | none =>
        let dropped := (g.patches.map fun (_, es) => es.length).sum
        s1.chanSend g.part g.chan 0x82
          (leBytes 4 g.cookie.toNat ++ leBytes 4 (handleOf d k g.gen) ++ leBytes 2 code ++ leBytes 1 fault ++ leBytes 1 0 ++ leBytes 2 dropped)
  | _ => s

/-- END (R268, R374): the step is discarded, records still queued end their tasks, and the instance closes when its tasks have ended. -/
def execGEnd (w : GWord) (s : State) : Res :=
  let g := s.finst
  let s1 := match g.phase with
    | .ready =>
      let s1 := s.onInst fun g => { g.fault 0 with phase := .closing (fld w.imm 15 0) 0 }
      g.faults.foldl State.endTask s1
    | _ => s
  .next (s1.closeInst s.focus.die s.focus.inst)

/-! Memory (R253, R254). -/

/-- The graph fault of a refused access: 0x08 when the POT or the class refuses, else 0x02 (R301, R411, R269). -/
def gcode (e : Deny) : Nat := if e.cls = 3 ∧ e.stage = 0 then 8 else 2

/-- The place of n bytes that an instance names, aligned, inside one page; else the graph fault of R253. A line that cannot be corrected is graph fault
0x02 (R289, log 89). -/
def State.gAccess (s : State) (write : Bool) (va : W64) (n align : Nat) : Except Nat Loc :=
  let g := s.finst
  let d := s.focus.die
  if va.toNat % align ≠ 0 then .error 1
  else if spaceOf va ≠ .translated then .error 2
  else
    match s.place (pintleWho g.part g.tenant d) (if write then .write else .read) write va with
    | .error e => .error (gcode e)
    | .ok x =>
      let l := match x with
        | .peer c a => Loc.peer c (s.resolve d (BitVec.ofNat 64 a)).toNat
        | .hbm e pa _ => Loc.hbm e pa
      if write && s.sealed g.part d va n then .error 8 else if !write && s.badLoc l n then .error 2 else .ok l

/-- A request of the instance at its home L2: counters and latency (R345). -/
def State.gTouch (s : State) (va : W64) (l : Loc) (n : Nat) : State × Nat :=
  s.touchL2 (pintleWho s.finst.part s.finst.tenant s.focus.die) va [(l, n, none)]

/-- A store of the instance on its way to its home L2: the walk it needs, and the cycles until it is performed (R254, R285). -/
def State.gSend (s : State) (va : W64) (l : Loc) (n : Nat) : State × Nat :=
  let (s1, wait) := s.noteWalks (pintleWho s.finst.part s.finst.tenant s.focus.die) va n
  (s1, wait + match l with
    | .hbm d _ => s.forwardLat (pintleWho s.finst.part s.finst.tenant s.focus.die) va d
        + if d = s.focus.die then Config.latL2Far else Config.latL2Die
    | .sp _ _ _ => Config.latFar
    | .peer _ _ => Config.latDevice)

/-- The word in focus raises a graph fault. -/
def State.gbad (s : State) (code : Nat) : State := s.gfault s.focus.die s.focus.inst code

/-- The address of a memory word: ga plus imm sign-extended. -/
def State.gAddr (s : State) (w : GWord) : W64 := s.finst.gr w.ga + sext w.imm

/-- GLD (R253, R254): eight committed bytes. -/
def execGGld (w : GWord) (s : State) : Res :=
  match s.finst.phase with
  | .ready =>
    (match s.gAccess false (s.gAddr w) 8 8 with
    | .error c => .next (s.gbad c)
    | .ok l =>
      let (s1, lat) := s.gTouch (s.gAddr w) l 8
      .next (s1.onInst fun g => { g with phase := .mem (s.cycle + lat) (some (w.gd, BitVec.ofNat 64 (leNat (s.committedLoc l 8)))) }))
  | _ => .next s

/-- GST (R253, R254): checked at issue, performed when the word completes. -/
def execGGst (w : GWord) (s : State) : Res :=
  match s.finst.phase with
  | .ready =>
    (match s.gAccess true (s.gAddr w) 8 8 with
    | .error c => .next (s.gbad c)
    | .ok l =>
      let (s1, lat) := s.gSend (s.gAddr w) l 8
      .next (s1.onInst fun g => { g with phase := .store (s.cycle + lat) l (leBytes 8 (g.gr w.gb).toNat) }))
  | _ => .next s

/-- What a sequencer word does at the end of its hold (R152, R172, R331, R334, R336). -/
def State.seqLand (s : State) (t : Task) (p : Nat) (act : SeqLand) : State :=
  match act with
  | .write places bytes => s.seqWrite t p places bytes
  | .install n k pat => s.modPort p n fun x => x.setWin k { pat := pat, fresh := true }
  | .fill line data => data.foldl (fun s (c, bs) => s.modCore p c fun k => { k with cc := cellsWrite k.cc (64 * line) bs }) s

/-- DATA_RETURN (R331, R254): the access of a sequencer or graph word is done; its register is written and the next word issues in the next cycle. On
a page that a trap froze no word completes (R372). -/
def execVDataReturn (s : State) : Res :=
  match s.focus.ev with
  | .dataReturn (.page p) =>
    match (s.page p).phase with
    | .mem due xd =>
      let stopped := (s.page p).frozen && (match s.owner p with
        | none => false
        | some t => s.trapped t)
      if s.cycle < due ∨ stopped = true then .next s
      else
        .next (s.modPage p fun pg =>
          let pg1 := match xd with
            | some (r, v) => pg.setX r v
            | none => pg
          { pg1.complete with phase := .after })
    | .land due act =>
      match s.owner p with
      | none => .next s
      | some t =>
        if s.cycle < due ∨ ((s.page p).frozen && s.trapped t) = true then .next s
        else .next ((s.seqLand t p act).modPage p fun pg => { pg.complete with phase := .after })
    | _ => .next s
  | .dataReturn (.graph d k) =>
    match (s.inst d k).phase with
    | .mem due gd =>
      if s.cycle < due then .next s
      else
        .next (s.modInst d k fun g =>
          match gd with
          | some (r, v) => g.wrote r v
          | none => { g with phase := .ready, pc := g.pc + 1 })
    | .store due l bs =>
      if s.cycle < due then .next s
      else
        match s.changeHeld (s.inst d k).part l bs with
        | some s1 => .next s1
        | none => .next ((s.commitLoc (s.inst d k).part l bs).modInst d k fun g => { g with phase := .ready, pc := g.pc + 1 })
    | _ => .next s
  | _ => .next s

/-- GCELL (R260): reads a cell, and with clr sets I and the sticky bits to zero in the same step. -/
def execGGcell (w : GWord) (s : State) : Res :=
  match s.finst.phase with
  | .ready =>
    let clr := w.mod.getLsbD 1
    (match s.gAccess clr (s.gAddr w) 16 16, s.gAccess false (s.gAddr w) 16 16 with
    | .error c, _ => .next (s.gbad c)
    | _, .error c => .next (s.gbad c)
    | .ok l, .ok _ =>
      let c : BitVec 128 := BitVec.ofNat 128 (leNat (s.committedLoc l 16))
      let v : W64 := if w.mod.getLsbD 0 then sat64 (cellI c) else cellRead c
      let zero := leBytes 16 (cellNew (c.extractLsb' 112 13)).toNat
      match if clr then s.changeHeld s.finst.part l zero else none with
      | some s1 => .next s1
      | none =>
        let (s1, lat) := s.gTouch (s.gAddr w) l 16
        let s2 := if clr then s1.commitLoc s.finst.part l zero else s1
        .next (s2.onInst fun g => { g with phase := .mem (s.cycle + lat) (some (w.gd, v)) }))
  | _ => .next s

/-! Registers (R257). -/

/-- GLI (R257). -/
def execGGli (w : GWord) (s : State) : Res :=
  .next (s.gwrite w.gd (if w.mod.getLsbD 0 then w.imm ++ (s.finst.gr w.gd).setWidth 32 else sext w.imm))

/-- GADD (R257). -/
def execGGadd (w : GWord) (s : State) : Res := .next (s.gwrite w.gd (s.finst.gr w.ga + s.finst.opB w))

/-- GSUB (R257). -/
def execGGsub (w : GWord) (s : State) : Res := .next (s.gwrite w.gd (s.finst.gr w.ga - s.finst.opB w))

/-- GAND (R257). -/
def execGGand (w : GWord) (s : State) : Res := .next (s.gwrite w.gd (s.finst.gr w.ga &&& s.finst.opB w))

/-- The relation of GCMP (R257). -/
def graphRel (cc : Nat) (a b : W64) : Bool :=
  match cc with
  | 0 => decide (a = b)
  | 1 => decide (a ≠ b)
  | 2 => decide (a.toInt < b.toInt)
  | 3 => decide (a.toInt ≤ b.toInt)
  | 4 => decide (a.toNat < b.toNat)
  | _ => decide (a.toNat ≤ b.toNat)

/-- GCMP (R257). -/
def execGGcmp (w : GWord) (s : State) : Res :=
  .next (s.gwrite w.gd (if graphRel (fld w.mod 3 1) (s.finst.gr w.ga) (s.finst.opB w) then 1 else 0))

/-! Control flow (R261, R262). -/

/-- A taken branch: loops whose body does not hold the target are popped (R261). -/
def GInst.jump (g : GInst) (target : Nat) : GInst :=
  { g with pc := target, phase := .ready, loops := g.loops.filter fun l => decide (l.first ≤ target ∧ target ≤ l.fin) }

/-- BR (R261). -/
def execGBr (w : GWord) (s : State) : Res := .next (s.onInst fun g => g.jump w.imm.toNat)

/-- BRC (R261). -/
def execGBrc (w : GWord) (s : State) : Res :=
  let taken := if w.mod.getLsbD 0 then decide (s.finst.gr w.ga = 0) else decide (s.finst.gr w.ga ≠ 0)
  .next (if taken then s.onInst fun g => g.jump w.imm.toNat else s.gdone)

/-- The ENDL of a LOOP (R262). -/
def GInst.matching (g : GInst) (pc : Nat) : Nat :=
  let ops := g.code.zipIdx.map fun (w, i) => (i, w.toNat / 2 ^ 58)
  ((((loopPairs ops []).getD []).find? fun (x : Nat × Nat) => decide (x.1 = pc)).map Prod.snd).getD pc

/-- LOOP (R261). -/
def execGLoop (w : GWord) (s : State) : Res :=
  let n := if w.mod.getLsbD 0 then w.imm.toNat else fld (s.finst.gr w.ga) 31 0
  .next (s.onInst fun g =>
    let e := g.matching g.pc
    if n = 0 then { g with pc := e + 1, phase := .ready }
    else { g with loops := { first := g.pc + 1, fin := e, left := n } :: g.loops, pc := g.pc + 1, phase := .ready })

/-- ENDL (R261). -/
def execGEndl (_w : GWord) (s : State) : Res :=
  .next (s.onInst fun g => match g.loops with
    | [] => { g with pc := g.pc + 1, phase := .ready }
    | l :: r =>
      if 1 < l.left then { g with loops := { l with left := l.left - 1 } :: r, pc := l.first, phase := .ready }
      else { g with loops := r, pc := g.pc + 1, phase := .ready })

/-! Launches (R256, R258, R259). -/

/-- Launch handle (R256). -/
def launchHandle (num status : Nat) : W64 := BitVec.ofNat 64 (status % 256 + num % 2 ^ 32 * 2 ^ 16)

/-- A launch recorded with its status; gd receives its handle. -/
def State.recordLaunch (s : State) (gd : BitVec 4) (l : Launch) : State :=
  s.onInst fun g => { g.wrote gd (launchHandle l.num l.shown) with nlaunch := l.num, launches := g.launches ++ [l] }

/-- The requests that the checks of a launch make for the image header and the window table that a record names (R233, R345). -/
def State.launchTouch (s : State) (w : Who) (bs : List Byte) : State :=
  match parseTask bs with
  | none => s
  | some r => (if r.wtab = 0 then s else s.ctxTouch w .record r.wtab (72 * r.wcount)).ctxTouch w .fetch r.config 128

/-- TASK and TASKD at issue: the record read (R230), its trip counts replaced, checked (R233), and queued or kept in the open step (R258). -/
def State.launch (s : State) (gd : BitVec 4) (va : W64) (trips : Option W64) : State :=
  let g := s.finst
  let d := s.focus.die
  if va.toNat % 64 ≠ 0 then s.gbad 1
  else
    let who := pintleWho g.part g.tenant d
    match s.ctxRead who .record va 256 with
    | .error e => s.gbad (gcode e)
    | .ok bs0 =>
      let s := s.ctxTouch who .record va 256
      let num := g.nlaunch + 1
      let bs := match trips with
        | none => bs0
        | some t => bs0.take 0x38 ++ leBytes 8 t.toNat ++ bs0.drop 0x40
      let none_ := match trips with
        | none => false
        | some t => (List.range 4).any fun j => decide (fld t (16 * j + 15) (16 * j) = 0)
      if none_ then s.recordLaunch gd { num := num, inStep := g.stepOpen }
      else
        let s := s.launchTouch who bs
        match s.launchCheck g.part g.tenant d g.evbase g.evcount bs with
        | .error st => s.recordLaunch gd { num := num, shown := st, status := st, inStep := g.stepOpen }
        | .ok l =>
          let s1 := s.recordLaunch gd { num := num, inStep := g.stepOpen, left := l.rcd.instances }
          if g.stepOpen then
            s1.onInst fun g => { g with step := g.step ++ [{ num := num, rcd := l.rcd, wins := l.wins, pages := l.pages }] }
          else
            let me : InstRef := { die := d, slot := s.focus.inst, gen := g.gen }
            if l.rcd.bg.getLsbD 7 then
              ({ s1 with nextSet := s1.nextSet + 1 } : State).enqueue l g.part g.tenant me num (some (s1.nextSet, 0, l.rcd.instances))
            else s1.enqueue l g.part g.tenant me num none

/-- TASK (R256). -/
def execGTask (w : GWord) (s : State) : Res := .next (s.launch w.gd (s.finst.gr w.ga + w.imm.setWidth 64) none)

/-- TASKD (R256). -/
def execGTaskd (w : GWord) (s : State) : Res :=
  .next (s.launch w.gd (s.finst.gr w.ga + w.imm.setWidth 64) (some (s.finst.gr w.gb)))

/-- STEP (R258). -/
def execGStep (_w : GWord) (s : State) : Res :=
  .next (if s.finst.stepOpen then s.gbad 4 else s.gdone.onInst fun g => { g with stepOpen := true, step := [] })

/-- The launches of a closed step queued as one member set (R245, R258). -/
def State.queueStep (s : State) (g : GInst) (me : InstRef) : State :=
  let members := g.step.filter fun l => l.rcd.bg.getLsbD 7
  let count := (members.map fun l => l.rcd.instances).sum
  let (s1, _) := g.step.foldl (fun ((s, first) : State × Nat) l =>
    let x : Launched := { rcd := l.rcd, wins := l.wins, pages := l.pages }
    if l.rcd.bg.getLsbD 7 then (s.enqueue x g.part g.tenant me l.num (some (s.nextSet, first, count)), first + l.rcd.instances)
    else (s.enqueue x g.part g.tenant me l.num none, first)) (s, 0)
  { s1 with nextSet := s1.nextSet + 1 }

/-- ENDSTEP (R258): all launches of the step or none. -/
def execGEndstep (w : GWord) (s : State) : Res :=
  let g := s.finst
  let d := s.focus.die
  if !g.stepOpen then .next (s.gbad 4)
  else
    let first := (g.launches.find? fun l => l.inStep && decide (l.status ≠ 0)).map (·.status)
    let members := (g.step.filter fun l => l.rcd.bg.getLsbD 7).map fun l => (l.rcd.instances, l.rcd, l.pages)
    let st : Nat := match first with
      | some x => x
      | none => if s.crowded g.part d members then 0x33 else 0
    let close := fun (l : Launch) =>
      if l.inStep then (if st = 0 then { l with inStep := false } else { l with inStep := false, status := st, left := 0 }) else l
    let s1 := s.onInst fun g => { g.wrote w.gd (BitVec.ofNat 64 st) with stepOpen := false, step := [], launches := g.launches.map close }
    .next (if st = 0 then s1.queueStep g { die := d, slot := s.focus.inst, gen := g.gen } else s1)

/-- Does an instance hold an event (R251)? -/
def GInst.grants (g : GInst) (n : Nat) : Bool := decide (g.evbase ≤ n ∧ n < g.evbase + g.evcount)

/-- Tasks of an instance whose superstep a granted WAIT makes not idempotent (R319). -/
def State.graphNonIdem (s : State) (d k gen : Nat) : State :=
  { s with tasks := s.tasks.map fun (i, t) =>
      if t.inst.die = d ∧ t.inst.slot = k ∧ t.inst.gen = gen then (i, { t with nonIdem := true }) else (i, t) }

/-- WAIT evN, n (R259): as a WAITE, it joins the event's queue and holds until its grant. -/
def execGWaitEvent (w : GWord) (s : State) : Res :=
  let g := s.finst
  match g.phase with
  | .ready =>
    let n := fld w.imm 7 0
    let need := if w.mod.getLsbD 1 then fld (g.gr w.ga) 31 0 else fld w.imm 31 16
    if !g.grants n then .next (s.gbad 3)
    else if need = 0 then .next (s.gdone.graphNonIdem s.focus.die s.focus.inst g.gen)
    else .next ((s.onInst fun g => { g with phase := .queued }).queueWait g.part n (.graph s.focus.die s.focus.inst) need)
  | _ => .next s

/-- WAIT gd, ga (R259): holds until every instance of the launch has ended. -/
def execGWaitLaunch (w : GWord) (s : State) : Res :=
  let g := s.finst
  let h := g.gr w.ga
  match g.launches.find? fun l => decide (launchHandle l.num l.shown = h) with
  | none => .next (s.gbad 6)
  | some l =>
    if l.inStep then .next (s.gbad 4)
    else if l.status ≠ 0 then .next (s.gwrite w.gd (failed l.status))
    else if l.left ≠ 0 then .next (s.onInst fun g => { g with phase := .hold })
    else .next (s.gwrite w.gd (BitVec.ofNat 64 l.bad))

/-- SIG evN, inc (R259). -/
def execGSig (w : GWord) (s : State) : Res :=
  let g := s.finst
  let n := fld w.imm 7 0
  .next (if g.grants n then s.gdone.signal g.part n (fld w.imm 31 16) else s.gbad 3)

/-! Instances (R248 to R250, R263). -/

/-- Key of an object: die and number (R248). -/
def objKey (d n : Nat) : Nat := 256 * d + n

def State.obj (s : State) (part d n : Nat) : Option GObj := assocGet (s.part part).objs (objKey d n)

/-- Live instances of an object. -/
def State.liveOf (s : State) (part d n : Nat) : List GInst := (s.die d).insts.filter fun g => g.live && decide (g.part = part ∧ g.obj = n)

/-- The pieces of a write of a context, each with its place and bytes; none where the class rules of a GST refuse one, or a sealed range (R253, R322). -/
def State.ctxDest (s : State) (who : Who) (va : W64) (bs : List Byte) : Option (List (Loc × List Byte)) :=
  (pieces (bs.length / 65536 + 2) va bs.length).mapM fun (x, m) =>
    let part := (bs.drop (x - va).toNat).take m
    if spaceOf x ≠ .translated ∨ s.sealed who.part who.home x m = true then none
    else
      match s.place who .write true x with
      | .error _ => none
      | .ok (.peer c a) => some (Loc.peer c (s.resolve who.home (BitVec.ofNat 64 a)).toNat, part)
      | .ok (.hbm d pa _) => some (Loc.hbm d pa, part)

/-- A context's bytes as committed writes of the Pintle (R254). -/
def State.ctxWrite (s : State) (who : Who) (va : W64) (bs : List Byte) : Option State :=
  (s.ctxDest who va bs).map fun ps => ps.foldl (fun s (l, b) => s.commitLoc who.part l b) s

/-- Is one of a context's writes held for want of a snapshot (R315)? -/
def State.ctxHeld (s : State) (who : Who) (va : W64) (bs : List Byte) : Option State :=
  ((s.ctxDest who va bs).getD []).findSome? fun (l, b) => s.changeHeld who.part l b

/-- The requester for the addresses of a packet, and for what its start wrote: its channel's tenant, with 0xFFFF naming die 0 (R481). -/
def packetWho (part tenant die : Nat) : Who := { pintleWho part tenant die with home := 0 }

/-- What starts an instance: the context it runs under, the object, and the patch entries of its launch (none: malformed). -/
structure Start where
  part : Nat
  tenant : Nat
  chan : Nat
  die : Nat
  obj : Nat
  evbase : Nat := 0
  evcount : Nat := 0
  cookie : W32 := 0
  patch : Option (List (Nat × W64)) := some []
  depth : Nat := 0
  parent : Option Nat := none
  deriving DecidableEq, Repr

/-- The start of an instance (R249, R250): the lowest free slot and per-object index, the block copied and patched, the registers set; the
status otherwise. A die field of 0xFFFF in the object's addresses names die 0 (R481). -/
def State.startInst (s : State) (x : Start) : Except Nat (Nat × State) :=
  match s.obj x.part x.die x.obj with
  | none => .error 0x40
  | some o =>
    let live := s.liveOf x.part x.die x.obj
    if o.words.isEmpty then .error 0x40
    else
      match (List.range 64).find? fun k => !(s.inst x.die k).live, (List.range 8).find? fun j => live.all fun g => decide (g.idx ≠ j) with
      | some k, some j =>
        let who := packetWho x.part x.tenant x.die
        let inDie0 := fun a => if s.devNum = 0x3FFF then a else s.resolve 0 a
        let at_ := inDie0 o.area + BitVec.ofNat 64 (j * o.bsize)
        (match x.patch, s.ctxRead who .read (inDie0 o.block) o.bsize with
        | none, _ => .error 0x42
        | _, .error _ => .error 0x42
        | some es, .ok block =>
          let patched := es.foldl (fun b (off, v) => (b.take off ++ leBytes 8 v.toNat ++ b.drop (off + 8)).take b.length) block
          match s.ctxWrite who at_ patched with
          | none => .error 0x42
          | some s1 =>
            let gen := ((s.inst x.die k).gen + 1) % 2 ^ 24
            let regs := [at_, BitVec.ofNat 64 (handleOf x.die k gen)] ++ List.replicate 14 0
            let g : GInst :=
              { gen := gen, live := true, part := x.part, tenant := x.tenant, chan := x.chan, obj := x.obj, ver := o.ver, idx := j, code := o.words
                block := at_, bsize := o.bsize, g := regs, evbase := x.evbase, evcount := x.evcount, cookie := x.cookie, depth := x.depth
                parent := x.parent }
            .ok (k, s1.modInst x.die k fun _ => g))
      | _, _ => .error 0x41

/-- CALLG (R263). -/
def execGCallg (w : GWord) (s : State) : Res :=
  let g := s.finst
  let d := s.focus.die
  match g.phase with
  | .ready =>
    if 4 ≤ g.depth then .next (s.gbad 5)
    else
      (match s.startInst { part := g.part, tenant := g.tenant, chan := g.chan, die := d, obj := fld w.imm 7 0, evbase := g.evbase, evcount := g.evcount
                           cookie := g.cookie, depth := g.depth + 1, parent := some s.focus.inst } with
      | .error st => .next (s.gwrite w.gd (failed st))
      | .ok (k, s1) =>
        .next ((s1.modInst d k fun c => { c with g := c.g.take 2 ++ g.g.drop 2 }).onInst fun g => { g with phase := .child k }))
  | _ => .next s

/-! Patches, messages, leases, receipts (R264 to R267). -/

/-- PATCH (R264): messages queued before this cycle, all or the oldest, applied to the block where its start wrote it (R250, log 91); it holds while a write
is held (R315). -/
def execGPatch (w : GWord) (s : State) : Res :=
  let g := s.finst
  let ready := g.patches.filter fun (c, _) => decide (c < s.cycle)
  let take := if w.mod.getLsbD 0 then ready.take 1 else ready
  let es := take.flatMap (·.2)
  let who := packetWho g.part g.tenant s.focus.die
  match es.findSome? fun (off, v) => s.ctxHeld who (g.block + BitVec.ofNat 64 off) (leBytes 8 v.toNat) with
  | some s1 => .next s1
  | none =>
    match es.foldlM (fun (s : State) (off, v) => s.ctxWrite who (g.block + BitVec.ofNat 64 off) (leBytes 8 v.toNat)) s with
    | none => .next (s.gbad 8)
    | some s1 => .next ((s1.onInst fun g => { g with patches := g.patches.drop take.length }).gwrite w.gd (BitVec.ofNat 64 es.length))

/-- MSG (R265): holds while the channel's device-to-host ring is full. -/
def execGMsg (w : GWord) (s : State) : Res :=
  let g := s.finst
  let c := s.chan g.part g.chan
  if c.on && (c.full || !c.pending.isEmpty) then .next (s.onInst fun g => { g with phase := .hold })
  else
    .next (s.gdone.chanSend g.part g.chan 0x83
      (leBytes 4 (handleOf s.focus.die s.focus.inst g.gen) ++ leBytes 2 (fld w.imm 15 0) ++ leBytes 2 0
        ++ (List.range 5).flatMap fun i => leBytes 8 (g.g.getD (8 + i) 0).toNat))

/-- RCV (R265): holds until a data packet is queued. -/
def execGRcv (w : GWord) (s : State) : Res :=
  match s.finst.data with
  | [] => .next (s.onInst fun g => { g with phase := .hold })
  | (tag, x) :: r =>
    .next ((s.onInst fun g =>
      { g with data := r, g := g.g.take 8 ++ ((List.range 5).map fun i => x.extractLsb' (64 * i) 64) ++ g.g.drop 13 }).gwrite w.gd (tag.setWidth 64))

/-- LEASE (R266): holds until its range is resident; a page that no stage maps raises a lease fault, whose refusal ends the instance. -/
def execGLease (w : GWord) (s : State) : Res :=
  let g := s.finst
  let d := s.focus.die
  let base := g.gr w.ga
  let size := g.gr w.gb
  if base.toNat % 65536 ≠ 0 ∨ size.toNat % 65536 ≠ 0 ∨ size = 0 then .next (s.gbad 1)
  else if s.outside d base size.toNat then .next (s.gwrite w.gd (failed 0x31))
  else if 8 ≤ g.leases.length then .next (s.gwrite w.gd (failed 0x4A))
  else if g.refused then .next ((s.onInst fun g => { g with refused := false, leaseFault := none }).gbad 2)
  else if g.leaseFault.isSome then .next s
  else
    match s.residence g.part g.tenant d base size.toNat with
    | .error st =>
      .next ((s.onInst fun g => { g with phase := .hold, leaseFault := some st }).leaseReport g.part g.tenant
        (handleOf d s.focus.inst g.gen) st)
    | .ok es =>
      let slot := ((List.range 8).find? fun i => g.leases.all fun (j, _, _) => decide (j ≠ i)).getD 0
      .next (((s.pin es).onInst fun g => { g with leases := g.leases ++ [(slot, base, size)] }).gwrite w.gd (BitVec.ofNat 64 slot))

/-- FREE (R266). -/
def execGFree (w : GWord) (s : State) : Res :=
  let g := s.finst
  let i := fld (g.gr w.ga) 2 0
  match g.leases.find? fun (j, _, _) => decide (j = i) with
  | none => .next (s.gbad 6)
  | some (_, b, z) =>
    let keys := match s.owning s.focus.die (b.toNat / 2 ^ 48) with
      | .ok (.inl e) => (List.range (z.toNat / 65536)).map fun k => pinKey e g.part g.tenant ((b.toNat / 65536 + k) % 2 ^ 32)
      | _ => []
    .next ((s.gdone.onInst fun g => { g with leases := g.leases.filter fun (j, _, _) => decide (j ≠ i) }).dropPins keys 0)

/-- RECEIPT (R267, R457): the tenant's receipt, written whole into class G memory or not at all. -/
def execGReceipt (w : GWord) (s : State) : Res :=
  let g := s.finst
  let d := s.focus.die
  match g.phase with
  | .ready =>
    let va := s.gAddr w
    let who := pintleWho g.part g.tenant d
    let r := s.tenantReceipt g.part g.tenant
    let fits := (pieces (r.length / 65536 + 2) va r.length).all fun (x, m) =>
      decide (spaceOf x = .translated) && !s.sealed g.part d x m && (match s.place who .write true x with
        | .ok (.hbm _ _ e) => decide (e.cls = 0)
        | _ => false)
    if va.toNat % 64 ≠ 0 then .next (s.gbad 1)
    else if !fits then .next (s.gwrite w.gd (failed 0x31))
    else
      (match s.ctxWrite who va r with
      | none => .next (s.gwrite w.gd (failed 0x31))
      | some s1 =>
        .next (s1.receiptDone.onInst fun g =>
          { g with phase := .mem (s.cycle + Config.latL2Far) (some (w.gd, BitVec.ofNat 64 r.length)) }))
  | _ => .next s

/-! Faults of tasks (R376, R377). -/

/-- The oldest record that no FAULTRD of the instance has read: by freeze cycle, then by R371. -/
def State.unread (s : State) (g : GInst) : Option (Task × TrapRec) :=
  let rs := g.faults.filterMap fun tid => match s.task tid with
    | some t => if t.trapRead then none else t.trap.map fun r => (t, r)
    | none => none
  rs.foldl (fun (best : Option (Task × TrapRec)) x => match best with
    | none => some x
    | some b => if x.2.cycle < b.2.cycle ∨ (x.2.cycle = b.2.cycle ∧ x.2.cause.before b.2.cause = true) then some x else some b) none

/-- FAULTRD (R376): the oldest unread record is written and its tid becomes the handle. -/
def execGFaultrd (w : GWord) (s : State) : Res :=
  let s0 := s.onInst fun g => { g with frdSeen := true }
  match s0.unread s0.finst with
  | none => .next (if w.mod.getLsbD 0 then s0.gwrite w.gd (BitVec.ofNat 64 (2 ^ 63)) else s0.onInst fun g => { g with phase := .hold })
  | some (t, r) =>
    let va := s0.gAddr w
    match s0.gAccess true va 64 64, s0.gAccess true (va + 64) 64 64 with
    | .error c, _ => .next (s0.gbad c)
    | _, .error c => .next (s0.gbad c)
    | .ok a, .ok b =>
      let part := s0.finst.part
      let s1 := (s0.commitLoc part a (r.bytes.take 64)).commitLoc part b (r.bytes.drop 64)
      .next ((s1.modTask t.tid fun t => { t with trapRead := true }).gwrite w.gd (BitVec.ofNat 64 t.tid))

/-- A choice applied to the record that ga names (R376, R377): its result, 0x49 when nothing waits, 0x48 when the cause does not admit it. -/
def State.choice (s : State) (w : GWord) (admits : Task → Cause → Bool) (f : State → Task → State) : State :=
  match s.waitingFor s.focus.die s.focus.inst (s.finst.gr w.ga) with
  | none => s.gwrite w.gd (failed 0x49)
  | some (t, c) => if admits t c then f (s.gwrite w.gd 0) t else s.gwrite w.gd (failed 0x48)

/-- FAULTACK.end (R377). -/
def execGFaultackEnd (w : GWord) (s : State) : Res := .next (s.choice w (fun _ _ => true) fun s t => s.endTask t.tid)

/-- FAULTACK.resume (R377); a trap that ends a task at its restore admits none (R150, R365). -/
def execGFaultackResume (w : GWord) (s : State) : Res := .next (s.choice w (fun t c => c.admitsResume && decide (t.state ≠ .loading)) State.resumeTask)

/-- RETRY (R377). -/
def execGRetry (w : GWord) (s : State) : Res := .next (s.choice w s.admitsRestart State.retryTask)

end Sys2Proof.Machine
end

