-- ==== Sys2Proof/Machine/Host.lean ====
section
/-! DEFINITION. Host packets (10 R248, R264, R265, R270 to R274): acceptance by revision and seq, install, launch, patch, data, and the packet
of unknown type. -/
namespace Sys2Proof.Machine

/-- What a packet answers (R274): cookie, status, handle, refusal record. -/
structure Answer where
  cookie : Nat
  status : Nat
  handle : Nat := 0
  refusal : BitVec 128 := 0
  deriving DecidableEq, Repr

/-- The status packet that answers a packet of a channel (R274). -/
def State.answerPacket (s : State) (part k : Nat) (a : Answer) : State :=
  s.chanSend part k 0x81 (statusBody a.cookie a.status a.handle a.refusal)

/-- A packet is taken from its channel's ring (R272, R273): accepted, or dropped with one status per expected value when its revision or seq is wrong. -/
def State.takePacket (s : State) (part k : Nat) (bs : List Byte) : State × Bool :=
  let c := s.chan part k
  let s0 := s.modChan part k fun c => { c with hhead := (c.hhead + 1) % 65536 }
  if leAt bs 0 2 ≠ 1 ∨ leAt bs 4 4 ≠ c.hexp then
    (if c.faulted then s0
    else (s0.modChan part k fun c => { c with faulted := true }).answerPacket part k
      { cookie := 0, status := if leAt bs 0 2 ≠ 1 then 0x43 else 0x44, handle := c.hexp }, false)
  else (s0.modChan part k fun c => { c with reg := setFld c.reg 287 256 (nextSeq c.hexp), hlast := c.hexp, faulted := false }, true)

/-- A packet taken while its partition is quiesced: an accepted one joins the channel's queue and acts after the quiesce (R425, log 63). -/
def State.queuePacket (s : State) (part k : Nat) (bs : List Byte) : State :=
  match s.takePacket part k bs with
  | (s1, true) => s1.modChan part k fun c => { c with queued := c.queued ++ [BitVec.ofNat 512 (leNat bs)] }
  | (s1, false) => s1

/-- A packet acts and is answered (R273, R274): one that the channel has accepted and queued, else one that is now taken from its ring. -/
def State.hostPacket (s : State) (p : HostPacket) (f : State → Chan → List Byte → State × Answer) : State :=
  let c := s.chan p.part p.chan
  if !c.on then s
  else
    let bs := leBytes 64 p.bits.toNat
    let act := fun (s : State) => match f s c bs with
      | (s2, a) => s2.answerPacket p.part p.chan a
    match c.queued with
    | _ :: rest => act (s.modChan p.part p.chan fun c => { c with queued := rest })
    | [] =>
      match s.takePacket p.part p.chan bs with
      | (s1, true) => act s1
      | (s1, false) => s1

/-- Are an object number and a die of a packet usable (R273)? -/
def State.packetDie (s : State) (bs : List Byte) : Bool :=
  decide (leAt bs 16 2 < 256 ∧ leAt bs 18 1 < 4) && s.dev.ident.getLsbD (24 + leAt bs 18 1)

/-- Does a range lie in class G memory of the partition (R248)? -/
def State.inGeneric (s : State) (w : Who) (va : W64) (n : Nat) : Bool :=
  (pieces (n / 65536 + 2) va n).all fun (x, _) => decide (spaceOf x = .translated) && (match s.place w .any false x with
    | .ok (.hbm _ _ e) => decide (e.cls = 0)
    | _ => false)

/-- Words that a Pintle's graph memory holds besides the current version of one object: of every object its version, and the copies on which live
instances of an older version, or of an emptied object, still run (R248, R270). -/
def State.graphWords (s : State) (die part obj : Nat) : Nat :=
  let current := s.parts.zipIdx.map fun (p, n) => (p.objs.map fun (k, o) =>
    if k / 256 = die ∧ ¬(n = part ∧ k % 256 = obj) then o.words.length else 0).sum
  let old := (((s.die die).insts.filter fun g => g.live && decide (((s.obj g.part die g.obj).map GObj.ver) ≠ some g.ver
    ∨ ((s.obj g.part die g.obj).any fun o => o.words.isEmpty) = true ∨ (g.part = part ∧ g.obj = obj))).map fun g => ((g.part, g.obj, g.ver), g.code.length)).eraseDups
  current.sum + (old.map Prod.snd).sum

/-- The image of an install: its graph words, or the refusal; none when it is longer than the graph memory (R248, R83, R301). -/
def State.graphImage (s : State) (w : Who) (a : W64) : Except Refuse (Option (List W64)) :=
  let bad : Refuse := { reason := 0x22, plane := 2 }
  match s.ctxRead w .fetch a 64 with
  | .error _ => .error bad
  | .ok h =>
    if 65536 < leAt h 8 4 then .ok none
    else
      match s.ctxRead w .fetch a (64 + 8 * leAt h 8 4) with
      | .error _ => .error bad
      | .ok bs => (s.checkGraph w.part bs).map some

/-- The effect of an install packet (R248, R270). -/
def State.install (s : State) (part tenant : Nat) (bs : List Byte) : State × Answer :=
  let a : Answer := { cookie := leAt bs 20 4, status := 0 }
  let obj := leAt bs 16 2
  let die := leAt bs 18 1
  let at_ := fun (off : Nat) => (BitVec.ofNat 64 (leAt bs off 8) : W64)
  let size := leAt bs 40 4
  let w := packetWho part tenant die
  let put := fun (o : GObj) => s.modPart part fun p => { p with objs := assocSet p.objs (objKey die obj) o }
  let old := (s.obj part die obj).getD {}
  if !s.packetDie bs then (s, { a with status := 0x4B })
  else if at_ 24 = 0 then (put { old with words := [] }, a)
  else
    match s.graphImage w (at_ 24) with
    | .error r => (s, { a with status := 0x46, refusal := r.bits })
    | .ok ws =>
      if size % 64 ≠ 0 ∨ 65536 < size ∨ leAt bs 32 8 % 64 ≠ 0 ∨ leAt bs 48 8 % 64 ≠ 0
          ∨ s.inGeneric w (at_ 32) size = false ∨ s.inGeneric w (at_ 48) (8 * size) = false then
        (s, { a with status := 0x46, refusal := ({ reason := 0x22, plane := 2 } : Refuse).bits })
      else
        match ws with
        | none => (s, { a with status := 0x47 })
        | some ws =>
          if (s.liveOf part die obj).any (fun g => decide (g.ver ≠ old.ver)) || decide (65536 < s.graphWords die part obj + ws.length) then
            (s, { a with status := 0x47 })
          else (put { words := ws, block := at_ 32, bsize := size, area := at_ 48, ver := old.ver + 1 }, a)

/-- HOST_INSTALL_PACKET (R248, R270, R273). -/
def execHHostInstallPacket (p : HostPacket) (s : State) : Res :=
  .next (s.hostPacket p fun s c bs => s.install p.part c.tenant bs)

/-- The patch entries that a packet names, read when it is accepted (R273); none when malformed or refused (status 0x42). -/
def State.patchEntries (s : State) (w : Who) (a : W64) (count size : Nat) : Option (List (Nat × W64)) :=
  if a.toNat % 16 ≠ 0 ∨ 256 < count then none
  else
    match s.ctxRead w .read a (16 * count) with
    | .error _ => none
    | .ok bs => (List.range count).mapM fun i =>
        let e := (bs.drop (16 * i)).take 16
        if leAt e 0 4 % 8 ≠ 0 ∨ size ≤ leAt e 0 4 ∨ leAt e 4 4 ≠ 0 then none else some (leAt e 0 4, BitVec.ofNat 64 (leAt e 8 8))

/-- The effect of a launch packet (R249 to R251, R273). -/
def State.launchPacket (s : State) (part k tenant : Nat) (bs : List Byte) : State × Answer :=
  let a : Answer := { cookie := leAt bs 20 4, status := 0 }
  let obj := leAt bs 16 2
  let die := leAt bs 18 1
  if !s.packetDie bs then (s, { a with status := 0x4B })
  else
    let size := ((s.obj part die obj).map (·.bsize)).getD 0
    let patch := if leAt bs 24 8 = 0 then some []
      else s.patchEntries (packetWho part tenant die) (BitVec.ofNat 64 (leAt bs 24 8)) (leAt bs 32 2) size
    match s.startInst { part := part, tenant := tenant, chan := k, die := die, obj := obj, evbase := leAt bs 34 1, evcount := leAt bs 36 2
                        cookie := BitVec.ofNat 32 (leAt bs 20 4), patch := patch } with
    | .error st => (s, { a with status := st })
    | .ok (slot, s1) => (s1, { a with handle := handleOf die slot (s1.inst die slot).gen })

/-- HOST_LAUNCH_PACKET (R273). -/
def execHHostLaunchPacket (p : HostPacket) (s : State) : Res :=
  .next (s.hostPacket p fun s c bs => s.launchPacket p.part p.chan c.tenant bs)

/-- The live instance of a tenant that a packet's handle names (R249, R273). -/
def State.packetInst (s : State) (part tenant : Nat) (bs : List Byte) : Option (Nat × Nat) :=
  match s.instOf (leAt bs 16 4) with
  | none => none
  | some (d, k) => if (s.inst d k).part = part ∧ (s.inst d k).tenant = tenant then some (d, k) else none

/-- HOST_PATCH_PACKET (R264, R273). -/
def execHHostPatchPacket (p : HostPacket) (s : State) : Res :=
  .next (s.hostPacket p fun s c bs =>
    let a : Answer := { cookie := leAt bs 20 4, status := 0 }
    match s.packetInst p.part c.tenant bs with
    | none => (s, { a with status := 0x45 })
    | some (d, k) =>
      let g := s.inst d k
      let n := leAt bs 32 2
      match if n = 0 then none else s.patchEntries (packetWho p.part c.tenant d) (BitVec.ofNat 64 (leAt bs 24 8)) n g.bsize with
      | none => (s, { a with status := 0x42 })
      | some es =>
        if 16 ≤ g.patches.length then (s, { a with status := 0x45 })
        else (s.modInst d k fun g => { g with patches := g.patches ++ [(s.cycle, es)] }, a))

/-- HOST_DATA_PACKET (R265, R273). -/
def execHHostDataPacket (p : HostPacket) (s : State) : Res :=
  .next (s.hostPacket p fun s c bs =>
    match s.packetInst p.part c.tenant bs with
    | none => (s, { cookie := 0, status := 0x45 })
    | some (d, k) =>
      if 16 ≤ (s.inst d k).data.length then (s, { cookie := 0, status := 0x45 })
      else
        (s.modInst d k fun g => { g with data := g.data ++ [(BitVec.ofNat 16 (leAt bs 20 2), BitVec.ofNat 320 (leAt bs 24 40))] },
          { cookie := 0, status := 0 }))

/-- UNKNOWN_PACKET_TYPE (R273): accepted, acts on nothing, and its status packet carries the cookie as received. -/
def execHUnknownPacketType (p : HostPacket) (s : State) : Res :=
  .next (s.hostPacket p fun s _ bs => (s, { cookie := leAt bs 20 4, status := 0x4C }))

end Sys2Proof.Machine
end

