-- ==== Sys2Proof/Machine/Reset.lean ====
section
/-! DEFINITION. Resets: the function-level reset and the revocation of a tenant (20 R413, R426, R427, 23 R464, R465), the closing of channels (24 R472),
PF0's and the cold reset (24 R476). -/
namespace Sys2Proof.Machine

/-- Is a context in the scope of a reset: a partition, or one tenant of it? -/
def inScope (part : Nat) (tenant : Option Nat) (p t : Nat) : Bool :=
  decide (p = part) && (match tenant with
    | none => true
    | some x => decide (t = x))

/-- An instance ends without a completion packet and frees its slot (R426 step 2). -/
def State.killInst (s : State) (d k : Nat) : State :=
  let g := s.inst d k
  let keys := g.leases.flatMap fun (_, b, z) => match s.owning d (b.toNat / 2 ^ 48) with
    | .ok (.inl e) => (List.range (z.toNat / 65536)).map fun i => pinKey e g.part g.tenant ((b.toNat / 65536 + i) % 2 ^ 32)
    | _ => []
  let keep := fun (e : Event) => { e with queue := e.queue.filter (fun (q : Waiter × Nat) => decide (q.1 ≠ .graph d k)) }
  let s1 := s.modPart g.part fun p => { p with events := p.events.map (fun (x : Nat × Event) => (x.1, keep x.2)) }
  (s1.modInst d k fun g => ({ gen := g.gen } : GInst)).dropPins keys 0

/-- Steps 2 and 3 of R426 for a partition or one of its tenants: every task ends with trap(system, flr), which leaves no record (R464), every
instance ends, and what their requests left behind is dropped. -/
def State.endContext (s : State) (part : Nat) (tenant : Option Nat) : State :=
  let s1 := (s.tasks.map (·.2)).foldl (fun s t =>
    if inScope part tenant t.part t.tenant ∧ t.state ≠ .ended then (match s.task t.tid with
      | none => s
      | some u => s.release1 u true)
    else s) s
  (List.range 4).foldl (fun s d => (List.range 64).foldl (fun s k =>
    if (s.inst d k).live ∧ inScope part tenant (s.inst d k).part (s.inst d k).tenant = true then s.killInst d k else s) s) s1

/-- A tenant is revoked (R413). -/
def State.revokeTenant (s : State) (part tenant : Nat) : State :=
  (s.endContext part (some tenant)).modPart part fun p => { p with schw := modAt p.schw tenant fun w => setFld w 7 0 0 }

/-- A channel closes: its packets are dropped, and its tenant is revoked when no other open channel is bound to it (R413, R472). -/
def State.closeChan (s : State) (part k : Nat) : State :=
  let tenant := (s.chan part k).tenant
  let s1 := s.modChan part k fun c => { c with reg := setFld c.reg 152 152 0, pending := [], queued := [], closing := false }
  if (s1.part part).chans.any fun c => c.on && decide (c.tenant = tenant) then s1 else s1.revokeTenant part tenant

/-- The retention registers of a partition on every die are released (R339, R426). -/
def State.releaseRetain (s : State) (part : Nat) : State :=
  let slice := fun (sl : Slice) => (List.range 8).foldl (fun (sl : Slice) i =>
    let r := sl.retain.getD i 0
    if retOn r ∧ fld r 136 133 = part then sl.setRetain i 0 else sl) sl
  { s with dies := s.dies.map fun (x : Die) => { x with slices := x.slices.map slice } }

/-- Caches of a partition: L2 lines, fills on their way, translations and walks (R426 steps 3 and 4). -/
def State.dropCaches (s : State) (part : Nat) : State :=
  let slice := fun (sl : Slice) =>
    { sl with lines := sl.lines.filter (fun l => decide (l.part ≠ part)), fills := sl.fills.filter (fun f => decide (f.part ≠ part))
              xq := sl.xq.filter (fun f => decide (f.part ≠ part)) }
  let die := fun (x : Die) =>
    { x with tlb := x.tlb.filter (fun e => decide (e.part ≠ part)), walks := x.walks.filter (fun q => decide (q.2.part ≠ part))
             invs := x.invs.filter (fun i => decide (i.part ≠ part)), slices := x.slices.map slice }
  { s with dies := s.dies.map die }

/-- The pages that a partition holds: those of the clusters it owns and those its tasks still run on (R426 step 4). -/
def State.ownPages (s : State) (part : Nat) : List Nat :=
  ((List.range 4).flatMap fun d => (s.clustersOf part d).flatMap (clusterPages d))
    ++ s.tasks.flatMap fun (_, t) => if t.part = part ∧ t.state ≠ .ended then t.pages else []

/-- The registers of a partition that a function-level reset returns to their values after reset; the others stay (R426 step 4, R427). -/
def Part.flr (p : Part) : Part :=
  { p with schw := List.replicate 16 1, schq := 20, vspill := 0, vstat := 0, savearea := 0, colltmo := 0x4000, lm := 0
           events := [], seals := [], lib := [], objs := [], logged := 0, sched := List.replicate 4 {}
           chans := p.chans.map fun c => { c with reg := setFld c.reg 152 152 0, pending := [], queued := [], closing := false }
           dies := p.dies.map fun d => { d with s1root := List.replicate 16 0, lcxm := ({} : PartDie).lcxm } }

/-- The function-level reset of a partition (R426, R427): its channels stop, its tasks and instances end, its requests are drained, its state is
scrubbed, its images and sessions close. -/
def State.flr (s : State) (part : Nat) : State :=
  let s0 := s.modPart part fun p => { p with chans := p.chans.map fun c => { c with reg := setFld c.reg 152 152 0, pending := [], queued := [] } }
  let s1 := s0.endContext part none
  let s2 := (s.ownPages part).foldl (fun s p => { s with pages := assocDel s.pages p }) s1
  let s3 : State :=
    { s2 with tasks := s2.tasks.filter (fun (_, t) => decide (t.part ≠ part)), bounds := s2.bounds.filter (fun b => decide (b.part ≠ part))
              vsects := s2.vsects.filter fun v => decide (v.part ≠ part) }
  let s4 := ((s3.releaseRetain part).dropCaches part).modPart part Part.flr
  let s5 := (s4.tum.models.filter fun m => decide (m.part = part)).foldl State.closeModel s4
  (s5.tum.sessions.filter fun x => decide (x.part = part)).foldl State.closeSess s5

/-- VF_FLR (R426). -/
def execVVfFlr (s : State) : Res :=
  match s.focus.ev with
  | .vfFlr part => .next (s.flr part)
  | _ => .next s

/-- A die's registers after PF0's reset: memory stays, caches and translations go. -/
def Die.pf0 (x : Die) : Die :=
  { insts := x.insts.map (fun g => { gen := g.gen }), khz := x.khz, served := x.served, nextWord := x.nextWord, stamp := x.stamp }

/-- PF0_FLR (R476): every partition in ascending order, then every device and die register but domid and the links. -/
def execVPf0Flr (s : State) : Res :=
  match s.focus.ev with
  | .pf0Flr =>
    let s1 := (List.range 16).foldl State.flr s
    let dev : Device := { ident := s1.dev.ident, domid := s1.dev.domid, links := s1.dev.links, fwst := setFld s1.dev.fwst 4 4 0 }
    .next { s1 with parts := List.replicate 16 {}, dies := s1.dies.map Die.pf0, dev := dev, staged := [], tum := { s1.tum with queue := [] } }
  | _ => .next s

/-- COLD_RESET (R476): everything at its value after reset, with the firmware slots, the floor and the active slot as they are. Inputs still to come
keep their distance in time; messages sent and other devices' memory are outside. -/
def execVColdReset (s : State) : Res :=
  match s.focus.ev with
  | .coldReset =>
    let c := State.cold (s.tum.boots + 1) (decide (s.actSlot = 1)) (BitVec.ofNat 16 (fld s.dev.fwst 31 16)) s.tum.slots
    .next { c with inputs := s.inputs.map (fun (t, x) => (t - s.cycle, x)), peer := s.peer, free := s.free, irqs := s.irqs, debugOut := s.debugOut, moved := s.moved }
  | _ => .next s

end Sys2Proof.Machine
end

