-- ==== Sys2Proof/Machine/Registers.lean ====
section
/-! DEFINITION. Host register accesses (24 R466 to R469): the map of BAR0, word-wise writes, reads, the row of a write, and every register's
own rule (09 R239, 12 R287 R291 R293 R297, 13 R316 R317, 14 R342 to R344, 16 R366, 18 R382, 19 R393 R398 R404, 20 R408 to R425, 21 R431 R436
R459, 24 R471 to R474, R479). -/
namespace Sys2Proof.Machine

/-- A register with the numbers that choose it: n a partition, d a die, fn a function (0 PF0). -/
inductive Reg where
  | schw (n t : Nat) | schq (n : Nat) | vspill (n : Nat) | vstat (n : Nat) | savearea (n : Nat) | colltmo (n : Nat) | lm (n : Nat)
  | lfack (fn : Nat) | tmbx (fn : Nat) | rring (fn : Nat)
  | chan (n k : Nat)
  | part (n d : Nat) | qos (n d : Nat) | s2root (n d : Nat) | s1root (n d t : Nat) | s1inv (n d : Nat) | s2inv (n d : Nat)
  | cxm (n d : Nat) | lcxm (n d : Nat) | l2pcnt (n d s : Nat)
  | ident | domid | domlto | fwst | link (i : Nat)
  | thome (d i : Nat) | fmtrange (d i : Nat) | cmprange (d i : Nat) | cmpcnt (d i : Nat) | mig (d i : Nat) | hkstat (d : Nat)
  | retain (d s i : Nat) | rcnt (d s i : Nat)
  deriving DecidableEq, Repr

/-- A register at an offset: which, where it starts, its bytes. -/
structure RegAt where
  reg : Reg
  base : Nat
  size : Nat
  deriving DecidableEq, Repr

/-- The partition block (R468). -/
def partReg (n off : Nat) : Option RegAt :=
  if off < 0x40 then some ⟨.schw n (off / 4), off / 4 * 4, 4⟩
  else if off < 0x44 then some ⟨.schq n, 0x40, 4⟩
  else if off < 0x48 then none
  else if off < 0x58 then some ⟨.vspill n, 0x48, 16⟩
  else if off < 0x60 then some ⟨.vstat n, 0x58, 8⟩
  else if off < 0x70 then some ⟨.savearea n, 0x60, 16⟩
  else if off < 0x78 then some ⟨.colltmo n, 0x70, 8⟩
  else if off < 0x80 then some ⟨.lfack (n + 1), 0x78, 8⟩
  else if off < 0xA0 then some ⟨.lm n, 0x80, 32⟩
  else if off < 0xB0 then some ⟨.tmbx (n + 1), 0xA0, 16⟩
  else if 0x100 ≤ off ∧ off < 0x110 then some ⟨.rring (n + 1), 0x100, 16⟩
  else if 0x2000 ≤ off ∧ off < 0x3000 then some ⟨.chan n ((off - 0x2000) / 64), off / 64 * 64, 64⟩
  else if 0x4000 ≤ off ∧ off < 0x8000 then
    let d := (off - 0x4000) / 0x1000
    let o := off % 0x1000
    let b := off / 0x1000 * 0x1000
    if o < 0x08 then some ⟨.part n d, b, 8⟩
    else if o < 0x10 then some ⟨.qos n d, b + 0x08, 8⟩
    else if o < 0x18 then some ⟨.s2root n d, b + 0x10, 8⟩
    else if 0x20 ≤ o ∧ o < 0xA0 then some ⟨.s1root n d ((o - 0x20) / 8), b + o / 8 * 8, 8⟩
    else if 0xA0 ≤ o ∧ o < 0xB8 then some ⟨.s1inv n d, b + 0xA0, 24⟩
    else if 0xC0 ≤ o ∧ o < 0xD8 then some ⟨.s2inv n d, b + 0xC0, 24⟩
    else if 0x100 ≤ o ∧ o < 0x120 then some ⟨.cxm n d, b + 0x100, 32⟩
    else if 0x120 ≤ o ∧ o < 0x140 then some ⟨.lcxm n d, b + 0x120, 32⟩
    else if 0x200 ≤ o ∧ o < 0x2A0 then some ⟨.l2pcnt n d ((o - 0x200) / 16), b + o / 16 * 16, 16⟩
    else none
  else none

/-- The device block and the die blocks (R466, R469). -/
def deviceReg (off : Nat) : Option RegAt :=
  if off < 0x08 then some ⟨.ident, 0, 8⟩
  else if off < 0x0C then some ⟨.domid, 0x08, 4⟩
  else if 0x10 ≤ off ∧ off < 0x18 then some ⟨.domlto, 0x10, 8⟩
  else if 0x18 ≤ off ∧ off < 0x20 then some ⟨.fwst, 0x18, 8⟩
  else if 0x20 ≤ off ∧ off < 0x30 then some ⟨.tmbx 0, 0x20, 16⟩
  else if 0x30 ≤ off ∧ off < 0x38 then some ⟨.lfack 0, 0x30, 8⟩
  else if 0x100 ≤ off ∧ off < 0x110 then some ⟨.rring 0, 0x100, 16⟩
  else if 0x800 ≤ off ∧ off < 0xA00 then some ⟨.link ((off - 0x800) / 8), off / 8 * 8, 8⟩
  else none

def dieReg (d b o : Nat) : Option RegAt :=
  if o < 0x100 then (if o % 32 < 24 then some ⟨.thome d (o / 32), b + o / 32 * 32, 24⟩ else none)
  else if o < 0x300 then some ⟨.fmtrange d ((o - 0x100) / 32), b + o / 32 * 32, 32⟩
  else if o < 0x500 then (if o % 64 < 40 then some ⟨.cmprange d ((o - 0x300) / 64), b + o / 64 * 64, 40⟩ else none)
  else if o < 0x580 then some ⟨.cmpcnt d ((o - 0x500) / 16), b + o / 16 * 16, 16⟩
  else if 0x600 ≤ o ∧ o < 0x680 then some ⟨.mig d ((o - 0x600) / 32), b + o / 32 * 32, 32⟩
  else if 0x700 ≤ o ∧ o < 0x710 then some ⟨.hkstat d, b + 0x700, 16⟩
  else if 0x1000 ≤ o ∧ o < 0x1A00 then
    (if o % 32 < 24 then some ⟨.retain d ((o - 0x1000) / 256) (o % 256 / 32), b + o / 32 * 32, 24⟩ else none)
  else if 0x2000 ≤ o ∧ o < 0x2500 then some ⟨.rcnt d ((o - 0x2000) / 128) (o % 128 / 16), b + o / 16 * 16, 16⟩
  else none

/-- The register at a BAR0 offset of a function (R466); none where no register is listed. -/
def regAt (fn off : Nat) : Option RegAt :=
  if fn = 0 then
    if off < 0x10000 then deviceReg off
    else if off < 0x50000 then dieReg ((off - 0x10000) / 0x10000) (off / 0x10000 * 0x10000) (off % 0x10000)
    else if 0x80000 ≤ off ∧ off < 0x180000 then
      (partReg ((off - 0x80000) / 0x10000) (off % 0x10000)).map fun r => { r with base := off / 0x10000 * 0x10000 + r.base }
    else none
  else if fn ≤ 16 ∧ off < 0x10000 then partReg (fn - 1) off
  else none

def State.slice (s : State) (d i : Nat) : Slice := (s.die d).slices.getD i {}

/-- The value that a register reads as. -/
def State.regGet (s : State) : Reg → BitVec 512
  | .schw n t => ((s.part n).schw.getD t 0).setWidth 512
  | .schq n => (s.part n).schq.setWidth 512
  | .vspill n => (s.part n).vspill.setWidth 512
  | .vstat n => (s.part n).vstat.setWidth 512
  | .savearea n => (s.part n).savearea.setWidth 512
  | .colltmo n => (s.part n).colltmo.setWidth 512
  | .lm n => (s.part n).lm.setWidth 512
  | .lfack fn => (if fn = 0 then s.dev.lfack else (s.part (fn - 1)).lfack).setWidth 512
  | .tmbx fn => (s.tmbx fn).setWidth 512
  | .rring fn => (if fn = 0 then s.dev.rring else (s.part (fn - 1)).rring).setWidth 512
  | .chan n k => (s.chan n k).reg
  | .part n d => (s.partDie n d).part.setWidth 512
  | .qos n d => (s.partDie n d).qos.setWidth 512
  | .s2root n d => (s.partDie n d).s2root.setWidth 512
  | .s1root n d t => ((s.partDie n d).s1root.getD t 0).setWidth 512
  | .s1inv n d => (s.partDie n d).s1inv.setWidth 512
  | .s2inv n d => (s.partDie n d).s2inv.setWidth 512
  | .cxm n d => (s.partDie n d).cxm.setWidth 512
  | .lcxm n d => (s.partDie n d).lcxm.setWidth 512
  | .l2pcnt n d i => ((s.partDie n d).l2pcnt.getD i 0).setWidth 512
  | .ident => s.dev.ident.setWidth 512
  | .domid => s.dev.domid.setWidth 512
  | .domlto => s.dev.domlto.setWidth 512
  | .fwst => s.dev.fwst.setWidth 512
  | .link i => (s.dev.links.getD i 0).setWidth 512
  | .thome d i => ((s.die d).thome.getD i 0).setWidth 512
  | .fmtrange d i => ((s.die d).fmtrange.getD i 0).setWidth 512
  | .cmprange d i => ((s.die d).cmprange.getD i 0).setWidth 512
  | .cmpcnt d i => ((s.die d).cmpcnt.getD i 0).setWidth 512
  | .mig d i => ((s.die d).mig.getD i {}).reg.setWidth 512
  | .hkstat d => (s.die d).hkstat.setWidth 512
  | .retain d j i => ((s.slice d j).retain.getD i 0).setWidth 512
  | .rcnt d j i => ((s.slice d j).rcnt.getD i 0).setWidth 512

/-- Four bytes of BAR0 as a function reads them; an unlisted offset reads zero (R467). -/
def State.hostWord (s : State) (fn off : Nat) : W32 :=
  match regAt fn off with
  | none => 0
  | some r => (s.regGet r.reg >>> (8 * (off - r.base))).setWidth 32

/-- A host read (R467): 4 or 8 bytes, naturally aligned; any other access reads zero. -/
def State.hostRead (s : State) (fn off size : Nat) : W64 :=
  if size = 4 ∧ off % 4 = 0 then (s.hostWord fn off).setWidth 64
  else if size = 8 ∧ off % 8 = 0 then s.hostWord fn (off + 4) ++ s.hostWord fn off
  else 0

/-! Writes. -/

/-- The bits hi to lo. -/
def bitMask (hi lo : Nat) : Nat := (2 ^ (hi + 1 - lo) - 1) * 2 ^ lo

/-- A register with the bits of a mask replaced; every other bit keeps its value, reserved bits zero. -/
def take {n : Nat} (old : BitVec n) (v : BitVec 512) (mask : Nat) : BitVec n :=
  (old &&& ~~~(BitVec.ofNat n mask)) ||| (v.setWidth n &&& BitVec.ofNat n mask)

/-- Is every page of a spill area owned by the partition (R316)? -/
def State.spillOwned (s : State) (n : Nat) (v : BitVec 512) : Bool :=
  let size := fld v 95 64
  decide (size ≤ s.tum.pot.length) && (List.range size).all fun i =>
    match assocGet s.tum.pot (fld v 49 48 * 2 ^ 32 + (fld v 47 16 + i)) with
    | some e => decide (e.owner = n)
    | none => false

/-- lfack (R417): the answer to a waiting lease fault of the level's stages, of a task or of an instance's LEASE. -/
def State.writeLfack (s : State) (fn : Nat) (v : BitVec 512) : State :=
  let tid := fld v 31 0
  let refuse := v.getLsbD 32
  let mine := fun (st part : Nat) => if fn = 0 then decide (st = 2 ∨ st = 3) else decide (st = 1 ∧ part = fn - 1)
  let put := fun (s : State) =>
    if fn = 0 then { s with dev := { s.dev with lfack := take s.dev.lfack v (bitMask 32 0) } }
    else s.modPart (fn - 1) fun p => { p with lfack := take p.lfack v (bitMask 32 0) }
  let task : Option Task := match s.task tid with
    | none => none
    | some t => match t.leaseFault with
      | some st => if t.state = .leaseWait ∧ mine st t.part = true then some t else none
      | none => none
  match task with
  | some t => put (if refuse then s.endTask t.tid else s.modTask t.tid fun t => { t with leaseFault := none })
  | none =>
    match s.instOf tid with
    | none => s
    | some (d, k) =>
      let g := s.inst d k
      match g.leaseFault with
      | none => s
      | some st =>
        if mine st g.part then put (s.modInst d k fun g => if refuse then { g with refused := true } else { g with leaseFault := none })
        else s

/-- tmbx (R431): ignored while go = 1; writing go starts the command. -/
def State.writeTmbx (s : State) (fn : Nat) (v : BitVec 512) : State :=
  if (s.tmbx fn).getLsbD 72 then s
  else
    let s1 := s.setTmbx fn (take (s.tmbx fn) v (bitMask 63 12 + bitMask 72 64))
    if v.getLsbD 72 then { s1 with tum := { s1.tum with queue := s1.tum.queue ++ [fn] } } else s1

/-- rring (R474). -/
def ringTake (r : BitVec 128) (v : BitVec 512) : BitVec 128 :=
  take r v (bitMask 63 7 + (if fld v 67 64 ≤ 12 then bitMask 67 64 else 0) + bitMask 112 96)

/-- chanK (R471 to R473): creation, closing, the resync packet, and room for packets held back. -/
def State.writeChan (s : State) (n k : Nat) (v : BitVec 512) : State :=
  let c := s.chan n k
  let on := c.reg.getLsbD 152
  let mask := bitMask 223 192 + (if on then 0 else bitMask 63 6 + bitMask 127 70 + (if fld v 131 128 ≤ 12 then bitMask 131 128 else 0)
    + bitMask 151 132)
  let r := take c.reg v mask
  let s1 := s.modChan n k fun c => { c with reg := r }
  let s2 :=
    if !on && v.getLsbD 152 then
      (if fld r 151 136 = 1 ∧ s.enabled n = true then
        s1.modChan n k fun _ => { reg := setFld (setFld (setFld r 152 152 1) 287 256 1) 319 288 0 }
      else s1)
    else if on && !v.getLsbD 152 then s1.closeChan n k
    else s1
  let c2 := s2.chan n k
  let s3 := s2.flushChan n k (c2.pending.length + 1)
  if v.getLsbD 224 then s3.chanSend n k 0x84 (leBytes 4 (s3.chan n k).hexp ++ leBytes 4 (s3.chan n k).dlast) else s3

/-- partN of a die (R408, R412): the register; the function-level reset when en is cleared, over the clusters held until then; preq with cause 11 for tasks
on revoked clusters. -/
def State.writePart (s : State) (n d : Nat) (v : BitVec 512) : State :=
  let old := (s.partDie n d).part
  let foreign := (List.range 10).any fun c => v.getLsbD c && (List.range 16).any fun m => decide (m ≠ n) && s.ownsCluster m d c
  if foreign || decide (64 < fld v 21 16 + fld v 28 22) then s
  else
    let new := take old v (bitMask 9 0 + bitMask 28 16 + bitMask 32 32)
    let s1 := s.modPartDie n d fun r => { r with part := new }
    if old.getLsbD 32 && !new.getLsbD 32 then (s.flr n).modPartDie n d fun r => { r with part := new }
    else
      let gone := fun (p : Nat) => decide (p / 40 = d) && old.getLsbD (p % 40 / 4) && !new.getLsbD (p % 40 / 4)
      (s.tasks.filter fun (_, t) => decide (t.part = n ∧ t.state = .running) && t.pages.any gone).foldl
        (fun s (i, _) => s.later (.event (.preemptRequest i 3))) s1

/-- s1invN and s2invN (R418): a write with tkt ≠ done starts the invalidation; one that is unacknowledged makes a write ignored. -/
def State.writeInv (s : State) (n d stage : Nat) (v : BitVec 512) : State :=
  let old := if stage = 1 then (s.partDie n d).s1inv else (s.partDie n d).s2inv
  if fld old 127 112 ≠ fld old 143 128 then s
  else
    let new := take old v (bitMask 47 16 + bitMask 95 64 + (if stage = 1 then bitMask 100 96 else 0) + bitMask 127 112)
    let s1 := s.modPartDie n d fun r => if stage = 1 then { r with s1inv := new } else { r with s2inv := new }
    if fld new 127 112 = fld new 143 128 then s1
    else s1.modDie d fun x => { x with invs := x.invs ++ [{ part := n, stage := stage, due := s.cycle + Config.latInvalidate }] }

/-- What the final round copies for the epoch that a flip closes (R425): of its unread entries the pages with their sectors, or, when one was lost, every page of
the partition whose bit is set, whole. -/
def State.finalRound (s : State) (n : Nat) : List Moved :=
  let lm := (s.part n).lm
  let sent := fun (d page : Nat) (ks : List Nat) =>
    ({ part := n, page := s.dieField d * 2 ^ 32 + page, mask := ks.foldl (fun (m : BitVec 512) k => m ||| (1 <<< k)) 0
       data := ks.flatMap fun k => s.committedN d (page * 65536 + 128 * k) 128 } : Moved)
  if lm.getLsbD 177 then
    s.tum.pot.filterMap fun (k, e) =>
      let d := k / 2 ^ 32
      let bit := logBit (fld lm 178 178) d (k % 2 ^ 32)
      let byte := leNat (s.committedN (fld lm 161 160) (fld lm 159 112 + bit / 8) 1)
      if e.owner = n ∧ byte / 2 ^ (bit % 8) % 2 = 1 then some (sent d (k % 2 ^ 32) (List.range 512)) else none
  else
    let unread := (fld lm 95 80 + 65536 - fld lm 111 96) % 65536
    let count := min unread (s.part n).logged
    (List.range count).filterMap fun i =>
      let at_ := fld lm 47 0 + 128 * (((fld lm 95 80 + 65536 - count + i) % 65536) % fld lm 79 64)
      let entry := s.committedN (fld lm 49 48) at_ 72
      (s.localDie (leAt entry 6 2)).map fun d =>
        sent d (leAt entry 2 4) ((List.range 512).filter fun k => leAt entry (8 + k / 8) 1 / 2 ^ (k % 8) % 2 = 1)

/-- Is a partition at rest for its final round (R425): quiesced, no task running, no commit in progress? -/
def State.atRest (s : State) (n : Nat) : Bool :=
  (s.part n).lm.getLsbD 180 && (s.tasks.all fun (_, t) => decide (t.part ≠ n ∨ t.state ≠ .running)) && s.bounds.all fun b => decide (b.part ≠ n)

/-- lmN (R423 to R425): a flip of a partition at rest is its final round. -/
def State.writeLm (s : State) (n : Nat) (v : BitVec 512) : State :=
  let old := (s.part n).lm
  let mask := bitMask 111 96 + bitMask 177 176 + bitMask 180 180
    + (if old.getLsbD 176 then 0 else bitMask 63 7 + bitMask 79 64 + bitMask 175 118)
  let r := take old v mask
  let new := if v.getLsbD 179 then setFld (setFld r 178 178 (1 - fld old 178 178)) 177 177 0 else r
  let s0 := if v.getLsbD 179 && s.atRest n then { s with moved := s.moved ++ s.finalRound n } else s
  let s1 := s0.modPart n fun p => { p with lm := new, logged := if v.getLsbD 179 then 0 else p.logged }
  if new.getLsbD 180 && !old.getLsbD 180 then
    (s.tasks.filter fun (_, t) => decide (t.part = n ∧ t.state = .running)).foldl
      (fun s (i, _) => s.later (.event (.preemptRequest i 2))) s1
  else s1

/-- cmprangeN (R293): accepted only while no line of the old or the new range is resident, for a listed pair, over no page of class O, S or Y. -/
def State.writeCmp (s : State) (d i : Nat) (v : BitVec 512) : State :=
  let x := s.die d
  let old := x.cmprange.getD i 0
  let new := setFld (take old v (bitMask 63 16 + bitMask 127 80 + bitMask 191 144 + bitMask 255 201 + bitMask 259 256)) 260 260 0
  let resident := x.slices.any fun sl => sl.lines.any fun l => inRange old (l.line * 512) || inRange new (l.line * 512)
  let ratio := fld new 257 256
  let pair := decide (fld new 259 258 ≤ 2 ∧ (ratio ≤ 1 ∨ (ratio = 2 ∧ fld new 259 258 = 0)))
  let keyed := decide (ratio ≠ 0) && s.tum.pot.any fun (k, e) => decide (k / 2 ^ 32 = d ∧ 1 ≤ e.cls ∧ e.cls ≤ 3
    ∧ fld new 63 0 < (k % 2 ^ 32 + 1) * 65536 ∧ k % 2 ^ 32 * 65536 < fld new 63 0 + fld new 127 64)
  s.modDie d fun x => { x with cmprange := x.cmprange.set i (if resident || !pair || keyed then setFld old 260 260 1 else new) }

/-- Does some level-2 entry of a partition's stage 2 on a die point to the table at an address (R404)? -/
def State.leafTable (s : State) (d part base : Nat) : Bool :=
  let root := (s.partDie part d).s2root
  root.getLsbD 0 && (List.range 64).any fun i =>
    match readEntry 2 1 (leNat (s.committedN d (fld root 47 9 * 512 + 8 * i) 8)) with
    | .table oa => (List.range 8192).any fun j =>
        match readEntry 2 2 (leNat (s.committedN d (oa + 8 * j) 8)) with
        | .table ob => decide (ob = base)
        | _ => false
    | _ => false

/-- May a migration start (R404)? A destination on another device is refused, since its POT is not this device's (log 6); a die has 2^21 pages (R3, R289). -/
def State.migOk (s : State) (d : Nat) (r : BitVec 256) : Bool :=
  let leaf := fld r 191 128
  match s.localDie (fld r 63 48), s.localDie (fld r 127 112), s.localDie (leaf / 2 ^ 48) with
  | some a, some b, some e =>
    let src := fld r 47 16
    let dst := fld r 111 80
    let at_ := leaf % 2 ^ 48
    (match s.potAt a (src * 65536) with
    | none => false
    | some p =>
      decide (a = d ∧ dst < 2 ^ 21 ∧ (s.potAt b (dst * 65536)).isNone ∧ (a, src) ≠ (b, dst)) && s.leafTable e p.owner (at_ / 65536 * 65536)
        && (match readEntry 2 3 (leNat (s.committedN e at_ 8)) with
          | .leaf g oa _ => decide (g = s.dieField a ∧ oa = src)
          | _ => false))
  | _, _, _ => false

/-- migN (R404): fields are ignored while a migration runs; state 001 starts one, or is refused. -/
def State.writeMig (s : State) (d i : Nat) (v : BitVec 512) : State :=
  let m := (s.die d).mig.getD i {}
  let st := fld m.reg 206 204
  if st = 1 ∨ st = 2 then s
  else
    let r := take m.reg v (bitMask 63 16 + bitMask 127 80 + bitMask 191 131 + bitMask 199 192 + (if fld v 203 200 = 0 then 0 else bitMask 203 200))
    let put := fun (m : Mig) => s.modDie d fun x => { x with mig := x.mig.set i m }
    if fld v 206 204 ≠ 1 then put { m with reg := r }
    else if s.migOk d r then
      put { reg := setFld (setFld (setFld r 206 204 1) 210 207 0) 220 211 0, mask := 0, todo := List.range 512, due := s.cycle + Config.latL2Die }
    else put { m with reg := setFld r 206 204 4 }

/-- retainN of a slice (R297, R339, R340): refused when its ways would exceed 12; a claim of the register ends. -/
def State.writeRetain (s : State) (d j i : Nat) (v : BitVec 512) : State :=
  let sl := s.slice d j
  let r := take (sl.retain.getD i 0) v (bitMask 63 9 + bitMask 127 73 + bitMask 136 128)
  if 12 < retWays r ∨ 12 < sl.total i + retOwns r then s
  else
    let s1 := s.modDie d fun x => { x with slices := modAt x.slices j fun sl => sl.setRetain i r }
    { s1 with tasks := s1.tasks.map fun (k, t) => (k, { t with claims := t.claims.filter fun c => decide (c ≠ (d, i)) }) }

/-- A write takes effect at a register (R467): fields that the function may not write, and reserved fields, keep their values. -/
def State.regSet (s : State) (fn : Nat) (r : Reg) (v : BitVec 512) : State :=
  let op := decide (fn = 0)
  let pair := (2 ^ 256 - 1) / (2 ^ 16 - 1) * 0x7FFF
  let die := fun (d : Nat) (f : Die → Die) => s.modDie d f
  match r with
  | .schw n t => s.modPart n fun p => { p with schw := modAt p.schw t fun w => take w v (bitMask 8 0) }
  | .schq n => if fld v 4 0 < 10 ∨ 30 < fld v 4 0 then s else s.modPart n fun p => { p with schq := take p.schq v (bitMask 4 0) }
  | .vspill n =>
    if !op || decide (fld v 63 50 ≠ 0) || (s.part n).vstat.getLsbD 63 || !s.spillOwned n v then s
    else s.modPart n fun p => { p with vspill := take p.vspill v (bitMask 95 16) }
  | .vstat n => s.modPart n fun p => { p with vstat := take p.vstat v (bitMask 47 0) }
  | .savearea n =>
    if s.tasks.any fun (_, t) => decide (t.part = n ∧ (t.state = .loading ∨ (t.saveSlot.isSome ∧ t.state ≠ .running ∧ t.state ≠ .ending))) then s
    else s.modPart n fun p => { p with savearea := take p.savearea v (bitMask 95 16) }
  | .colltmo n => s.modPart n fun p => { p with colltmo := take p.colltmo v (bitMask 31 0) }
  | .lm n => if op then s.writeLm n v else s
  | .lfack g => s.writeLfack g v
  | .tmbx g => s.writeTmbx g v
  | .rring g =>
    if g = 0 then { s with dev := { s.dev with rring := ringTake s.dev.rring v } }
    else s.modPart (g - 1) fun p => { p with rring := ringTake p.rring v }
  | .chan n k => s.writeChan n k v
  | .part n d => if op then s.writePart n d v else s
  | .qos n d => if op then s.modPartDie n d fun r => { r with qos := take r.qos v (bitMask 4 0 + bitMask 15 8) } else s
  | .s2root n d => if op then s.modPartDie n d fun r => { r with s2root := take r.s2root v (1 + bitMask 47 9) } else s
  | .s1root n d t => s.modPartDie n d fun r => { r with s1root := modAt r.s1root t fun w => take w v (1 + bitMask 47 9) }
  | .s1inv n d => s.writeInv n d 1 v
  | .s2inv n d => if op then s.writeInv n d 2 v else s
  | .cxm n d => if op then s.modPartDie n d fun r => { r with cxm := take r.cxm v pair } else s
  | .lcxm n d => s.modPartDie n d fun r => { r with lcxm := take r.lcxm v pair }
  | .l2pcnt n d i => s.modPartDie n d fun r => { r with l2pcnt := modAt r.l2pcnt i fun w => take w v (bitMask 127 0) }
  | .ident => s
  | .domid =>
    if (s.dev.links.take 48).any (fun l => decide (fld l 1 0 = 1 ∨ fld l 1 0 = 2)) || decide (9216 ≤ fld v 13 0 ∧ fld v 13 0 ≠ 0x3FFF) then s
    else { s with dev := { s.dev with domid := take s.dev.domid v (bitMask 13 0) } }
  | .domlto => { s with dev := { s.dev with domlto := take s.dev.domlto v (bitMask 31 0) } }
  | .fwst => if v.getLsbD 4 then s else { s with dev := { s.dev with fwst := setFld s.dev.fwst 4 4 0 } }
  | .link i =>
    { s with dev := { s.dev with links := modAt s.dev.links i fun l => if fld l 1 0 = 1 ∨ fld l 1 0 = 2 then l else take l v (bitMask 31 16) } }
  | .thome d i =>
    let m := bitMask 63 16 + bitMask 127 80 + (if 9 ≤ fld v 132 128 ∧ fld v 132 128 ≤ 24 then bitMask 132 128 else 0) + bitMask 156 133
    die d fun x => { x with thome := modAt x.thome i fun w => take w v m }
  | .fmtrange d i =>
    if fld v 193 192 = 3 then s
    else
      let m := bitMask 63 16 + bitMask 127 80 + bitMask 191 137 + bitMask 193 192
      die d fun x => { x with fmtrange := modAt x.fmtrange i fun w => take w v m }
  | .cmprange d i => s.writeCmp d i v
  | .cmpcnt d i => die d fun x => { x with cmpcnt := modAt x.cmpcnt i fun w => take w v (bitMask 127 0) }
  | .mig d i => s.writeMig d i v
  | .hkstat d => die d fun x => { x with hkstat := take x.hkstat v (bitMask 127 64) }
  | .retain d j i => s.writeRetain d j i v
  | .rcnt d j i => die d fun x => { x with slices := modAt x.slices j fun sl => { sl with rcnt := modAt sl.rcnt i fun w => take w v (bitMask 127 0) } }

/-- A register's value with four-byte words at BAR0 offsets replaced. -/
def putWords (base : Nat) (v : BitVec 512) (ws : List (Nat × W32)) : BitVec 512 :=
  ws.foldl (fun v (off, x) => setFld v (8 * (off - base) + 31) (8 * (off - base)) x.toNat) v

/-- A host write (R467) as it reaches its register. -/
inductive Hit where
  /-- Ignored: an unlisted offset, another size, or a VF whose partition is not enabled (R475). -/
  | none
  /-- Words of a wider register wait for its highest word. -/
  | stage (r : RegAt) (ws : List (Nat × W32))
  /-- The registers whose write takes effect, with their new values. -/
  | write (rs : List (RegAt × BitVec 512))
  deriving DecidableEq, Repr

/-- Words that a function has staged in a register. -/
def State.stagedIn (s : State) (fn : Nat) (r : RegAt) : List (Nat × W32) :=
  (s.staged.filter fun (f, o, _) => decide (f = fn ∧ r.base ≤ o ∧ o < r.base + r.size)).map fun (_, o, x) => (o, x)

/-- Where a write goes. A register wider than 8 bytes takes effect when a word of its highest 8 bytes is written. -/
def State.hit (s : State) (w : RegWr) : Hit :=
  if w.fn ≠ 0 ∧ s.enabled (w.fn - 1) = false then .none
  else if ¬((w.size = 4 ∨ w.size = 8) ∧ w.off % w.size = 0) then .none
  else
    let lo := (w.off, w.val.setWidth 32)
    let ws := if w.size = 8 then [lo, (w.off + 4, (w.val >>> 32).setWidth 32)] else [lo]
    match regAt w.fn w.off with
    | none => if w.size = 8 then
        (match regAt w.fn (w.off + 4) with
        | none => .none
        | some r => .write [(r, putWords r.base (s.regGet r.reg) (ws.drop 1))])
      else .none
    | some r =>
      if r.size = 4 then
        .write (ws.filterMap fun (o, x) => (regAt w.fn o).map fun r => (r, putWords r.base (s.regGet r.reg) [(o, x)]))
      else if w.off / 8 * 8 + 8 < r.base + r.size then .stage r ws
      else .write [(r, putWords r.base (s.regGet r.reg) (s.stagedIn w.fn r ++ ws))]

/-- The row of a write that takes effect at a register. -/
def State.effectRow (s : State) (r : Reg) (v : BitVec 512) : Instr :=
  match r with
  | .chan n k =>
    let c := (s.chan n k).reg
    if !c.getLsbD 152 && v.getLsbD 152 then .rChannelCreate
    else if c.getLsbD 152 && !v.getLsbD 152 then .rChannelClose
    else if v.getLsbD 224 then .rRsync
    else if fld v 223 208 ≠ fld c 223 208 then .rChannelDheadWrite
    else .rRegisterWrite
  | .part n d =>
    let c := (s.partDie n d).part
    if c.getLsbD 32 && !v.getLsbD 32 then .rPartitionDisable
    else if fld c 9 0 &&& fld v 9 0 ≠ fld c 9 0 then .rClusterRevocation
    else .rRegisterWrite
  | .s1inv _ _ => .rS1inv
  | .s2inv _ _ => .rS2inv
  | .lfack _ => .rLfack
  | .mig d i => if fld v 206 204 = 1 ∧ fld ((s.die d).mig.getD i {}).reg 206 204 ≠ 1 then .rMigrationStart else .rRegisterWrite
  | .lm n => if v.getLsbD 179 then .rLmFlip else if v.getLsbD 180 && !(s.part n).lm.getLsbD 180 then .rLmQuiesce else .rRegisterWrite
  | .retain _ _ _ => .rRetentionRegWrite
  | .cmprange _ _ => .rCompressionRangeWrite
  | .vspill _ => .rVspillWrite
  | .savearea _ => .rSaveareaWrite
  | _ => .rRegisterWrite

/-- The row of a host write. -/
def State.regRow (s : State) (w : RegWr) : Instr :=
  match s.hit w with
  | .write ((r, v) :: _) => s.effectRow r.reg v
  | _ => .rRegisterWrite

/-- The write in focus takes effect at registers of a kind; words of wider registers are staged. -/
def State.hostWrite (s : State) (kind : Reg → Bool) : State :=
  let w := s.focus.wr
  match s.hit w with
  | .none => s
  | .stage r ws =>
    if kind r.reg then
      let kept := s.staged.filter fun (f, o, _) => decide (¬(f = w.fn ∧ (ws.map Prod.fst).contains o = true))
      { s with staged := kept ++ ws.map fun (o, x) => (w.fn, o, x) }
    else s
  | .write rs =>
    rs.foldl (fun s (r, v) =>
      if kind r.reg then
        let kept := s.staged.filter fun (f, o, _) => decide (¬(f = w.fn ∧ r.base ≤ o ∧ o < r.base + r.size))
        ({ s with staged := kept } : State).regSet w.fn r.reg v
      else s) s

/-! The rows. -/

def Reg.isChan : Reg → Bool
  | .chan _ _ => true
  | _ => false
def Reg.isPart : Reg → Bool
  | .part _ _ => true
  | _ => false
def Reg.isLm : Reg → Bool
  | .lm _ => true
  | _ => false

/-- CHANNEL_CREATE (R472). -/
def execRChannelCreate (s : State) : Res := .next (s.hostWrite Reg.isChan)

/-- CHANNEL_CLOSE (R472, R413). -/
def execRChannelClose (s : State) : Res := .next (s.hostWrite Reg.isChan)

/-- RSYNC (R473). -/
def execRRsync (s : State) : Res := .next (s.hostWrite Reg.isChan)

/-- CHANNEL_DHEAD_WRITE (R472). -/
def execRChannelDheadWrite (s : State) : Res := .next (s.hostWrite Reg.isChan)

/-- REGISTER_WRITE (R467): any register. -/
def execRRegisterWrite (s : State) : Res := .next (s.hostWrite fun _ => true)

/-- PARTITION_DISABLE (R408, R426). -/
def execRPartitionDisable (s : State) : Res := .next (s.hostWrite Reg.isPart)

/-- CLUSTER_REVOCATION (R408, R412). -/
def execRClusterRevocation (s : State) : Res := .next (s.hostWrite Reg.isPart)

/-- S1INV (R418). -/
def execRS1inv (s : State) : Res := .next (s.hostWrite fun r => match r with
  | .s1inv _ _ => true
  | _ => false)

/-- S2INV (R418). -/
def execRS2inv (s : State) : Res := .next (s.hostWrite fun r => match r with
  | .s2inv _ _ => true
  | _ => false)

/-- LFACK (R417). -/
def execRLfack (s : State) : Res := .next (s.hostWrite fun r => match r with
  | .lfack _ => true
  | _ => false)

/-- MIGRATION_START (R404). -/
def execRMigrationStart (s : State) : Res := .next (s.hostWrite fun r => match r with
  | .mig _ _ => true
  | _ => false)

/-- LM_FLIP (R424). -/
def execRLmFlip (s : State) : Res := .next (s.hostWrite Reg.isLm)

/-- LM_QUIESCE (R425). -/
def execRLmQuiesce (s : State) : Res := .next (s.hostWrite Reg.isLm)

/-- RETENTION_REG_WRITE (R297, R340). -/
def execRRetentionRegWrite (s : State) : Res := .next (s.hostWrite fun r => match r with
  | .retain _ _ _ => true
  | _ => false)

/-- COMPRESSION_RANGE_WRITE (R293). -/
def execRCompressionRangeWrite (s : State) : Res := .next (s.hostWrite fun r => match r with
  | .cmprange _ _ => true
  | _ => false)

/-- VSPILL_WRITE (R316). -/
def execRVspillWrite (s : State) : Res := .next (s.hostWrite fun r => match r with
  | .vspill _ => true
  | _ => false)

/-- SAVEAREA_WRITE (R382). -/
def execRSaveareaWrite (s : State) : Res := .next (s.hostWrite fun r => match r with
  | .savearea _ => true
  | _ => false)

end Sys2Proof.Machine
end

