-- ==== Sys2Proof/Machine/Domain.lean ====
section
/-! DEFINITION. The die's memory side and the domain: invalidations (20 R418 to R420), walks (19 R396), page migration (R405, R406), links and
flits (R394 to R402, 21 R458), Ethernet (R399), check values, soft errors and clocks (24 R477 to R479), the debug port (21 R443). -/
namespace Sys2Proof.Machine

/-! Translations (R396, R418 to R420). -/

/-- The partition that owns a page under the POT admits an entry still (R420); a page of another device is not this device's to refuse. -/
def State.entryOk (s : State) (e : TlbE) : Bool :=
  match s.localDie (e.out / 2 ^ 32) with
  | none => true
  | some t => match s.potAt t (e.out % 2 ^ 32 * 65536) with
    | some p => decide (p.owner = e.part)
    | none => false

/-- Does an invalidation cover an entry (R418)? -/
def invCovers (stage : Nat) (r : BitVec 144) (e : TlbE) : Bool :=
  let a := fld r 47 16
  let n := fld r 95 64
  let x := if stage = 1 then e.vpn else e.lpn
  (decide (n = 0) || decide (a ≤ x ∧ x < a + n)) && (decide (stage = 2) || r.getLsbD 100 || decide (e.tenant = fld r 99 96))

/-- What becomes of an entry under an invalidation (R419, R420): one that it does not cover stays, a covered one goes, a covered pin is walked again. -/
def State.invalidated (s : State) (d part stage : Nat) (e : TlbE) : Option TlbE :=
  let r := if stage = 1 then (s.partDie part d).s1inv else (s.partDie part d).s2inv
  if e.part ≠ part ∨ invCovers stage r e = false then some e
  else if !e.pinned then none
  else
    match s.walk d part e.tenant e.vpn with
    | .error _ => none
    | .ok n => if s.entryOk n then some { n with pinned := true } else none

/-- The places that a page's unit has translated and not reached yet: bytes of a sequencer word, reductions queued. -/
def Page.pending (pg : Page) : List Loc :=
  (match pg.phase with
    | .land _ (.write ps _) => ps.map Prod.fst
    | _ => []) ++ pg.cores.flatMap fun k => k.redq.map RedEntry.loc

/-- The place of a graph store on its way. -/
def GInst.pending (g : GInst) : List Loc :=
  match g.phase with
  | .store _ l _ => [l]
  | _ => []

/-- The page of a place as an entry names it: global die and page. -/
def State.pageName (s : State) : Loc → Option Nat
  | .hbm d pa => some (s.dieField d * 2 ^ 32 + pa / 65536)
  | .peer _ a => some (a / 65536)
  | .sp _ _ _ => none

/-- Are requests of a partition on their way to pages that entries named (R419)? -/
def State.reaching (s : State) (part : Nat) (names : List Nat) : Bool :=
  let units := (s.tasks.filter fun (_, t) => decide (t.part = part)).flatMap fun (_, t) => t.pages.flatMap fun p => (s.page p).pending
  let graphs := s.dies.flatMap fun x => (x.insts.filter fun g => g.live && decide (g.part = part)).flatMap GInst.pending
  (units ++ graphs).any fun l => (s.pageName l).any names.contains

/-- INVALIDATION_ACK (R419, R420): covered entries go, covered pins are walked again, and done := tkt in the first cycle in which no request translated with a
removed entry is on its way. -/
def execVInvalidationAck (s : State) : Res :=
  match s.focus.ev with
  | .invalidationAck d part stage =>
    match (s.die d).invs.find? fun i => decide (i.part = part ∧ i.stage = stage ∧ i.due ≤ s.cycle) with
    | none => .next s
    | some i =>
      let r := if stage = 1 then (s.partDie part d).s1inv else (s.partDie part d).s2inv
      let names := i.gone.getD (((s.die d).tlb.filter fun e => decide (e.part = part) && invCovers stage r e).map TlbE.out)
      let s1 := if i.gone.isSome then s else s.modDie d fun x => { x with tlb := x.tlb.filterMap (s.invalidated d part stage) }
      let rest := (s.die d).invs.filter fun j => decide (j ≠ i)
      if s.reaching part names then .next (s1.modDie d fun x => { x with invs := { i with gone := some names } :: rest })
      else
        let done := fun (r : BitVec 144) => setFld r 143 128 (fld r 127 112)
        .next ((s1.modDie d fun x => { x with invs := rest }).modPartDie part d fun x =>
          if stage = 1 then { x with s1inv := done x.s1inv } else { x with s2inv := done x.s2inv })
  | _ => .next s

/-- REMOTE_WALK_COMPLETE (R396): the walk's entry enters the TLB of 32,768 entries, an unpinned one making room; which one is open (log 5). -/
def execVRemoteWalkComplete (s : State) : Res :=
  match s.focus.ev with
  | .remoteWalkComplete d q =>
    if !(s.die d).walks.any fun (due, x) => decide (due ≤ s.cycle ∧ x = q) then .next s
    else
      let s1 := s.modDie d fun x => { x with walks := x.walks.filter fun (y : Nat × WalkReq) => decide (y.2 ≠ q) }
      match s1.walk d q.part q.tenant q.vpn with
      | .error _ => .next s1
      | .ok e =>
        if (s1.die d).tlb.any fun y => decide (y.part = q.part ∧ y.tenant = q.tenant ∧ y.vpn = q.vpn) then .next s1
        else .next (s1.tlbAdd d e)
  | _ => .next s

/-! Page migration (R404 to R406). -/

def State.mig (s : State) (d n : Nat) : Mig := (s.die d).mig.getD n {}
def State.modMig (s : State) (d n : Nat) (f : Mig → Mig) : State := s.modDie d fun x => { x with mig := modAt x.mig n f }

/-- Source and destination of a migration: module dies and pages. -/
def State.migPages (s : State) (m : Mig) : Option ((Nat × Nat) × (Nat × Nat)) :=
  match s.localDie (fld m.reg 63 48), s.localDie (fld m.reg 127 112) with
  | some a, some b => some ((a, fld m.reg 47 16), (b, fld m.reg 111 80))
  | _, _ => none

/-- A sector of the source page copied to the destination. -/
def State.copySector (s : State) (src dst : Nat × Nat) (k : Nat) : State :=
  let bs := s.committedN src.1 (src.2 * 65536 + 128 * k) 128
  s.store dst.1 (bs.zipIdx.map fun (b, i) => (dst.2 * 65536 + 128 * k + i, b))

/-- Set bits of a sector mask, ascending. -/
def maskSectors (m : BitVec 512) : List Nat := (List.range 512).filter fun i => m.getLsbD i

/-- MIGRATION_ROUND (R405): the next sector of the round is copied; after the last one the round ends, and the next round or the final round
begins. -/
def execVMigrationRound (s : State) : Res :=
  match s.focus.ev with
  | .migrationRound d n =>
    let m := s.mig d n
    match s.migPages m with
    | none => .next s
    | some (src, dst) =>
      if fld m.reg 206 204 ≠ 1 ∨ s.cycle < m.due then .next s
      else
        let s1 := match m.todo with
          | [] => s
          | k :: _ => s.copySector src dst k
        .next (s1.modMig d n fun m =>
          match m.todo.drop 1 with
          | k :: rest => { m with todo := k :: rest, due := s.cycle + Config.latL2Die }
          | [] =>
            let marked := maskSectors m.mask
            let round := fld m.reg 210 207 + 1
            let last := decide (marked.length ≤ fld m.reg 199 192 ∨ round = fld m.reg 203 200)
            let reg := setFld (setFld (setFld m.reg 210 207 round) 220 211 marked.length) 206 204 (if last then 2 else 1)
            { m with reg := reg, todo := if last then [] else marked, mask := if last then m.mask else 0, due := s.cycle + Config.latL2Die })
  | _ => .next s

/-- The places that a page's unit has translated and not reached yet, under a renaming: reductions queued, bytes of a sequencer word. -/
def Page.relocate (pg : Page) (loc : Loc → Loc) : Page :=
  { pg with
    phase := match pg.phase with
      | .land due (.write ps bs) => .land due (.write (ps.map fun x => (loc x.1, x.2)) bs)
      | ph => ph
    cores := pg.cores.map fun k => if k.redq.isEmpty then k else { k with redq := k.redq.map fun r => { r with loc := loc r.loc } } }

/-- A graph store on its way, under a renaming. -/
def GInst.relocate (g : GInst) (loc : Loc → Loc) : GInst :=
  match g.phase with
  | .store due l bs => { g with phase := .store due (loc l) bs }
  | _ => g

/-- Names of a physical page follow it: versions, snapshots, translated accesses on their way, save slots, model pages, error sites (R406 step 3, step 7). -/
def State.renamePage (s : State) (src dst : Nat × Nat) : State :=
  let loc := fun (l : Loc) => match l with
    | .hbm d pa => if d = src.1 ∧ pa / 65536 = src.2 then Loc.hbm dst.1 (dst.2 * 65536 + pa % 65536) else l
    | l => l
  let page := fun (x : Nat × Nat) => if x = src then dst else x
  let sect := fun (v : VSect) =>
    if v.die = src.1 ∧ v.sector / 512 = src.2 then { v with die := dst.1, sector := dst.2 * 512 + v.sector % 512 } else v
  let site := fun (e : HwSite) => match e with
    | .hbm d pa => if d = src.1 ∧ pa / 65536 = src.2 then HwSite.hbm dst.1 (dst.2 * 65536 + pa % 65536) else e
    | .version d pa => if d = src.1 ∧ pa / 65536 = src.2 then HwSite.version dst.1 (dst.2 * 65536 + pa % 65536) else e
    | e => e
  let task := fun (t : Task) =>
    { t with ver := t.ver.map (fun c => { c with loc := loc c.loc }), reds := t.reds.map (fun r => { r with loc := loc r.loc })
             snap := t.snap.map (fun x => (loc x.1, x.2)), slotPages := t.slotPages.map page }
  let model := fun (m : Model) => { m with pages := m.pages.map page }
  let guest := fun (g : Guest) => { g with cells := g.cells.map fun c => { c with loc := loc c.loc } }
  { s with tasks := s.tasks.map (fun x => (x.1, task x.2)), vsects := s.vsects.map sect, errs := s.errs.map site
           pages := s.pages.map (fun x => (x.1, x.2.relocate loc)), guests := s.guests.map guest
           dies := s.dies.map fun d => { d with insts := d.insts.map fun g => g.relocate loc }
           tum := { s.tum with models := s.tum.models.map model } }

/-- MIGRATION_FINAL_ROUND (R406): the marked sectors are copied, s2e and every translation of the page switch, cached lines of the source go, the POT
entry moves, and the source is scrubbed and free. -/
def execVMigrationFinalRound (s : State) : Res :=
  match s.focus.ev with
  | .migrationFinalRound d n =>
    let m := s.mig d n
    match s.migPages m with
    | none => .next s
    | some (src, dst) =>
      if fld m.reg 206 204 ≠ 2 ∨ s.cycle < m.due then .next s
      else
        let s1 := (maskSectors m.mask).foldl (fun s k => s.copySector src dst k) s
        let e := (s.localDie (fld m.reg 191 176)).getD d
        let at_ := fld m.reg 175 128
        let old := leNat (s1.committedN e at_ 8)
        let new := old % 65536 + dst.2 * 65536 + s.dieField dst.1 * 2 ^ 48
        let s2 := s1.store e ((leBytes 8 new).zipIdx.map fun (b, i) => (at_ + i, b))
        let name := s.dieField src.1 * 2 ^ 32 + src.2
        let s3 := s2.modDie e fun x =>
          { x with tlb := x.tlb.map fun t => if t.out = name then { t with out := s.dieField dst.1 * 2 ^ 32 + dst.2 } else t }
        let pot := s3.potAt src.1 (src.2 * 65536)
        let s4 := (s3.renamePage src dst).setPot dst.1 dst.2 pot false
        let s5 := s4.modTum fun t => { t with pot := assocDel t.pot (src.1 * 2 ^ 32 + src.2) }
        let s6 := (s5.scrub 16 src.1 src.2).purge src.1 src.2
        .next (s6.modMig d n fun m => { m with reg := setFld m.reg 206 204 3, mask := 0, todo := [] })
  | _ => .next s

/-! Links (R398, R458). -/

def State.linkState (s : State) (n : Nat) : Nat := fld (s.dev.links.getD n 0) 1 0

/-- LINK_FAIL (R398): the link is down; requests to the devices that no route reaches any more are held. -/
def execVLinkFail (s : State) : Res :=
  match s.focus.ev with
  | .linkFail n lost =>
    let down := fun (l : W64) => setFld (setFld l 1 0 0) 15 2 0x3FFF
    .next { s with dev := { s.dev with links := modAt s.dev.links n down }, noRoute := (s.noRoute ++ lost).eraseDups }
  | _ => .next s

/-- ROUTE_COMES_BACK (R398): the held requests proceed unchanged. -/
def execVRouteComesBack (s : State) : Res :=
  match s.focus.ev with
  | .routeComesBack dev => .next { s with noRoute := s.noRoute.filter fun x => decide (x ≠ dev) }
  | _ => .next s

/-- The device to which a request goes that no route reaches, directly or by the owning die's forward (R394, R398). -/
def State.lost (s : State) (w : Who) (va : W64) : Option Nat :=
  let gone := fun (g : Nat) => if s.noRoute.contains (g / 4) then some (g / 4) else none
  match spaceOf va, s.owning w.home (va.toNat / 2 ^ 48) with
  | .translated, .ok (.inr df) => gone df
  | .translated, .ok (.inl d) =>
    (match s.translate d w.part w.tenant (va.toNat / 65536 % 2 ^ 32) with
    | .ok e => if (s.localDie (e.out / 2 ^ 32)).isNone then gone (e.out / 2 ^ 32) else none
    | .error _ => none)
  | _, _ => none

/-- The first address of a list whose request no route carries, with the device. -/
def State.lostOf (s : State) (w : Who) (vas : List W64) : Option (Nat × W64) := vas.findSome? fun va => (s.lost w va).map fun x => (x, va)

/-- The addresses that a sequencer word is about to read or have checked. -/
def Page.reads (pg : Page) : List W64 :=
  let w := seqFields pg.word
  let op := pg.word.toNat / 2 ^ 56
  if op = 0x0F then [pg.xr w.xa + if w.mod.getLsbD 0 then sext w.imm else pg.xr w.xb]
  else if op = 0x63 ∨ (0x89 ≤ op ∧ op ≤ 0x8B) then [pg.xr w.xa + sext w.imm]
  else if 0x70 ≤ op ∧ op ≤ 0x75 then (if (pg.eslot (fld w.mod 2 0)).busy then [] else (engRegs op w).map fun x => pg.xr x.1)
  else if op = 0x86 then [pg.xr w.xa, pg.xr w.xa + BitVec.ofNat 64 (64 * fld w.imm 13 7)]
  else if op = 0x80 ∨ op = 0x81 ∨ op = 0x82 ∨ op = 0x84 ∨ op = 0x88 then [pg.xr w.xa]
  else []

/-- The source addresses of the next element of an engine command (R361, R362, R364). -/
def State.engReads (s : State) (t : Task) (p : Nat) (e : Slot) : List W64 :=
  let i := e.elem.toNat
  let r0 := e.pat 0
  if e.busy = false ∨ e.total ≤ i ∨ e.opc = 0x73 ∨ e.opc = 0x74 then []
  else if e.opc = 0x71 then
    patAddr r0 i :: (match s.engRead t p (patCls r0) none (patAddr r0 i) 4 with
      | .ok (x, _) => [indexAddr (e.pat 1) x]
      | .error _ => [])
  else if e.opc = 0x72 then [patAddr r0 i, patAddr (e.pat 1) i]
  else [patAddr r0 i]

/-- The source address of the next contribution of a collective (R364). -/
def Task.sendReads (t : Task) (rp n : Nat) (e : Slot) : List W64 :=
  if t.sends rp n e then
    (match t.coll rp n e.coll with
    | some c => [patAddr c.src (c.sent.length / patEsz c.src)]
    | none => [])
  else []

/-- What the request of a unit holds for: the device that no route reaches, and the address (R398). -/
def State.heldFor (s : State) (t : Task) : HeldUnit → Option (Nat × W64)
  | .seq p => if (s.page p).phase = .ready ∧ (s.page p).frozen = false then s.lostOf (s.who t p) (s.page p).reads else none
  | .tile p c =>
    let k := s.core p c
    (match k.mrun with
    | none => none
    | some r =>
      let op := r.m.word.toNat / 2 ^ 56
      if op = 0x40 ∨ op = 0x42 ∨ op = 0x43 ∨ op = 0x46 then s.lostOf (s.who t p) [k.rowAddr r.m c k.elem] else none)
  | .engine p n =>
    let e := s.eslot p n
    s.lostOf (s.engWho t p) (s.engReads t p e ++ t.sendReads (s.page p).rp n e)
  | .port p n =>
    let x := s.port p n
    if s.portFetches p n ∧ x.cur.isSome = true then s.lostOf (s.who t p) ((patRuns x.pat x.pos 64 0).map fun r => r.2.1) else none
  | .bound =>
    if s.arrived t || t.pages.all fun p => (s.page p).halted.isSome then
      t.ver.findSome? fun c => match c.loc with
        | .peer _ va => if s.noRoute.contains (va / 2 ^ 48 / 4) then some (va / 2 ^ 48 / 4, BitVec.ofNat 64 va) else none
        | _ => none
    else none
  | .image => if t.state = .leaseWait ∧ t.leaseOk = true then
      s.lostOf (pintleWho t.part t.tenant (t.home.getD t.die)) [t.rcd.config] else none

/-- The units of a task that make requests. -/
def Task.heldUnits (t : Task) : List HeldUnit :=
  .bound :: .image :: t.pages.flatMap fun p => .seq p :: (List.range 8).flatMap fun i => [.tile p i, .engine p i, .port p i]

/-- Does a unit of a task hold? -/
def State.holds (s : State) (t : Task) (u : HeldUnit) : Bool := !s.noRoute.isEmpty && (s.heldFor t u).isSome

/-- The requests of a task that hold, each since its first cycle. -/
def State.noteHeld (s : State) (t : Task) : State :=
  let now := if s.noRoute.isEmpty ∨ t.trap.isSome = true then [] else t.heldUnits.filter fun u => s.holds t u
  if now.isEmpty && t.held.isEmpty then s
  else
    let held := now.map fun u => (u, ((t.held.find? fun x => decide (x.1 = u)).map (·.2)).getD s.cycle)
    s.modTask t.tid fun t => { t with held := held }

/-- The addresses that a graph word is about to reach (R253, R256, R260). -/
def GInst.reads (g : GInst) : List W64 :=
  let w := g.code.getD g.pc 0
  let f := graphFields w
  let op := w.toNat / 2 ^ 58
  if op = 0x01 ∨ op = 0x02 then [g.gr f.ga + f.imm.setWidth 64]
  else if op = 0x08 ∨ op = 0x09 ∨ op = 0x0F ∨ op = 0x1D then [g.gr f.ga + sext f.imm]
  else []

/-- What the word of a graph instance holds for. -/
def State.graphHeld (s : State) (d k : Nat) : Option (Nat × W64) :=
  let g := s.inst d k
  if s.noRoute.isEmpty ∨ g.live = false ∨ g.phase ≠ .ready then none else s.lostOf (pintleWho g.part g.tenant d) g.reads

def State.noteGraphHeld (s : State) (d k : Nat) : State :=
  let g := s.inst d k
  if (s.graphHeld d k).isSome then (if g.heldSince.isNone then s.modInst d k fun g => { g with heldSince := some s.cycle } else s)
  else if g.heldSince.isSome then s.modInst d k fun g => { g with heldSince := none }
  else s

/-- The trap of a unit whose request has held too long: trap(memory, integrity) at the element that made it (R398). -/
def State.timeOut (s : State) (t : Task) (va0 : W64) : HeldUnit → State
  | u =>
    let va := s.resolve (t.home.getD t.die) va0
    match u with
    | .seq p => s.seqTrap p 2 7 (some va)
    | .tile p c => s.macroTrap p c 2 7 (some va)
    | .engine p n => s.engineTrap p n 2 7 (some va)
    | .port p n => s.portTrap p n 2 7 (some va)
    | .bound => s.raise t.tid { cls := 2, code := 7, core := 0xFF, flags := 8, addr := va }
    | .image => s.postTrap t { cause := { cls := 2, code := 7, core := 0xFF, flags := 8, addr := va }, tid := t.tid, ctag := t.ctag, tco := t.tco,
                               cycle := s.cycle }

/-- Has a request that holds since a cycle exceeded domlto (R398)? -/
def State.tooLong (s : State) (since : Nat) : Bool :=
  let limit := fld s.dev.domlto 31 0
  decide (limit ≠ 0 ∧ since + limit * 1024 ≤ s.cycle)

/-- DOMAIN_LINK_TIMEOUT (R398): requests to a device held for domlto trap with trap(memory, integrity) at the element that made them; a graph word raises
graph fault 0x02 (log 89). -/
def execVDomainLinkTimeout (s : State) : Res :=
  match s.focus.ev with
  | .domainLinkTimeout dev =>
    let s1 := (s.tasks.map (·.2)).foldl (fun s1 t =>
      t.held.foldl (fun s1 (u, c) => match s.heldFor t u with
        | some (x, va) => if s.tooLong c && decide (x = dev) then
            (s1.timeOut t va u).modTask t.tid fun t => { t with held := t.held.filter fun y => decide (y.1 ≠ u) } else s1
        | none => s1) s1) s
    .next ((List.range 4).foldl (fun s1 d => (List.range 64).foldl (fun s1 k =>
      match (s.inst d k).heldSince, s.graphHeld d k with
      | some c, some (x, _) => if s.tooLong c && decide (x = dev) then s1.gfault d k 2 else s1
      | _, _ => s1) s1) s1)
  | _ => .next s

/-- Flits received on a link since its keys were set (R458). -/
def State.flits (s : State) (n : Nat) : Nat := (assocGet s.rxFlits n).getD 0

/-- LINK_KEY_UPDATE (R458): every 2^32 flits. -/
def execVLinkKeyUpdate (s : State) : Res :=
  match s.focus.ev with
  | .linkKeyUpdate n => .next (if s.flits n < 2 ^ 32 then s else { s with rxFlits := assocSet s.rxFlits n 0 })
  | _ => .next s

/-- Where a request of another device lands: here, or at another device to which the owning die forwards it under its domain physical address. -/
inductive Inbound where
  | here (die pa : Nat)
  | onward (addr : W64) (wr : Bool)
  deriving DecidableEq, Repr

/-- A request of another device under the carried tag: translated at the owning die, unless its owner has done so and forwards it (phys: what it permits),
then the POT and the class where it is served (R394, R395). -/
def State.inbound (s : State) (ctag : Nat) (write : Bool) (phys : Option Bool) (va : W64) : Except Deny Inbound :=
  let kind := if write then Access.write else Access.read
  match phys with
  | some wr =>
    (match s.localDie (va.toNat / 2 ^ 48) with
    | none => .error dUnmapped
    | some t => (s.potCheck (ctag / 16) ctag kind write wr t (va.toNat % 2 ^ 48)).map fun _ => .here t (va.toNat % 2 ^ 48))
  | none =>
    match s.owning 0 (va.toNat / 2 ^ 48), spaceOf va with
    | .ok (.inl d), .translated =>
      (match s.translate d (ctag / 16) (ctag % 16) (va.toNat / 65536 % 2 ^ 32) with
      | .error _ => .error dUnmapped
      | .ok e =>
        let pa := e.out % 2 ^ 32 * 65536 + va.toNat % 65536
        match s.localDie (e.out / 2 ^ 32) with
        | none => if s.inDomain (e.out / 2 ^ 32 / 4) then .ok (.onward (BitVec.ofNat 64 (e.out / 2 ^ 32 * 2 ^ 48 + pa)) e.wr) else .error dUnmapped
        | some t => (s.potCheck (ctag / 16) ctag kind write e.wr t pa).map fun _ => .here t pa)
    | _, _ => .error dUnmapped

/-- A request of another device as its owning die sees it (R394). -/
def inWho (ctag die : Nat) : Who := { part := ctag / 16, tenant := ctag % 16, home := 0, die := die, port := 0 }

/-- One page's part of a request that came by link n: served here, forwarded as a request of the same kind, or refused to its sender (R394, R395). -/
def State.request (s : State) (n ctag : Nat) (write : Bool) (phys : Option Bool) (va : W64) (again : W64 → FlitBody) (serve : State → Nat → Nat → State) :
    State :=
  match s.inbound ctag write phys va with
  | .ok (.here d pa) => serve (if phys.isSome then s else (s.noteWalk (inWho ctag d) va).1) d pa
  | .ok (.onward ga wr) => s.emit (.die (ga.toNat / 2 ^ 48)) (.forwarded wr (again ga))
  | .error e => s.emit (.link n) (.refusal ctag va write e.cls e.code)

/-- The name under which version sectors of a member set of another device are held (R314, R400). -/
def guestTid (ctag set : Nat) : Nat := 2 ^ 40 + set * 256 + ctag

def State.guest (s : State) (ctag set : Nat) : Guest := (s.guests.find? fun g => decide (g.ctag = ctag ∧ g.set = set)).getD { ctag := ctag, set := set }

def State.setGuest (s : State) (g : Guest) : State :=
  { s with guests := g :: s.guests.filter fun x => decide (¬(x.ctag = g.ctag ∧ x.set = g.set)) }

/-- What a member set of another device has written here is given up. -/
def State.dropGuest (s : State) (ctag set : Nat) : State :=
  ({ s with guests := s.guests.filter fun x => decide (¬(x.ctag = ctag ∧ x.set = set)) } : State).dropVersions (ctag / 16) [guestTid ctag set]

/-- Bytes of an uncommitted write accepted at their home slice, with their version sectors; without room the writer is refused (R314, R315, R400). -/
def State.guestWrite (s : State) (n ctag set w : Nat) (va : W64) (d pa : Nat) (bs : List Byte) : State :=
  match (linesOf pa bs.length).foldlM (fun (s : State) x => s.takeSector (guestTid ctag set) d x (ctag / 16)) s with
  | none => s.emit (.link n) (.refusal ctag va true dVersion.cls dVersion.code)
  | some s1 =>
    let g := s1.guest ctag set
    s1.setGuest { g with cells := bs.zipIdx.foldl (fun v (b, i) => putCell v { loc := .hbm d (pa + i), w := w, ord := s.ordNow 0, val := b }) g.cells }

/-- The boundary of a member set of another device commits what it has written here: the highest writer index stands (R312, R400). -/
def State.guestCommit (s : State) (ctag set : Nat) : State :=
  let ws := winners (s.guest ctag set).cells
  ((List.range 4).foldl (fun s d => if (wonOn ws d).isEmpty then s else s.commitBytes (ctag / 16) d (wonOn ws d)) s).dropGuest ctag set

/-- A write of bytes of another device, page by page. -/
def State.requests (s : State) (n ctag : Nat) (phys : Option Bool) (va : W64) (data : List Byte) (again : W64 → List Byte → FlitBody)
    (serve : State → W64 → Nat → Nat → List Byte → State) : State :=
  ((pieces (data.length / 65536 + 2) va data.length).foldl (fun ((s, rest) : State × List Byte) (x, m) =>
    (s.request n ctag true phys x (fun a => again a (rest.take m)) fun s d pa => serve s x d pa (rest.take m), rest.drop m)) (s, data)).1

/-- What an accepted flit that came by link n does here (R394, R395, R400 to R402). -/
def State.flitBody (s : State) (n : Nat) (phys : Option Bool) : FlitBody → State
  | .read ctag va len =>
    s.request n ctag false phys va (fun a => .read ctag a len) fun s d pa =>
      ((s.touchL2 (inWho ctag d) va [(Loc.hbm d pa, len, none)]).1).emit (.link n) (.remoteBytes ctag va (s.committedN d pa len))
  | .write ctag set w va data =>
    s.requests n ctag phys va data (fun a bs => .write ctag set w a bs) fun s x d pa bs => s.guestWrite n ctag set w x d pa bs
  | .commitSet ctag set => s.guestCommit ctag set
  | .dropSet ctag set => s.dropGuest ctag set
  | .commit ctag va data =>
    s.requests n ctag phys va data (fun a bs => .commit ctag a bs) fun s _ d pa bs =>
      s.commitBytes (ctag / 16) d (bs.zipIdx.map fun (b, i) => (pa + i, b))
  | .reduce ctag va cell ty addend =>
    s.request n ctag true phys va (fun a => .reduce ctag a cell ty addend) fun s d pa =>
      let ws := s.reduceOn (Config.freeNat s.free) [] { loc := .hbm d pa, cell := cell, ty := ty, addends := [addend] }
      ({ s with free := s.free + 1 } : State).commitBytes (ctag / 16) d (wonOn ws d)
  | .atomic ctag va kind width x y =>
    s.request n ctag true phys va (fun a => .atomic ctag a kind width x y) fun s d pa =>
      let old := leNat (s.committedN d pa width)
      let m := 2 ^ (8 * width)
      let new := if kind = 0 then old + x.toNat else if kind = 1 then (if old = x.toNat % m then y.toNat else old) else x.toNat
      (s.commitBytes (ctag / 16) d ((leBytes width (new % m)).zipIdx.map fun (b, i) => (pa + i, b))).emit (.link n)
        (.remoteBytes ctag va (leBytes width old))
  | .signal part ev inc => s.signal part ev inc
  | .remoteBytes ctag va data =>
    ({ s with refused := s.refused.filter fun x => decide (¬(x.ctag = ctag ∧ x.page = va.toNat / 65536 ∧ x.write = false)) } : State).peerCommit
      ctag va.toNat data
  | .refusal ctag va write cls code =>
    { s with refused := { ctag := ctag, page := va.toNat / 65536, write := write, cls := cls, code := code } :: s.refused }
  | .forwarded wr b => s.flitBody n (some wr) b
  | .session part tenant id ktx stx ctx => s.importSess part tenant id ktx stx ctx
  | .image part header key => s.importModel part header key

/-- FLIT_RECEIVE (R398): on a secured link; a flit that fails its CRC or tag is replayed and changes nothing. Without a domain the links carry no request
(R393). -/
def execVFlitReceive (s : State) : Res :=
  match s.focus.ev with
  | .flitReceive n f =>
    if s.linkState n ≠ 2 ∨ f.good = false then .next s
    else
      let s1 : State := { s with rxFlits := assocSet s.rxFlits n (s.flits n + 1) }
      .next (if s.devNum = 0x3FFF then s1 else s1.flitBody n none f.body)
  | _ => .next s

/-- ETHERNET_DATAGRAM (R399): each queue pair's messages are delivered once and in order, into memory of its partition. -/
def execVEthernetDatagram (s : State) : Res :=
  match s.focus.ev with
  | .ethernetDatagram port x =>
    let next := (assocGet s.dgrams x.qp).getD 0
    if s.linkState (48 + port) ≠ 2 ∨ x.good = false ∨ x.seq ≠ next then .next s
    else
      let s1 : State := { s with dgrams := assocSet s.dgrams x.qp (next + 1) }
      .next ((s1.fnWrite (x.part + 1) x.addr x.data).getD s1)
  | _ => .next s

/-! Check values, soft errors, clocks, debug (R443, R477 to R479). -/

/-- The die of a site. -/
def siteDie : HwSite → Nat
  | .hbm d _ => d
  | .l2 d _ => d
  | .scratch p _ _ => p / 40
  | .version d _ => d

def State.bumpHk (s : State) (d lo : Nat) : State := s.modDie d fun x => { x with hkstat := bump32 x.hkstat lo }

/-- SOFT_ERROR (R390, R479): an error waits at its site for correction; an uncorrectable one traps whoever consumes the site. -/
def execVSoftError (s : State) : Res :=
  match s.focus.ev with
  | .softError t ok =>
    if ok then .next { s with soft := s.soft ++ [t] }
    else .next (({ s with errs := s.errs ++ [t] } : State).bumpHk (siteDie t) 96)
  | _ => .next s

/-- PATROL_SCRUB (R479): corrects what can be corrected at a site; no value changes. -/
def execVPatrolScrub (s : State) : Res :=
  match s.focus.ev with
  | .patrolScrub t =>
    if s.soft.contains t then .next (({ s with soft := s.soft.filter fun x => decide (x ≠ t) } : State).bumpHk (siteDie t) 64) else .next s
  | _ => .next s

/-- CLOCK_CHANGE (R477, R479): only durations change. -/
def execVClockChange (s : State) : Res :=
  match s.focus.ev with
  | .clockChange d c =>
    let hk := fun (r : BitVec 128) => setFld (setFld r 15 0 c.pwr.toNat) 23 16 c.temp.toNat
    let s1 := s.modDie d fun x => { x with khz := c.khz, hkstat := hk x.hkstat }
    .next (if c.reduced then s1.bumpHk d 32 else s1)
  | _ => .next s

/-- The byte at a site. -/
def State.siteByte (s : State) : HwSite → Byte
  | .hbm d pa => s.committed d pa
  | .l2 d pa => s.committed d pa
  | .scratch p c off => cellGet (s.core p c).sp off
  | .version d pa =>
    match (s.tasks.findSome? fun (_, t) => lastCell (t.ver.filter fun c => decide (c.loc = Loc.hbm d pa))) with
    | some c => c.val
    | none => s.committed d pa

/-- DEBUG_PORT_READ (R443): answers only when debug was unlocked at the last cold reset. -/
def execVDebugPortRead (s : State) : Res :=
  match s.focus.ev with
  | .debugPortRead t => .next (if s.tum.debug then { s with debugOut := s.debugOut ++ [s.siteByte t] } else s)
  | _ => .next s

/-- PCIE_SECTOR_ENTRY (R478, R301): bytes of one sector that a function writes into a class G or C page of its own; its check value is new. -/
def execVPcieSectorEntry (s : State) : Res :=
  match s.focus.ev with
  | .pcieSectorEntry fn a data =>
    if 128 < a.toNat % 128 + data.length then .next s
    else
      match s.fnPlace fn a true with
      | none => .next s
      | some (d, pa) => .next (s.commitBytes (if fn = 0 then 16 else fn - 1) d (data.zipIdx.map fun (b, i) => (pa + i, b)))
  | _ => .next s

end Sys2Proof.Machine
end

