-- ==== Sys2Proof/Machine/Agenda.lean ====
section
/-! DEFINITION. The agenda of a cycle: which units move, in which order, the end of a cycle, and the fetch of a turn's word (01 R12 to R25, 06 R151,
09 R234 to R243, 10 R252, 21 R431; notes/assumptions/3.md). -/
namespace Sys2Proof.Machine

/-- Events that only the outside world brings (log 7). -/
def Ev.external : Ev → Bool
  | .vfFlr _ => true
  | .pf0Flr => true
  | .coldReset => true
  | .fwHeartbeat => true
  | .linkFail _ _ => true
  | .routeComesBack _ => true
  | .flitReceive _ _ => true
  | .ethernetDatagram _ _ => true
  | .patrolScrub _ => true
  | .clockChange _ _ => true
  | .softError _ _ => true
  | .debugPortRead _ => true
  | .pcieSectorEntry _ _ _ => true
  | _ => false

/-! The turns of a cycle, group by group in their order (log 3). -/

/-- Tasks on running pages. -/
def State.onPages (s : State) : List Task := (s.tasks.map (·.2)).filter fun t => decide (t.state = .running ∨ t.state = .ending)

def ev (e : Ev) : Turn := .event e

/-- Turns of every page of a task. -/
def perPage (t : Task) (f : Nat → List Turn) : List Turn := t.pages.flatMap f

/-- Interval decisions and ends of a kernel (R23, R158). -/
def State.kernTurns (s : State) (t : Task) : List Turn :=
  match t.kern, t.pages.head? with
  | some k, some lead =>
    if k.ends = [] then (if k.next = s.cycle ∧ (s.page lead).frozen = false then [ev (.intervalDecide t.tid)] else [])
    else t.pages.zipIdx.filterMap fun (p, rp) =>
      let e := k.ends.getD rp 0
      if e ≠ 0 ∧ e ≤ s.cycle ∧ (s.page p).frozen = false then some (ev (.kernelEnd t.tid rp)) else none
  | _, _ => []

/-- Conditions that reach the latch, after the decision of the cycle (R25, R215). -/
def State.steerTurns (s : State) (t : Task) : List Turn :=
  if t.pages.all fun p => (s.page p).frozen then [] else (t.steers.filter fun x => t.steerDue x s.cycle).map fun x => ev (.steerArrival t.tid x.cond.toNat)

/-- Ports that fetch (R134). -/
def State.fetchTurns (s : State) (t : Task) : List Turn :=
  perPage t fun p => (List.range 8).filterMap fun n =>
    if s.portFetches p n && !s.holds t (.port p n) then some (ev (.portFetch p n)) else none

/-- Cores with something to land or a wave word (R94, R18). -/
def State.landTurns (s : State) (t : Task) : List Turn :=
  perPage t fun p =>
    let pg := s.page p
    (List.range 8).filterMap fun c =>
      let k := pg.core c
      if !k.flight.isEmpty || !k.arrive.isEmpty || (t.waveAt pg.rp c s.cycle).isSome then some (.land p c) else none

/-- Element words of cores that a wave word reaches, with the side slots of matrix pages (R16, R144). -/
def State.wordTurns (s : State) (t : Task) : List Turn :=
  perPage t fun p =>
    let pg := s.page p
    (List.range 8).flatMap fun c =>
      if (t.waveAt pg.rp c s.cycle).isSome ∧ pg.frozen = false then (if pg.mode then [.word p c 0, .word p c 1] else [.word p c 0]) else []

/-- Sequencers in region order (R209). -/
def State.seqTurns (t : Task) : List Turn := perPage t fun p => [.seq p]

/-- Output ports that write (R134). -/
def State.writeTurns (s : State) (t : Task) : List Turn :=
  perPage t fun p => (List.range 8).filterMap fun n => if s.portWrites p n then some (ev (.portWriteout p n)) else none

/-- Macro elements (R185). -/
def State.macroTurns (s : State) (t : Task) : List Turn :=
  perPage t fun p => (List.range 8).filterMap fun c =>
    match (s.core p c).mrun with
    | none => none
    | some r => if r.due ≤ s.cycle ∧ (s.page p).frozen = false ∧ s.holds t (.tile p c) = false then some (ev (.macroElement p c)) else none

/-- Collective contributions, elements and the limit of collectives of a slot of a task (R361, R364, R365). -/
def State.slotTurns (s : State) (t : Task) (p n : Nat) : List Turn :=
  let e := s.eslot p n
  if e.busy = false ∨ (s.page p).frozen = true then []
  else
    (if t.active ∧ t.sends (s.page p).rp n e = true ∧ s.holds t (.engine p n) = false then [ev (.collContribution p n)] else [])
      ++ (if e.due ≤ s.cycle ∧ s.holds t (.engine p n) = false then [ev (.engineElement p n)] else [])
      ++ (if s.collLate t e then [ev (.collTimeout p n)] else [])

/-- Engine turns of the tasks on running pages: on every die in round robin over pages and slots, after the slot served last (R347). -/
def State.engineTurns (s : State) (ts : List Task) : List Turn :=
  if ts.all fun t => t.pages.all fun p => (s.page p).slots.all fun e => !e.busy then []
  else
    (List.range 4).flatMap fun d => (List.range 320).flatMap fun i =>
      let k := ((s.die d).engLast + 1 + i) % 320
      (ts.filter fun t => t.pages.contains (40 * d + k / 8)).flatMap fun t => s.slotTurns t (40 * d + k / 8) (k % 8)

/-- Reduction queues, weight ports and drain records (R329, R222, R220). -/
def State.queueTurns (s : State) (t : Task) : List Turn :=
  perPage t fun p =>
    let pg := s.page p
    ((List.range 8).filterMap fun c => if (pg.core c).redq.isEmpty then none else some (ev (.reductionSend p c)))
      ++ (if pg.mode && (pg.port 1).en && !(pg.port 1).fifo.isEmpty then [ev (.weightPortBeat p)] else [])
      ++ ((pg.drains.filter fun d => match d.ready with
          | some c => decide (c < s.cycle)
          | none => false).map fun _ => ev (.drainRecordWrite p))

/-- Accesses of sequencers that are done (R331). -/
def State.dataTurns (s : State) (t : Task) : List Turn :=
  perPage t fun p => match (s.page p).phase with
    | .mem due _ => if due ≤ s.cycle then [ev (.dataReturn (.page p))] else []
    | .land due _ => if due ≤ s.cycle then [ev (.dataReturn (.page p))] else []
    | _ => []

/-! Graph instances (R252). -/

/-- The slots of a die in the order of service, after the one served last. -/
def Die.order (x : Die) : List Nat := (List.range 64).map fun i => (x.served + 1 + i) % 64

/-- The instance that issues the next graph word of a die: none whose word holds (R398, R439). -/
def Die.nextInst (x : Die) (now : Nat) (held : Nat → Bool) : Option Nat :=
  if now < x.nextWord then none
  else if x.insts.any (·.live) then x.order.find? fun k => let g := x.insts.getD k {}; g.live && decide (g.phase = .ready) && !held k
  else none

/-- Do the Pintles hold for a firmware switch (R439)? -/
def State.switching (s : State) : Bool := decide (s.cycle < s.tum.hold)

/-- The instances of a die whose words hold: for a device that no route reaches (R398), or all of them during a firmware switch (R439). -/
def State.heldInst (s : State) (d k : Nat) : Bool := s.switching || (s.graphHeld d k).isSome

/-- Graph words that hold, the word that issues, and graph accesses that are done. -/
def State.graphTurns (s : State) (d : Nat) : List Turn :=
  let x := s.die d
  (x.insts.zipIdx.filterMap fun (g, k) => if g.live && decide (g.phase = .hold) then some (.graph d k) else none)
    ++ (match x.nextInst s.cycle (s.heldInst d) with
      | some k => [.graph d k]
      | none => [])
    ++ (x.insts.zipIdx.filterMap fun (g, k) => match g.phase with
      | .mem due _ => if g.live ∧ due ≤ s.cycle then some (ev (.dataReturn (.graph d k))) else none
      | .store due _ _ => if g.live ∧ due ≤ s.cycle then some (ev (.dataReturn (.graph d k))) else none
      | _ => none)

/-! The scheduler (R234 to R246, R374, R380). -/

/-- Is a partition quiesced for its migration (R425)? -/
def State.quiesced (s : State) (part : Nat) : Bool := (s.part part).lm.getLsbD 180

/-- Are the launches and placements of a partition held: by its quiesce (R425), or by a firmware switch (R439)? -/
def State.startsHeld (s : State) (part : Nat) : Bool := s.quiesced part || s.switching

/-- Selection, one partition and die after another (R238). -/
def State.selectTurns (s : State) : List Turn :=
  if s.tasks.any fun (_, t) => t.waits then
    (List.range 4).flatMap fun d => (List.range 16).filterMap fun n =>
      if !s.startsHeld n && (s.selectLevel n d).isSome then some (ev (.taskSelect d n)) else none
  else []

/-- The step that a task takes on its way to its pages (R235, R482, R236, R384). -/
def State.startTurns (s : State) (t : Task) : List Turn :=
  if t.trap.isSome then []
  else
    match t.state with
    | .leaseWait =>
      if s.startsHeld t.part then []
      else if t.leaseOk then (if s.holds t .image then [] else [ev (.imageCheck t.tid)]) else if t.leaseFault.isNone then [ev (.leaseResident t.tid)] else []
    | .loading => (match t.loadDone with
      | some c => if c ≤ s.cycle then [ev (if t.restore then .taskRestore t.tid else .configLoad t.tid)] else []
      | none => [])
    | _ => []

/-- Tasks in page-wait in the order in which they are placed: level, time of queueing, number (R238, R243). -/
def State.placeOrder (s : State) : List Task :=
  let before := fun (a b : Task) => decide (a.level < b.level ∨ (a.level = b.level ∧ (a.qsince < b.qsince ∨ (a.qsince = b.qsince ∧ a.tid < b.tid))))
  ((s.tasks.map (·.2)).filter fun t => decide (t.state = .pageWait) && !s.startsHeld t.part).foldl (fun l t =>
    (l.filter fun x => !before t x) ++ t :: l.filter (before t)) []

/-- Ends, local boundaries, timers and saves of a task. -/
def State.timerTurns (s : State) (t : Task) : List Turn :=
  let on := fun (c : Bool) (e : Ev) => if c then [ev e] else []
  on (s.canEnd t || decide (t.state = .ending)) (.taskEnd t.tid)
    ++ on (match t.localDue with
      | some c => decide (c ≤ s.cycle)
      | none => false) (.localBoundary t.tid)
    ++ on (match t.deadline with
      | some c => decide (c ≤ s.cycle)
      | none => false) (.faultDeadline t.tid)
    ++ on (t.waits && decide (1 < t.level ∧ t.agedAt + 2 ^ 20 ≤ s.cycle)) (.taskAging t.tid)
    ++ on (decide (t.state = .running ∧ t.charged + 2 ^ 16 ≤ s.cycle)) (.deficitCharge t.tid)
    ++ on (decide (t.state = .pageWait ∧ t.memSince + 2 ^ 14 ≤ s.cycle)) (.priorityPreempt t.tid)
    ++ (match t.preqAt with
      | none => []
      | some req =>
        if t.state ≠ .running ∨ s.trapped t = true then []
        else if s.saveReady t false then [ev (.cooperativeSave t.tid)]
        else on (decide (t.preqCause < forcedMark ∧ s.deadlineOf t req ≤ s.cycle) || s.saveReady t true) (.forcedSave t.tid))

/-! Memory side, domain, Tumbler (R288, R296, R396, R404, R419, R431, R458). -/

def State.dieTurns (s : State) (d : Nat) : List Turn :=
  let x := s.die d
  (x.slices.zipIdx.flatMap fun (sl, j) =>
      ((sl.fills.filter fun f => f.ripe s.cycle).map fun _ => ev (.l2Fill d j))
        ++ List.replicate (sl.delivers s.cycle) (ev (.expanderDeliver d j)))
    ++ (x.walks.filterMap fun (due, q) => if due ≤ s.cycle then some (ev (.remoteWalkComplete d q)) else none)
    ++ (x.invs.filterMap fun i => if i.due ≤ s.cycle then some (ev (.invalidationAck d i.part i.stage)) else none)
    ++ (x.mig.zipIdx.filterMap fun (m, i) =>
      if s.cycle < m.due then none
      else if fld m.reg 206 204 = 1 then some (ev (.migrationRound d i))
      else if fld m.reg 206 204 = 2 then some (ev (.migrationFinalRound d i))
      else none)

/-- Boundaries of groups that are due (R311). -/
def State.boundTurns (s : State) : List Turn :=
  ((s.bounds.filter fun b => decide (b.due ≤ s.cycle)).map fun b => ev (.groupBoundary b.part b.bg)).eraseDups

/-- Grants: as many as an event has waits, after the signals of the cycle (R169). -/
def State.grantTurns (s : State) : List Turn :=
  s.parts.zipIdx.flatMap fun (p, n) => p.events.flatMap fun (k, e) => e.queue.map fun _ => ev (.eventGrant n k)

/-- Links with a key update due (R458), devices that hold requests (R398), the firmware deadline (R438). -/
def State.deviceTurns (s : State) : List Turn :=
  (s.rxFlits.filterMap fun (n, c) => if 2 ^ 32 ≤ c then some (ev (.linkKeyUpdate n)) else none)
    ++ (s.noRoute.map fun x => ev (.domainLinkTimeout x))
    ++ (match s.tum.fwDue with
      | some c => if c ≤ s.cycle then [ev .fwSwitchDeadline] else []
      | none => [])

/-- May a channel act on a packet now (R472)? A full ring, or packets held back, hold the channel. -/
def Chan.acts (c : Chan) : Bool := c.on && !c.full && c.pending.isEmpty

/-- Does a channel take a packet from its ring now (R472)? -/
def Chan.takes (c : Chan) : Bool := c.acts && decide (c.hhead ≠ c.htail)

/-- The command served next, and a packet of every channel that has one; none while the Pintles hold (R431, R272, R439). -/
def State.hostTurns (s : State) : List Turn :=
  (s.tum.queue.take 1).map Turn.command
    ++ s.parts.zipIdx.flatMap fun (p, n) =>
      if s.switching then []
      else p.chans.zipIdx.filterMap fun (c, k) => if c.takes || (c.acts && !c.queued.isEmpty && !s.quiesced n) then some (.packet n k) else none

/-- Inputs that arrive by now: register writes in ascending function number, then events (R431, log 7). -/
def State.inputTurns (s : State) : List Turn :=
  let now := (s.inputs.filter fun (t, _) => decide (t ≤ s.cycle)).map (·.2)
  let writes := now.filterMap fun x => match x with
    | .write w => some w
    | _ => none
  let sorted := writes.foldl (fun (l : List RegWr) w => (l.filter fun x => decide (x.fn ≤ w.fn)) ++ w :: l.filter fun x => decide (w.fn < x.fn)) []
  sorted.map Turn.write ++ now.filterMap fun x => match x with
    | .event e => if Ev.external e then some (.event e) else none
    | _ => none

/-- The Tumbler's settings of ckb bits that arrive by now (R29, R281; log 82). -/
def State.keyBanks (s : State) : State :=
  s.inputs.foldl (fun s1 (t, x) => match x with
    | .keyBanks p c mask => if t ≤ s.cycle then s1.modCore p c fun k => { k with ckb := k.ckb ||| mask } else s1
    | _ => s1) s

/-- The agenda of a cycle. -/
def State.turns (s : State) : List Turn :=
  let ts := s.onPages
  ts.flatMap s.kernTurns ++ ts.flatMap s.steerTurns ++ ts.flatMap s.fetchTurns ++ ts.flatMap s.landTurns ++ ts.flatMap s.wordTurns
    ++ (ts.filter fun t => decide (t.state = .running)).flatMap State.seqTurns
    ++ ts.flatMap s.writeTurns ++ ts.flatMap s.dataTurns ++ ts.flatMap s.macroTurns ++ s.engineTurns ts ++ ts.flatMap s.queueTurns
    ++ (List.range 4).flatMap s.graphTurns ++ s.selectTurns ++ (s.tasks.map (·.2)).flatMap s.startTurns
    ++ s.placeOrder.map (fun t => ev (.regionPlace t.tid)) ++ (s.tasks.map (·.2)).flatMap s.timerTurns ++ s.boundTurns
    ++ (List.range 4).flatMap s.dieTurns ++ s.deviceTurns ++ s.hostTurns ++ s.grantTurns ++ s.inputTurns

/-! The end of a cycle. -/

/-- A word that an event completed in the cycle gives way to the next one (R151). -/
def Page.nextWord (pg : Page) : Page := if pg.phase = .after then { pg with phase := .ready } else pg

/-- Closing channels and instances end when they can (R472, R268). -/
def State.closeAll (s : State) : State :=
  let s1 := s.parts.zipIdx.foldl (fun s (p, n) => p.chans.zipIdx.foldl (fun s (c, k) => if c.closing then s.closeChan n k else s) s) s
  s1.dies.zipIdx.foldl (fun s (x, d) => x.insts.zipIdx.foldl (fun s (g, k) => match g.phase with
    | .closing _ _ => if g.live then s.closeInst d k else s
    | _ => s) s) s1

/-- A die's own part of the end of a cycle, with the instance that issues the next graph word noted as served. -/
def Die.advance (x : Die) (now : Nat) (held : Nat → Bool) : Die :=
  match x.nextInst now held with
  | none => x
  | some k => { x with served := k, nextWord := now + 2 }

/-- The end of the cycle on every page, boundaries that form, pages that yield (log 3). -/
def State.endOfCycle (s : State) : State :=
  let s1 := (s.tasks.map (·.2)).foldl (fun s t => if t.pages.isEmpty then s else s.endCycle t) s
  let s2 : State := { s1 with pages := s1.pages.map fun (p, pg) => (p, pg.nextWord) }
  let s3 := s2.formBounds
  let s4 := (s3.tasks.map (·.2)).foldl State.freezeYielded s3
  let s5 := (s4.tasks.map (·.2)).foldl State.noteHeld s4
  let s6 := s5.dies.zipIdx.foldl (fun s (x, d) => x.insts.zipIdx.foldl (fun s (g, k) =>
    if (g.live && !s.noRoute.isEmpty) || g.heldSince.isSome then s.noteGraphHeld d k else s) s) s5
  { s6.closeAll with dies := s6.closeAll.dies.map fun x => x.countFull s.cycle }

/-- The end of a cycle and the agenda of the next. -/
def State.tick (s : State) : State :=
  let s1 := ({ s.endOfCycle with cycle := s.cycle + 1, focus := {} } : State).keyBanks
  let rest := s1.inputs.filter fun (t, _) => decide (s1.cycle < t)
  { s1 with agenda := s1.turns, inputs := rest, dies := s1.dies.zipIdx.map fun (x, d) => x.advance s1.cycle (s1.heldInst d) }

/-! The fetch of a turn. -/

/-- What a turn brings: nothing to decode, the bits of an instruction, or the row of a register write or an event, with the state in which it runs. -/
inductive Fetched where
  | idle (s : State)
  | code (c : Code) (s : State)
  | row (i : Instr) (s : State)

/-- May the word of a frozen page go on: a bounded hold that ends while a pre-emption waits (R152)? -/
def State.finishes (s : State) (p : Nat) : Bool :=
  let pg := s.page p
  match pg.phase, s.owner p with
  | .until c, some t => !s.trapped t && decide (c ≤ s.cycle ∧ 0x80 ≤ pg.word.toNat / 2 ^ 56)
  | _, _ => false

/-- Does the sequencer of a page run its word in this cycle (R151, R152, R380, R398)? -/
def State.seqRuns (s : State) (p : Nat) : Bool :=
  let pg := s.page p
  let stands := match pg.phase with
    | .ready => true
    | .until _ => true
    | .kern => true
    | .join => true
    | .granted => true
    | _ => false
  pg.running && pg.halted.isNone && stands && (if pg.frozen then s.finishes p else !pg.yielded)
    && (match s.owner p with
      | none => false
      | some t => !s.holds t (.seq p))

/-- A sequencer turn: the word at the program counter, or trap(program, seq_end) at its end (R152). -/
def State.fetchSeq (s : State) (p : Nat) : Fetched :=
  if !s.seqRuns p then .idle s
  else if (s.page p).nwords ≤ (s.page p).pc.toNat then .idle (s.seqTrap p 1 3)
  else .code (.seq (s.page p).word) { s with focus := { s.focus with page := p } }

/-- An element word turn (R16). -/
def State.fetchElem (s : State) (p c side : Nat) : Fetched :=
  match s.wordFocus p c side with
  | none => .idle s
  | some f => .code (.elem ({ s with focus := f } : State).focusWord) { s with focus := f }

/-- Does a graph instance run a word in this turn? -/
def GInst.runs (g : GInst) : Bool := g.live && decide (g.phase = .ready ∨ g.phase = .hold)

/-- A graph turn: the word at the instance's program counter; past the end it is graph fault 7 (R269). -/
def State.fetchGraph (s : State) (d k : Nat) : Fetched :=
  let g := s.inst d k
  if !g.runs then .idle s
  else if g.code.length ≤ g.pc then .idle (s.gfault d k 7)
  else .code (.graph (g.code.getD g.pc 0)) { s with focus := { s.focus with die := d, inst := k } }

/-- A packet turn: a packet that the channel has queued, else 64 bytes of its ring, which join the queue while the partition is quiesced (R425); a ring access
that is refused closes the channel (R472). -/
def State.fetchPacket (s : State) (part k : Nat) : Fetched :=
  let c := s.chan part k
  match if s.quiesced part then none else c.queued.head? with
  | some bits => if c.acts then .code (.packet { part := part, chan := k, bits := bits }) s else .idle s
  | none =>
    if !c.takes then .idle s
    else
      let a := BitVec.ofNat 64 (fld c.reg 63 0 + 64 * (c.hhead % c.size))
      match s.fnRead (part + 1) a 64 with
      | some bs =>
        if s.quiesced part then .idle (s.queuePacket part k bs) else .code (.packet { part := part, chan := k, bits := BitVec.ofNat 512 (leNat bs) }) s
      | none => .idle (s.ringRefused part k a)

/-- A command turn: the code in the mailbox of the function served next (R431). -/
def State.fetchCommand (s : State) (fn : Nat) : Fetched :=
  if s.tum.queue.head? = some fn then .code (.command (BitVec.ofNat 8 (fld (s.tmbx fn) 71 64)) fn) s else .idle s

def State.fetch (s : State) : Turn → Fetched
  | .land p c => .idle (s.land p c)
  | .word p c side => s.fetchElem p c side
  | .seq p => s.fetchSeq p
  | .graph d k => s.fetchGraph d k
  | .command fn => s.fetchCommand fn
  | .packet n k => s.fetchPacket n k
  | .write w => .row (s.regRow w) { s with focus := { s.focus with wr := w } }
  | .event e => .row e.instr { s with focus := { s.focus with ev := e } }

/-- Bits that are no instruction: an unknown command completes with status 0x01 (R432); in the other planes the loader lets none run (R78). -/
def State.badCode (s : State) (c : Code) : Res :=
  match c with
  | .command _ fn => .next (s.mailDone fn 0x01)
  | .elem _ => .fault (.reservedWord 0)
  | .seq _ => .fault (.reservedWord 1)
  | .graph _ => .fault (.reservedWord 2)
  | .packet _ => .fault (.reservedWord 3)

end Sys2Proof.Machine
end

