-- ==== Sys2Proof/Machine/Dispatch.lean ====
section
/-! DEFINITION. The dispatch: one arm per constructor of Instr, one meaning each. -/
namespace Sys2Proof.Machine

def exec (i : Instr) (s : State) : Host.Outcome State Fault Refusal :=
  match i with
  | .eNop w => Sys2Proof.Machine.execENop w s
  | .eMov w => Sys2Proof.Machine.execEMov w s
  | .eAdd w => Sys2Proof.Machine.execEAdd w s
  | .eSub w => Sys2Proof.Machine.execESub w s
  | .eMul w => Sys2Proof.Machine.execEMul w s
  | .eMulh w => Sys2Proof.Machine.execEMulh w s
  | .eMulhu w => Sys2Proof.Machine.execEMulhu w s
  | .eMad w => Sys2Proof.Machine.execEMad w s
  | .eAnd w => Sys2Proof.Machine.execEAnd w s
  | .eOr w => Sys2Proof.Machine.execEOr w s
  | .eXor w => Sys2Proof.Machine.execEXor w s
  | .eAndn w => Sys2Proof.Machine.execEAndn w s
  | .eNot w => Sys2Proof.Machine.execENot w s
  | .eShl w => Sys2Proof.Machine.execEShl w s
  | .eShr w => Sys2Proof.Machine.execEShr w s
  | .eSra w => Sys2Proof.Machine.execESra w s
  | .eRotl w => Sys2Proof.Machine.execERotl w s
  | .eMin w => Sys2Proof.Machine.execEMin w s
  | .eMax w => Sys2Proof.Machine.execEMax w s
  | .eMinu w => Sys2Proof.Machine.execEMinu w s
  | .eMaxu w => Sys2Proof.Machine.execEMaxu w s
  | .eAbs w => Sys2Proof.Machine.execEAbs w s
  | .eNeg w => Sys2Proof.Machine.execENeg w s
  | .eClz w => Sys2Proof.Machine.execEClz w s
  | .ePopc w => Sys2Proof.Machine.execEPopc w s
  | .eCmpeq w => Sys2Proof.Machine.execECmpeq w s
  | .eCmpne w => Sys2Proof.Machine.execECmpne w s
  | .eCmplt w => Sys2Proof.Machine.execECmplt w s
  | .eCmple w => Sys2Proof.Machine.execECmple w s
  | .eCmpltu w => Sys2Proof.Machine.execECmpltu w s
  | .eCmpleu w => Sys2Proof.Machine.execECmpleu w s
  | .eSel w => Sys2Proof.Machine.execESel w s
  | .eVsel w => Sys2Proof.Machine.execEVsel w s
  | .eValid w => Sys2Proof.Machine.execEValid w s
  | .eSetv w => Sys2Proof.Machine.execESetv w s
  | .eClrv w => Sys2Proof.Machine.execEClrv w s
  | .eBcst w => Sys2Proof.Machine.execEBcst w s
  | .ePerm w => Sys2Proof.Machine.execEPerm w s
  | .eSlideup w => Sys2Proof.Machine.execESlideup w s
  | .eSlidedn w => Sys2Proof.Machine.execESlidedn w s
  | .eRsum w => Sys2Proof.Machine.execERsum w s
  | .eRmax w => Sys2Proof.Machine.execERmax w s
  | .eRmin w => Sys2Proof.Machine.execERmin w s
  | .eLanex w => Sys2Proof.Machine.execELanex w s
  | .eLanei w => Sys2Proof.Machine.execELanei w s
  | .eSteer w => Sys2Proof.Machine.execESteer w s
  | .eTrapif w => Sys2Proof.Machine.execETrapif w s
  | .eMovq w => Sys2Proof.Machine.execEMovq w s
  | .eFadd w => Sys2Proof.Machine.execEFadd w s
  | .eFsub w => Sys2Proof.Machine.execEFsub w s
  | .eFmul w => Sys2Proof.Machine.execEFmul w s
  | .eFma w => Sys2Proof.Machine.execEFma w s
  | .eFms w => Sys2Proof.Machine.execEFms w s
  | .eFnma w => Sys2Proof.Machine.execEFnma w s
  | .eFmin w => Sys2Proof.Machine.execEFmin w s
  | .eFmax w => Sys2Proof.Machine.execEFmax w s
  | .eFmaxm w => Sys2Proof.Machine.execEFmaxm w s
  | .eFabs w => Sys2Proof.Machine.execEFabs w s
  | .eFneg w => Sys2Proof.Machine.execEFneg w s
  | .eFcopys w => Sys2Proof.Machine.execEFcopys w s
  | .eFscale w => Sys2Proof.Machine.execEFscale w s
  | .eFround w => Sys2Proof.Machine.execEFround w s
  | .eFcvti w => Sys2Proof.Machine.execEFcvti w s
  | .eIcvtf w => Sys2Proof.Machine.execEIcvtf w s
  | .eFcmpeq w => Sys2Proof.Machine.execEFcmpeq w s
  | .eFcmplt w => Sys2Proof.Machine.execEFcmplt w s
  | .eFcmple w => Sys2Proof.Machine.execEFcmple w s
  | .eFcmpun w => Sys2Proof.Machine.execEFcmpun w s
  | .eFclass w => Sys2Proof.Machine.execEFclass w s
  | .eFrcp w => Sys2Proof.Machine.execEFrcp w s
  | .eFrsq w => Sys2Proof.Machine.execEFrsq w s
  | .eFsqrt w => Sys2Proof.Machine.execEFsqrt w s
  | .eFdiv w => Sys2Proof.Machine.execEFdiv w s
  | .eFexp2 w => Sys2Proof.Machine.execEFexp2 w s
  | .eFlog2 w => Sys2Proof.Machine.execEFlog2 w s
  | .eFrsum w => Sys2Proof.Machine.execEFrsum w s
  | .eFrmax w => Sys2Proof.Machine.execEFrmax w s
  | .eFrmin w => Sys2Proof.Machine.execEFrmin w s
  | .eDot w => Sys2Proof.Machine.execEDot w s
  | .eDota w => Sys2Proof.Machine.execEDota w s
  | .eCvt w => Sys2Proof.Machine.execECvt w s
  | .eCvts w => Sys2Proof.Machine.execECvts w s
  | .ePack w => Sys2Proof.Machine.execEPack w s
  | .eUnpkl w => Sys2Proof.Machine.execEUnpkl w s
  | .eUnpkh w => Sys2Proof.Machine.execEUnpkh w s
  | .eQmx w => Sys2Proof.Machine.execEQmx w s
  | .eQbx w => Sys2Proof.Machine.execEQbx w s
  | .eDq w => Sys2Proof.Machine.execEDq w s
  | .eSclx w => Sys2Proof.Machine.execESclx w s
  | .eNarw w => Sys2Proof.Machine.execENarw w s
  | .eWidn w => Sys2Proof.Machine.execEWidn w s
  | .eLd w => Sys2Proof.Machine.execELd w s
  | .eSt w => Sys2Proof.Machine.execESt w s
  | .eLdc w => Sys2Proof.Machine.execELdc w s
  | .eSrd w => Sys2Proof.Machine.execESrd w s
  | .eSwr w => Sys2Proof.Machine.execESwr w s
  | .eSskip w => Sys2Proof.Machine.execESskip w s
  | .eScount w => Sys2Proof.Machine.execEScount w s
  | .eAredf w => Sys2Proof.Machine.execEAredf w s
  | .eAredi w => Sys2Proof.Machine.execEAredi w s
  | .eWld w => Sys2Proof.Machine.execEWld w s
  | .eWsel w => Sys2Proof.Machine.execEWsel w s
  | .eSmac w => Sys2Proof.Machine.execESmac w s
  | .eSdrn w => Sys2Proof.Machine.execESdrn w s
  | .eFeed w => Sys2Proof.Machine.execEFeed w s
  | .eRdctl w => Sys2Proof.Machine.execERdctl w s
  | .eWrctl w => Sys2Proof.Machine.execEWrctl w s
  | .sXli w => Sys2Proof.Machine.execSXli w s
  | .sXlih w => Sys2Proof.Machine.execSXlih w s
  | .sXadd w => Sys2Proof.Machine.execSXadd w s
  | .sXsub w => Sys2Proof.Machine.execSXsub w s
  | .sXmul w => Sys2Proof.Machine.execSXmul w s
  | .sXand w => Sys2Proof.Machine.execSXand w s
  | .sXior w => Sys2Proof.Machine.execSXior w s
  | .sXxor w => Sys2Proof.Machine.execSXxor w s
  | .sXshl w => Sys2Proof.Machine.execSXshl w s
  | .sXshr w => Sys2Proof.Machine.execSXshr w s
  | .sXsra w => Sys2Proof.Machine.execSXsra w s
  | .sXmin w => Sys2Proof.Machine.execSXmin w s
  | .sXmax w => Sys2Proof.Machine.execSXmax w s
  | .sXslt w => Sys2Proof.Machine.execSXslt w s
  | .sXsel w => Sys2Proof.Machine.execSXsel w s
  | .sXld w => Sys2Proof.Machine.execSXld w s
  | .sXst w => Sys2Proof.Machine.execSXst w s
  | .sRep w => Sys2Proof.Machine.execSRep w s
  | .sKrun w => Sys2Proof.Machine.execSKrun w s
  | .sKsw w => Sys2Proof.Machine.execSKsw w s
  | .sYield w => Sys2Proof.Machine.execSYield w s
  | .sHalt w => Sys2Proof.Machine.execSHalt w s
  | .sTrap w => Sys2Proof.Machine.execSTrap w s
  | .sNopq w => Sys2Proof.Machine.execSNopq w s
  | .sSsend w => Sys2Proof.Machine.execSSsend w s
  | .sLsync w => Sys2Proof.Machine.execSLsync w s
  | .sSige w => Sys2Proof.Machine.execSSige w s
  | .sWaite w => Sys2Proof.Machine.execSWaite w s
  | .sTld w => Sys2Proof.Machine.execSTld w s
  | .sTst w => Sys2Proof.Machine.execSTst w s
  | .sTkld w => Sys2Proof.Machine.execSTkld w s
  | .sTwld w => Sys2Proof.Machine.execSTwld w s
  | .sTmma w => Sys2Proof.Machine.execSTmma w s
  | .sTmms w => Sys2Proof.Machine.execSTmms w s
  | .sTgath w => Sys2Proof.Machine.execSTgath w s
  | .sTscat w => Sys2Proof.Machine.execSTscat w s
  | .sTxp w => Sys2Proof.Machine.execSTxp w s
  | .sTcvt w => Sys2Proof.Machine.execSTcvt w s
  | .sTqnt w => Sys2Proof.Machine.execSTqnt w s
  | .sTred w => Sys2Proof.Machine.execSTred w s
  | .sTew w => Sys2Proof.Machine.execSTew w s
  | .sTfill w => Sys2Proof.Machine.execSTfill w s
  | .sTsmx w => Sys2Proof.Machine.execSTsmx w s
  | .sTnrm w => Sys2Proof.Machine.execSTnrm w s
  | .sMshp w => Sys2Proof.Machine.execSMshp w s
  | .sMshr w => Sys2Proof.Machine.execSMshr w s
  | .sSpset w => Sys2Proof.Machine.execSSpset w s
  | .sWin w => Sys2Proof.Machine.execSWin w s
  | .sCset w => Sys2Proof.Machine.execSCset w s
  | .sCget w => Sys2Proof.Machine.execSCget w s
  | .sEcopy w => Sys2Proof.Machine.execSEcopy w s
  | .sEgath w => Sys2Proof.Machine.execSEgath w s
  | .sEscat w => Sys2Proof.Machine.execSEscat w s
  | .sEfill w => Sys2Proof.Machine.execSEfill w s
  | .sEcollSum w => Sys2Proof.Machine.execSEcollSum w s
  | .sEcollGather w => Sys2Proof.Machine.execSEcollGather w s
  | .sEcollBcast w => Sys2Proof.Machine.execSEcollBcast w s
  | .sEcryptEnc w => Sys2Proof.Machine.execSEcryptEnc w s
  | .sEcryptDec w => Sys2Proof.Machine.execSEcryptDec w s
  | .sEqry w => Sys2Proof.Machine.execSEqry w s
  | .sEwait w => Sys2Proof.Machine.execSEwait w s
  | .sEcancel w => Sys2Proof.Machine.execSEcancel w s
  | .sSeal w => Sys2Proof.Machine.execSSeal w s
  | .sUnseal w => Sys2Proof.Machine.execSUnseal w s
  | .sRetain w => Sys2Proof.Machine.execSRetain w s
  | .sUnpin w => Sys2Proof.Machine.execSUnpin w s
  | .sEvhint w => Sys2Proof.Machine.execSEvhint w s
  | .sFence w => Sys2Proof.Machine.execSFence w s
  | .sCfill w => Sys2Proof.Machine.execSCfill w s
  | .sCellinit w => Sys2Proof.Machine.execSCellinit w s
  | .sXcell w => Sys2Proof.Machine.execSXcell w s
  | .sXaadd w => Sys2Proof.Machine.execSXaadd w s
  | .sXacas w => Sys2Proof.Machine.execSXacas w s
  | .sXaswp w => Sys2Proof.Machine.execSXaswp w s
  | .sRdsr w => Sys2Proof.Machine.execSRdsr w s
  | .sWrsr w => Sys2Proof.Machine.execSWrsr w s
  | .gEnd w => Sys2Proof.Machine.execGEnd w s
  | .gTask w => Sys2Proof.Machine.execGTask w s
  | .gTaskd w => Sys2Proof.Machine.execGTaskd w s
  | .gStep w => Sys2Proof.Machine.execGStep w s
  | .gEndstep w => Sys2Proof.Machine.execGEndstep w s
  | .gWaitEvent w => Sys2Proof.Machine.execGWaitEvent w s
  | .gWaitLaunch w => Sys2Proof.Machine.execGWaitLaunch w s
  | .gSig w => Sys2Proof.Machine.execGSig w s
  | .gGld w => Sys2Proof.Machine.execGGld w s
  | .gGst w => Sys2Proof.Machine.execGGst w s
  | .gGli w => Sys2Proof.Machine.execGGli w s
  | .gGadd w => Sys2Proof.Machine.execGGadd w s
  | .gGsub w => Sys2Proof.Machine.execGGsub w s
  | .gGand w => Sys2Proof.Machine.execGGand w s
  | .gGcmp w => Sys2Proof.Machine.execGGcmp w s
  | .gGcell w => Sys2Proof.Machine.execGGcell w s
  | .gBr w => Sys2Proof.Machine.execGBr w s
  | .gBrc w => Sys2Proof.Machine.execGBrc w s
  | .gLoop w => Sys2Proof.Machine.execGLoop w s
  | .gEndl w => Sys2Proof.Machine.execGEndl w s
  | .gCallg w => Sys2Proof.Machine.execGCallg w s
  | .gPatch w => Sys2Proof.Machine.execGPatch w s
  | .gMsg w => Sys2Proof.Machine.execGMsg w s
  | .gRcv w => Sys2Proof.Machine.execGRcv w s
  | .gLease w => Sys2Proof.Machine.execGLease w s
  | .gFree w => Sys2Proof.Machine.execGFree w s
  | .gReceipt w => Sys2Proof.Machine.execGReceipt w s
  | .gFaultrd w => Sys2Proof.Machine.execGFaultrd w s
  | .gFaultackEnd w => Sys2Proof.Machine.execGFaultackEnd w s
  | .gFaultackResume w => Sys2Proof.Machine.execGFaultackResume w s
  | .gRetry w => Sys2Proof.Machine.execGRetry w s
  | .cIdent fn => Sys2Proof.Machine.execCIdent fn s
  | .cAttest fn => Sys2Proof.Machine.execCAttest fn s
  | .cFwstage fn => Sys2Proof.Machine.execCFwstage fn s
  | .cFwswitch fn => Sys2Proof.Machine.execCFwswitch fn s
  | .cLibadd fn => Sys2Proof.Machine.execCLibadd fn s
  | .cLibrevoke fn => Sys2Proof.Machine.execCLibrevoke fn s
  | .cPageset fn => Sys2Proof.Machine.execCPageset fn s
  | .cModelopen fn => Sys2Proof.Machine.execCModelopen fn s
  | .cModelfill fn => Sys2Proof.Machine.execCModelfill fn s
  | .cModelclose fn => Sys2Proof.Machine.execCModelclose fn s
  | .cSessopen fn => Sys2Proof.Machine.execCSessopen fn s
  | .cSessclose fn => Sys2Proof.Machine.execCSessclose fn s
  | .cReplyclose fn => Sys2Proof.Machine.execCReplyclose fn s
  | .cOwnreceipt fn => Sys2Proof.Machine.execCOwnreceipt fn s
  | .cLinkup fn => Sys2Proof.Machine.execCLinkup fn s
  | .cExport fn => Sys2Proof.Machine.execCExport fn s
  | .hHostInstallPacket p => Sys2Proof.Machine.execHHostInstallPacket p s
  | .hHostLaunchPacket p => Sys2Proof.Machine.execHHostLaunchPacket p s
  | .hHostPatchPacket p => Sys2Proof.Machine.execHHostPatchPacket p s
  | .hHostDataPacket p => Sys2Proof.Machine.execHHostDataPacket p s
  | .hUnknownPacketType p => Sys2Proof.Machine.execHUnknownPacketType p s
  | .rChannelCreate => Sys2Proof.Machine.execRChannelCreate s
  | .rChannelClose => Sys2Proof.Machine.execRChannelClose s
  | .rRsync => Sys2Proof.Machine.execRRsync s
  | .rRegisterWrite => Sys2Proof.Machine.execRRegisterWrite s
  | .rPartitionDisable => Sys2Proof.Machine.execRPartitionDisable s
  | .vVfFlr => Sys2Proof.Machine.execVVfFlr s
  | .vPf0Flr => Sys2Proof.Machine.execVPf0Flr s
  | .vColdReset => Sys2Proof.Machine.execVColdReset s
  | .rS1inv => Sys2Proof.Machine.execRS1inv s
  | .rS2inv => Sys2Proof.Machine.execRS2inv s
  | .vInvalidationAck => Sys2Proof.Machine.execVInvalidationAck s
  | .rLfack => Sys2Proof.Machine.execRLfack s
  | .rMigrationStart => Sys2Proof.Machine.execRMigrationStart s
  | .vMigrationRound => Sys2Proof.Machine.execVMigrationRound s
  | .vMigrationFinalRound => Sys2Proof.Machine.execVMigrationFinalRound s
  | .rLmFlip => Sys2Proof.Machine.execRLmFlip s
  | .rLmQuiesce => Sys2Proof.Machine.execRLmQuiesce s
  | .rRetentionRegWrite => Sys2Proof.Machine.execRRetentionRegWrite s
  | .rCompressionRangeWrite => Sys2Proof.Machine.execRCompressionRangeWrite s
  | .rVspillWrite => Sys2Proof.Machine.execRVspillWrite s
  | .rSaveareaWrite => Sys2Proof.Machine.execRSaveareaWrite s
  | .vFwHeartbeat => Sys2Proof.Machine.execVFwHeartbeat s
  | .vFwSwitchDeadline => Sys2Proof.Machine.execVFwSwitchDeadline s
  | .vIntervalDecide => Sys2Proof.Machine.execVIntervalDecide s
  | .vKernelEnd => Sys2Proof.Machine.execVKernelEnd s
  | .vMacroElement => Sys2Proof.Machine.execVMacroElement s
  | .vEngineElement => Sys2Proof.Machine.execVEngineElement s
  | .vCollContribution => Sys2Proof.Machine.execVCollContribution s
  | .vCollTimeout => Sys2Proof.Machine.execVCollTimeout s
  | .vPortFetch => Sys2Proof.Machine.execVPortFetch s
  | .vPortWriteout => Sys2Proof.Machine.execVPortWriteout s
  | .vDrainRecordWrite => Sys2Proof.Machine.execVDrainRecordWrite s
  | .vWeightPortBeat => Sys2Proof.Machine.execVWeightPortBeat s
  | .vReductionSend => Sys2Proof.Machine.execVReductionSend s
  | .vSteerArrival => Sys2Proof.Machine.execVSteerArrival s
  | .vEventGrant => Sys2Proof.Machine.execVEventGrant s
  | .vLocalBoundary => Sys2Proof.Machine.execVLocalBoundary s
  | .vGroupBoundary => Sys2Proof.Machine.execVGroupBoundary s
  | .vTrapFreeze => Sys2Proof.Machine.execVTrapFreeze s
  | .vFaultDeadline => Sys2Proof.Machine.execVFaultDeadline s
  | .vTaskSelect => Sys2Proof.Machine.execVTaskSelect s
  | .vTaskAging => Sys2Proof.Machine.execVTaskAging s
  | .vDeficitCharge => Sys2Proof.Machine.execVDeficitCharge s
  | .vPriorityPreempt => Sys2Proof.Machine.execVPriorityPreempt s
  | .vLeaseResident => Sys2Proof.Machine.execVLeaseResident s
  | .vImageCheck => Sys2Proof.Machine.execVImageCheck s
  | .vRegionPlace => Sys2Proof.Machine.execVRegionPlace s
  | .vConfigLoad => Sys2Proof.Machine.execVConfigLoad s
  | .vTaskEnd => Sys2Proof.Machine.execVTaskEnd s
  | .vPreemptRequest => Sys2Proof.Machine.execVPreemptRequest s
  | .vCooperativeSave => Sys2Proof.Machine.execVCooperativeSave s
  | .vForcedSave => Sys2Proof.Machine.execVForcedSave s
  | .vSliceEndRestart => Sys2Proof.Machine.execVSliceEndRestart s
  | .vTaskRestore => Sys2Proof.Machine.execVTaskRestore s
  | .vL2Fill => Sys2Proof.Machine.execVL2Fill s
  | .vExpanderDeliver => Sys2Proof.Machine.execVExpanderDeliver s
  | .vLinkFail => Sys2Proof.Machine.execVLinkFail s
  | .vDomainLinkTimeout => Sys2Proof.Machine.execVDomainLinkTimeout s
  | .vFlitReceive => Sys2Proof.Machine.execVFlitReceive s
  | .vLinkKeyUpdate => Sys2Proof.Machine.execVLinkKeyUpdate s
  | .vEthernetDatagram => Sys2Proof.Machine.execVEthernetDatagram s
  | .vPatrolScrub => Sys2Proof.Machine.execVPatrolScrub s
  | .vClockChange => Sys2Proof.Machine.execVClockChange s
  | .vRemoteWalkComplete => Sys2Proof.Machine.execVRemoteWalkComplete s
  | .rClusterRevocation => Sys2Proof.Machine.execRClusterRevocation s
  | .rChannelDheadWrite => Sys2Proof.Machine.execRChannelDheadWrite s
  | .vDataReturn => Sys2Proof.Machine.execVDataReturn s
  | .vRouteComesBack => Sys2Proof.Machine.execVRouteComesBack s
  | .vSoftError => Sys2Proof.Machine.execVSoftError s
  | .vDebugPortRead => Sys2Proof.Machine.execVDebugPortRead s
  | .vPcieSectorEntry => Sys2Proof.Machine.execVPcieSectorEntry s

end Sys2Proof.Machine
end

