-- ==== Sys2Proof/Machine/Place.lean ====
section
/-! DEFINITION. Where an instruction stands that the next step fetches (notes/assumptions/7.md): one running task on page 0 of die 0, one live graph
instance, a mailbox with a command, a channel with a packet in its ring. -/
namespace Sys2Proof.Machine

/-- Task 1 of partition 0 runs on page 0; wave words as given. -/
def State.placePage (s : State) (pg : Page) (ws : List Wave) (t : Turn) : State :=
  { s with
    pages := assocSet s.pages 0 { pg with owner := some 1, running := true }
    tasks := assocSet s.tasks 1
      { tid := 1, part := 0, tenant := 0, state := .running, pages := [0], delta := [0], npages := 1, home := some 0, waves := ws }
    agenda := [t] }

/-- An element word in slot 0 of core 0, which a live wave word reaches in this cycle. -/
def State.placeElem (s : State) (w : BitVec 40) : State :=
  let k : Core := { ctab := w.setWidth 45 :: List.replicate 63 0, hist := { live := true } :: List.replicate 31 {} }
  s.placePage { cores := k :: List.replicate 7 {} } [{ at_ := s.cycle, live := true, sched := false, slot := 0, tag := 0, iv := 0 }] (.word 0 0 0)

/-- A sequencer word at index 0 of page 0. -/
def State.placeSeq (s : State) (w : W64) : State := s.placePage { seqMem := [w], nwords := 1 } [] (.seq 0)

/-- A graph word at index 0 of instance slot 0 on die 0. -/
def State.placeGraph (s : State) (w : W64) : State :=
  { s.modInst 0 0 (fun _ => { gen := 1, live := true, code := [w] }) with agenda := [.graph 0 0] }

/-- A command in PF0's mailbox. -/
def State.placeCommand (s : State) (c : Byte) : State :=
  { s with dev := { s.dev with tmbx := setFld (setFld s.dev.tmbx 71 64 c.toNat) 72 72 1 }, tum := { s.tum with queue := [0] }, agenda := [.command 0] }

/-- A packet in the ring of channel 0 of partition 0: stage 2 maps die 0 onto itself, page 0 belongs to the partition. -/
def State.placePacket (s : State) (bs : List Byte) : State :=
  let chan : Chan := { reg := BitVec.ofNat 512 (2 ^ 152 + 2 ^ 192 + 2 ^ 256 + 0x1000 * 2 ^ 64) }
  let s1 := (s.modPartDie 0 0 fun x => { x with part := x.part ||| 0x100000000, s2root := 0x10001 }).modPart 0 fun p =>
    { p with chans := p.chans.set 0 chan }
  { s1 with
    hbm := cellsWrite (cellsWrite s1.hbm (hbmKey 0 0x10000) (leBytes 8 7)) (hbmKey 0 0) bs
    tum := { s1.tum with pot := assocSet s1.tum.pot 0 { cls := 0, owner := 0 } }
    agenda := [.packet 0 0] }

/-- A table word by its plane. -/
def State.placeWord (s : State) (nbits w : Nat) : State :=
  match planeOf nbits with
  | some (0, _) => s.placeElem (BitVec.ofNat 40 w)
  | some (1, _) => s.placeSeq (BitVec.ofNat 64 w)
  | some (2, _) => s.placeGraph (BitVec.ofNat 64 w)
  | some (3, _) => s.placeCommand (BitVec.ofNat 8 w)
  | some (4, _) => s.placePacket (leBytes 64 w)
  | _ => s

end Sys2Proof.Machine
end

