-- ==== Sys2Proof/Machine/Step.lean ====
section
/-! DEFINITION. One step: the next turn of the agenda, or the end of the cycle (notes/assumptions/3.md). -/
namespace Sys2Proof.Machine

/-- The next turn of the agenda fetches, decodes and runs its word; with no turn left the cycle ends. -/
def step (s : State) : Host.Outcome State Fault Refusal :=
  match s.agenda with
  | [] => .next s.tick
  | t :: rest =>
    match ({ s with agenda := rest } : State).fetch t with
    | .idle s1 => .next s1
    | .row i s1 => exec i s1
    | .code c s1 =>
      match decode c with
      | .ok i => exec i s1
      | .error _ => s1.badCode c

/-- The instruction of a table word where the next step fetches (notes/assumptions/7.md). -/
def State.withFetchWord (s : State) (nbits w : Nat) : State := s.placeWord nbits w

end Sys2Proof.Machine
end

