-- ==== Sys2Proof/Safety.lean ====
section
/-! DEFINITION. The terms in which claims are stated: outcomes, runs that do not stop, the bytes of every memory, what a word delivers, and the
parts of the state that a frame keeps. -/
namespace Sys2Proof.Machine

/-- The outcome is a next state with a property. -/
def Answers (o : Res) (P : State → Prop) : Prop := ∃ t, o = .next t ∧ P t

/-- n steps from a state all answer a next state. -/
def SafeFor : Nat → State → Prop
  | 0, _ => True
  | n + 1, s => Answers (step s) (SafeFor n)

/-! Bytes. -/

/-- A byte of memory: HBM by die and physical address, the scratchpad or the constant cache of a core, another device's memory. -/
inductive Spot where
  | hbm (die pa : Nat)
  | scratch (page core off : Nat)
  | constant (page core off : Nat)
  | device (ctag va : Nat)
  deriving DecidableEq, Repr

/-- Reading one byte. -/
def State.byteAt (s : State) : Spot → Byte
  | .hbm d pa => cellGet s.hbm (hbmKey d pa)
  | .scratch p c o => cellGet (s.core p c).sp o
  | .constant p c o => cellGet (s.core p c).cc o
  | .device g a => cellGet ((assocGet s.peer g).getD []) a

/-- Every byte of every memory reads as before, but where a condition holds. -/
def KeepsBytesBut (s t : State) (stored : Spot → Prop) : Prop := ∀ x, ¬ stored x → t.byteAt x = s.byteAt x

/-- Every byte of every memory reads as before. -/
def KeepsBytes (s t : State) : Prop := ∀ x, t.byteAt x = s.byteAt x

/-- HBM and the memory of other devices are in canonical form. -/
def State.wellKept (s : State) : Bool := Memory.wf s.hbm && s.peer.all fun x => Memory.wf x.2

/-! Frames. -/

/-- A core but for what its pipelines hold. -/
def Core.settled (k : Core) : Core := { k with flight := [] }

/-- A state but for its pages. -/
def State.offPages (s : State) : State := { s with pages := [] }

/-- A state but for the graph instances. -/
def State.offGraphs (s : State) : State := { s with dies := s.dies.map fun x => { x with insts := [] } }

/-! What a word delivers (R21, R70, R94, R95). -/

/-- Does no operand of the word name a link input that holds a keyed beat (R149)? -/
def State.unkeyed (s : State) (op : Nat) (w : EWord) : Bool :=
  (srcCodes op w).all fun c => !(decide (40 ≤ c ∧ c < 44) && (s.fcore.lin.getD (s.fcore.side s.focus (c - 40)) {}).key)

/-- Does the side effect of lane i occur, and is the lane valid (R21)? -/
def laneStands (w : EWord) (r : Srcs) (ok : Nat → Bool) (i : Nat) : Bool :=
  if w.vm = 1 then true else if w.vm = 3 then decide (r.c.lane i ≠ 0) else ok i

/-- A result of the word in focus: destination and sides of R70; in every lane the computed value where all inputs are valid or the mode
computes blindly, else zero; its validity; under keep no change where an input is invalid; the flags of the lanes that stand (R21, R94). -/
def Result.carries (r : Result) (s : State) (w : EWord) (x : Srcs) (ok : Nat → Bool) (val : Nat → W32 × FlagSet) : Prop :=
  (r.reg, r.sides, r.narrow) = destOf s.fcore w ∧ r.whole = false ∧ r.key = false ∧ r.odd = s.fcore.odd s.focus
    ∧ (∀ i ∈ lanesOf w,
        laneOf r.lanes i = (if w.vm = 1 ∨ w.vm = 3 ∨ ok i = true then (val i).1 else 0)
          ∧ r.valid.getLsbD i = laneStands w x ok i ∧ r.mask.getLsbD i = (decide (w.vm ≠ 2) || ok i))
    ∧ ∀ k < 5, r.flags.getLsbD k = (lanesOf w).any fun i => laneStands w x ok i && (val i).2.getLsbD k

/-- The word in focus puts one result into its core's pipeline, to land after lat cycles, and does nothing else. -/
def Delivers (o : Res) (s : State) (lat : Nat) (w : EWord) (x : Srcs) (ok : Nat → Bool) (val : Nat → W32 × FlagSet) : Prop :=
  ∃ r : Result, r.carries s w x ok val ∧
    o = .next (s.modCore s.focus.page s.focus.core fun k =>
      { k with flight := k.flight ++ [{ left := lat, iv := s.focus.iv, act := .result r }] })

end Sys2Proof.Machine
end

