-- ==== Sys2Proof/Certificates/Slice0/Obligations.lean ====
section
/-! DEFINITION. The statements: what the instructions and the machine do, in the terms of Safety.lean. Every clause about an instruction that runs
has the next state as its conclusion. -/
namespace Sys2Proof.Claims
open Sys2Proof Sys2Proof.Machine

/-! ## Element words with one result per lane -/

/-- A function of one, two or three operand lanes, at any width. -/
abbrev WidthFn := (n : Nat) → BitVec n → BitVec n → BitVec n

/-- The words that compute on the lane or on its bytes: constructor, opcode, whether b is read, the function (R98, R99, R101). -/
def widthWords : List ((EWord → Instr) × Nat × Bool × WidthFn) :=
  [(.eAdd, 0x02, true, fun _ x y => x + y),
   (.eSub, 0x03, true, fun _ x y => x - y),
   (.eMin, 0x11, true, fun _ x y => if y.slt x then y else x),
   (.eMax, 0x12, true, fun _ x y => if x.slt y then y else x),
   (.eMinu, 0x13, true, fun _ x y => if y.ult x then y else x),
   (.eMaxu, 0x14, true, fun _ x y => if x.ult y then y else x),
   (.eAbs, 0x15, false, fun _ x _ => if x.slt 0 then -x else x),
   (.eNeg, 0x16, false, fun _ x _ => -x),
   (.eCmpeq, 0x19, true, fun _ x y => if x = y then 1 else 0),
   (.eCmpne, 0x1A, true, fun _ x y => if x = y then 0 else 1),
   (.eCmplt, 0x1B, true, fun _ x y => if x.slt y then 1 else 0),
   (.eCmple, 0x1C, true, fun _ x y => if x.sle y then 1 else 0),
   (.eCmpltu, 0x1D, true, fun _ x y => if x.ult y then 1 else 0),
   (.eCmpleu, 0x1E, true, fun _ x y => if x.ule y then 1 else 0)]

/-- A function on the whole lane (ty 0) or on its four bytes (ty 6) (R98, R99). -/
def widthLane (ty : BitVec 3) (f : WidthFn) (x y : W32) : W32 :=
  if ty = 6 then
    f 8 (x.extractLsb' 24 8) (y.extractLsb' 24 8) ++ f 8 (x.extractLsb' 16 8) (y.extractLsb' 16 8)
      ++ f 8 (x.extractLsb' 8 8) (y.extractLsb' 8 8) ++ f 8 (x.extractLsb' 0 8) (y.extractLsb' 0 8)
  else f 32 x y

/-- The words that compute on the 32-bit lane: constructor, opcode, how many operands are read, the function (R98, R100, R103). -/
def laneWords : List ((EWord → Instr) × Nat × Nat × (W32 → W32 → W32 → W32)) :=
  [(.eMov, 0x01, 1, fun x _ _ => x),
   (.eMul, 0x04, 2, fun x y _ => x * y),
   (.eMulh, 0x05, 2, fun x y _ => (x.signExtend 64 * y.signExtend 64).extractLsb' 32 32),
   (.eMulhu, 0x06, 2, fun x y _ => (x.zeroExtend 64 * y.zeroExtend 64).extractLsb' 32 32),
   (.eMad, 0x07, 3, fun x y z => x * y + z),
   (.eAnd, 0x08, 2, fun x y _ => x &&& y),
   (.eOr, 0x09, 2, fun x y _ => x ||| y),
   (.eXor, 0x0A, 2, fun x y _ => x ^^^ y),
   (.eAndn, 0x0B, 2, fun x y _ => x &&& ~~~y),
   (.eNot, 0x0C, 1, fun x _ _ => ~~~x),
   (.eShl, 0x0D, 2, fun x y _ => x <<< (y &&& 31)),
   (.eShr, 0x0E, 2, fun x y _ => x >>> (y &&& 31)),
   (.eSra, 0x0F, 2, fun x y _ => x.sshiftRight' (y &&& 31)),
   (.eRotl, 0x10, 2, fun x y _ => x.rotateLeft ((y &&& 31).toNat)),
   (.eClz, 0x17, 1, fun x _ _ => x.clz),
   (.ePopc, 0x18, 1, fun x _ _ => BitVec.ofNat 32 ((List.range 32).countP fun i => x.getLsbD i))]

/-- The words that move lanes: constructor, opcode, input validity and value of result lane i (R103 to R108). -/
def moveWords : List ((EWord → Instr) × Nat × (Srcs → Nat → Bool) × (Srcs → Nat → W32)) :=
  [(.eSel, 0x1F, fun r i => r.c.ok 0 && if r.c.lane 0 = 0 then r.b.ok i else r.a.ok i, fun r i => if r.c.lane 0 = 0 then r.b.lane i else r.a.lane i),
   (.eVsel, 0x20, fun r i => r.c.ok i && if r.c.lane i = 0 then r.b.ok i else r.a.ok i, fun r i => if r.c.lane i = 0 then r.b.lane i else r.a.lane i),
   (.eValid, 0x21, fun _ _ => true, fun r i => if r.a.ok i then 1 else 0),
   (.eSetv, 0x22, fun _ _ => true, fun r i => r.a.lane i),
   (.eBcst, 0x24, fun r _ => r.a.ok 0, fun r _ => r.a.lane 0),
   (.ePerm, 0x25, fun r i => r.b.ok i && r.a.ok (fld (r.b.lane i) 3 0), fun r i => r.a.lane (fld (r.b.lane i) 3 0)),
   (.eSlideup, 0x26, fun r i => if i = 0 then r.b.ok 15 else r.a.ok (i - 1), fun r i => if i = 0 then r.b.lane 15 else r.a.lane (i - 1)),
   (.eSlidedn, 0x27, fun r i => if i = 15 then r.b.ok 0 else r.a.ok (i + 1), fun r i => if i = 15 then r.b.lane 0 else r.a.lane (i + 1)),
   (.eLanex, 0x2B, fun r _ => r.b.ok 0 && r.a.ok (fld (r.b.lane 0) 3 0), fun r _ => r.a.lane (fld (r.b.lane 0) 3 0)),
   (.eMovq, 0x2F, fun r _ => r.a.ok 0, fun r _ => r.a.lane 0)]

/-- A live word whose link operands hold no keyed beat. -/
def liveWord (op : Nat) (w : EWord) (s : State) : Prop := s.focus.live = true ∧ s.unkeyed op w = true

end Sys2Proof.Claims

open Sys2Proof Sys2Proof.Machine Sys2Proof.Claims

/-- R98, R99, R101: integer words of ty 0 work on the 32-bit lane and of ty 6 on its four bytes; each comparison delivers 1 or 0; latency 1 (R96). -/
def Obligations.IntegerWordsDeliverTheirFunction : Prop :=
  ∀ x ∈ widthWords, ∀ (w : EWord) (s : State), (w.ty = 0 ∨ w.ty = 6) → liveWord x.2.1 w s →
    let r := s.srcs x.2.1 w
    Delivers (exec (x.1 w) s) s 1 w r (fun i => r.a.ok i && (!x.2.2.1 || r.b.ok i))
      fun i => (widthLane w.ty x.2.2.2 (r.a.lane i) (r.b.lane i), 0)

/-- R98, R100, R103: products, logic, shifts by the low five bits, counts and MOV on the 32-bit lane; latency 1 (R96). -/
def Obligations.LaneWordsDeliverTheirFunction : Prop :=
  ∀ x ∈ laneWords, ∀ (w : EWord) (s : State), liveWord x.2.1 w s →
    let r := s.srcs x.2.1 w
    Delivers (exec (x.1 w) s) s 1 w r
      (fun i => r.a.ok i && (decide (x.2.2.1 < 2) || r.b.ok i) && (decide (x.2.2.1 < 3) || r.c.ok i))
      fun i => (x.2.2.2 (r.a.lane i) (r.b.lane i) (r.c.lane i), 0)

namespace Sys2Proof.Claims

/-- R103 to R108: selects, validity moves, broadcast, permutation, slides, lane extraction and MOVQ; CLRV delivers a's lanes as invalid (R105). -/
def MoveWordsPlaceLanesWhole : Prop :=
  (∀ x ∈ moveWords, ∀ (w : EWord) (s : State), liveWord x.2.1 w s →
    let r := s.srcs x.2.1 w
    Delivers (exec (x.1 w) s) s 1 w r (x.2.2.1 r) fun i => (x.2.2.2 r i, 0))
  ∧ ∀ (w : EWord) (s : State), liveWord 0x23 w s → ∃ r : Result,
    exec (.eClrv w) s = .next (s.launchAct 1 (.result r)) ∧ (r.reg, r.sides, r.narrow) = destOf s.fcore w ∧ r.valid = 0
      ∧ r.mask = 0xFFFF ∧ ∀ i ∈ lanesOf w, laneOf r.lanes i = (s.src w.a).lane i

end Sys2Proof.Claims

namespace Sys2Proof.Claims

/-- The lanes of a that a cross-lane word takes (R110): the valid ones under null and keep, all under blind and setv. -/
def takes (w : EWord) (a : VReg) : List Nat := (List.range 16).filter fun i => decide (w.vm = 1 ∨ w.vm = 3) || a.ok i

/-- The taken lanes of a combined in the tree of R66, four levels of neighbours; zero when no lane is taken; a NaN is made canonical. -/
def laneTree (w : EWord) (a : VReg) (f : W32 × FlagSet → W32 × FlagSet → W32 × FlagSet) : W32 × FlagSet :=
  let x := (tree16 f ((List.range 16).map fun i => if i ∈ takes w a then some (a.lane i, (0 : FlagSet)) else none)).getD (0, 0)
  (canonF32 x.1, x.2)

/-- Floating words on the elements of a lane: constructor, opcode, latency, operands read, element function under a rounding mode (R116 to R121). -/
def floatWords : List ((EWord → Instr) × Nat × Nat × Nat × (Nat → Fmt → Nat → Nat → Nat → Nat × FlagSet)) :=
  [(.eFadd, 0x30, 3, 2, fun q m a b _ => roundOut m q (Val.add q (m.val a) (m.val b))),
   (.eFsub, 0x31, 3, 2, fun q m a b _ => roundOut m q (Val.add q (m.val a) ((m.val b).flip true))),
   (.eFmul, 0x32, 3, 2, fun q m a b _ => roundOut m q (Val.mul (m.val a) (m.val b))),
   (.eFma, 0x33, 3, 3, fun q m a b c => fusedMul m q false false a b c),
   (.eFms, 0x34, 3, 3, fun q m a b c => fusedMul m q false true a b c),
   (.eFnma, 0x35, 3, 3, fun q m a b c => fusedMul m q true false a b c),
   (.eFmin, 0x36, 3, 2, fun q m a b _ => roundOut m q (Val.minmax false (m.val a) (m.val b), 0)),
   (.eFmax, 0x37, 3, 2, fun q m a b _ => roundOut m q (Val.minmax true (m.val a) (m.val b), 0)),
   (.eFabs, 0x38, 3, 1, fun q m a _ _ => roundOut m q ((m.val a).abs, 0)),
   (.eFneg, 0x39, 3, 1, fun q m a _ _ => roundOut m q ((m.val a).flip true, 0)),
   (.eFcmpeq, 0x3A, 3, 2, fun _ m a b _ => floatCmp m false false (fun x y => !x.lt false y && !y.lt false x) a b),
   (.eFcmplt, 0x3B, 3, 2, fun _ m a b _ => floatCmp m false true (fun x y => x.lt false y) a b),
   (.eFcmple, 0x3C, 3, 2, fun _ m a b _ => floatCmp m false true (fun x y => !y.lt false x) a b),
   (.eFcmpun, 0x3D, 3, 2, fun _ m a b _ => floatCmp m true false (fun _ _ => false) a b),
   (.eFclass, 0x3E, 3, 1, fun _ m a _ _ => (2 ^ classBit m a, 0)),
   (.eFrcp, 0x3F, 6, 1, fun q m a _ _ => roundOut m q (Val.div (.fin false 1 0) (m.val a))),
   (.eFrsq, 0x40, 6, 1, fun q m a _ _ => roundOut m q (m.val a).rsqrt),
   (.eFsqrt, 0x41, 6, 1, fun q m a _ _ => roundOut m q (m.val a).sqrt),
   (.eFdiv, 0x42, 10, 2, fun q m a b _ => roundOut m q (Val.div (m.val a) (m.val b))),
   (.eFexp2, 0x43, 8, 1, fun q m a _ _ => roundOut m q (m.val a).exp2),
   (.eFlog2, 0x44, 8, 1, fun q m a _ _ => roundOut m q (m.val a).log2),
   (.eFround, 0x4B, 3, 1, fun q m a _ _ => (roundIntegral m q a, 0)),
   (.eFcopys, 0x4E, 3, 2, fun _ m a b _ =>
      let h := 2 ^ (m.mbits + m.ebits)
      (if (m.val a).isNan then m.nan else a % h + b / h * h, 0)),
   (.eFmaxm, 0x4F, 3, 2, fun q m a b _ => roundOut m q (Val.maxMag (m.val a) (m.val b), 0))]

/-- Words that compute a lane from the lanes beside it, with their latency: scaling, dot products, conversion (R118, R123 to R126). -/
def mixedWords : List ((EWord → Instr) × Nat × Nat × Nat × (EWord → Nat → W32 → W32 → W32 → W32 × FlagSet)) :=
  [(.eFscale, 0x4A, 3, 2, fun w q a b _ => perFloat w.ty (fun m x _ _ => roundOut m q ((m.val x).scale b.toInt, 0)) a 0 0),
   (.eDot, 0x48, 4, 2, fun w q a b _ =>
      if w.ty = 6 then (BitVec.ofInt 32 (dotInt a b), 0)
      else ((roundOut f32 q (Val.dot q (dotPairs w.ty.toNat a b))).map (BitVec.ofNat 32) id)),
   (.eDota, 0x49, 4, 3, fun w q a b c =>
      if w.ty = 6 then (BitVec.ofInt 32 (dotInt a b + c.toInt), 0)
      else
        let p := Val.dot q (dotPairs w.ty.toNat a b)
        if p.1.isZero then (canonF32 c, p.2)
        else
          let t := Val.add q p.1 (f32.val c.toNat)
          (roundOut f32 q (t.1, p.2 ||| t.2)).map (BitVec.ofNat 32) id),
   (.eFcvti, 0x4C, 2, 1, fun _ q a _ _ => (toInt 32 q false (f32.val a.toNat)).map (BitVec.ofNat 32) id),
   (.eIcvtf, 0x4D, 2, 1, fun _ q a _ _ => (f32.round q false (Val.ofInt a.toInt)).map (BitVec.ofNat 32) id),
   (.eCvt, 0x50, 2, 1, fun w q a _ _ => (convert w.b.toNat w.ty.toNat q false (elemAt w.b.toNat a 0)).map (BitVec.ofNat 32) id),
   (.eCvts, 0x51, 2, 1, fun w q a _ _ => (convert w.b.toNat w.ty.toNat q true (elemAt w.b.toNat a 0)).map (BitVec.ofNat 32) id),
   (.ePack, 0x52, 2, 2, fun w q a b _ =>
      let sat := w.c.getLsbD 0
      let src := if w.c.getLsbD 1 then 3 else 2
      if w.ty = 2 ∨ w.ty = 3 then convPack 1 w.ty.toNat q sat [a.toNat, b.toNat]
      else convPack src w.ty.toNat q sat [elemAt src a 0, elemAt src a 1, elemAt src b 0, elemAt src b 1]),
   (.eUnpkl, 0x53, 2, 1, fun w q a _ _ =>
      convPack w.b.toNat w.ty.toNat q false ((List.range (laneCount w.ty.toNat)).map fun j => elemAt w.b.toNat a j)),
   (.eUnpkh, 0x54, 2, 1, fun w q a _ _ =>
      convPack w.b.toNat w.ty.toNat q false
        ((List.range (laneCount w.ty.toNat)).map fun j => elemAt w.b.toNat a (laneCount w.ty.toNat + j)))]

/-- Words that compute a lane from several lanes: quantization, dequantization, narrowing and widening (R127 to R131): validity and value. -/
def blockWords : List ((EWord → Instr) × Nat × (EWord → Srcs → Nat → Bool) × (EWord → Srcs → Nat → W32 × FlagSet)) :=
  [(.eQmx, 0x55, fun w r _ => quantOk w r.a r.b, fun w r i =>
      let q := quantize false (quantSrc w r.a r.b).1 r.rm (w.c.getLsbD 0) (quantSrc w r.a r.b).2
      (qblockLane q i, q.flags)),
   (.eQbx, 0x56, fun w r _ => quantOk w r.a r.b, fun w r i =>
      let q := quantize true (quantSrc w r.a r.b).1 r.rm (w.c.getLsbD 0) (quantSrc w r.a r.b).2
      (qblockLane q i, q.flags)),
   (.eDq, 0x57,
    fun w r i => r.a.ok (4 * fld w.c 2 1 + (if w.ty = 1 then 16 * fld w.c 3 3 + i else 2 * i) / 8) && r.b.ok (if oneWord w.b.toNat then 0 else 4),
    fun w r i =>
      let e0 := if w.ty = 1 then 16 * fld w.c 3 3 + i else 2 * i
      let sx := (r.b.lane (if oneWord w.b.toNat then 0 else 4)).toNat
      let out := (List.range (laneCount w.ty.toNat)).map fun j =>
        (fmtOf w.ty.toNat).round r.rm (w.c.getLsbD 0)
          (fp4Val (w.c.getLsbD 4) (sx % 256) (sx / 256 % 256) (elemAt 7 (r.a.lane (4 * fld w.c 2 1 + (e0 + j) / 8)) ((e0 + j) % 8)))
      (packElems w.ty.toNat (out.map (·.1)), out.foldl (fun f x => f ||| x.2) 0)),
   (.eSclx, 0x58, fun w r _ => quantOk w r.a r.b, fun w r _ =>
      let x := quantSrc w r.a r.b
      (BitVec.ofNat 32 (quantize false x.1 r.rm (w.c.getLsbD 0) x.2).s, flagIf (!w.c.getLsbD 0 && x.2.any Val.isInf) fNv)),
   (.eNarw, 0x59,
    fun w r i =>
      let n := laneCount w.ty.toNat / laneCount w.b.toNat
      decide (16 ≤ i * n) || (List.range n).all fun j => r.a.ok (n * i + j),
    fun w r i =>
      let k := laneCount w.b.toNat
      let n := laneCount w.ty.toNat / k
      if 16 ≤ i * n then (0, 0)
      else convPack w.b.toNat w.ty.toNat r.rm (w.c.getLsbD 0)
        ((List.range (laneCount w.ty.toNat)).map fun e => elemAt w.b.toNat (r.a.lane (n * i + e / k)) (e % k))),
   (.eWidn, 0x5A,
    fun w r i => r.a.ok ((16 * laneCount w.ty.toNat * fld w.c 2 1 + laneCount w.ty.toNat * i) / laneCount w.b.toNat),
    fun w r i =>
      let k := laneCount w.b.toNat
      let e0 := 16 * laneCount w.ty.toNat * fld w.c 2 1 + laneCount w.ty.toNat * i
      convPack w.b.toNat w.ty.toNat r.rm (w.c.getLsbD 0)
        ((List.range (laneCount w.ty.toNat)).map fun j => elemAt w.b.toNat (r.a.lane ((e0 + j) / k)) ((e0 + j) % k)))]

/-- Every word whose entry names a latency, with its opcode and latency, but for LD, LDC, SRD, WLD, SMAC and SDRN (R96, R116). -/
def resultWords : List ((EWord → Instr) × Nat × Nat) :=
  widthWords.map (fun x => (x.1, x.2.1, 1)) ++ laneWords.map (fun x => (x.1, x.2.1, 1)) ++ moveWords.map (fun x => (x.1, x.2.1, 1))
    ++ [(.eClrv, 0x23, 1), (.eLanei, 0x2C, 1), (.eRsum, 0x28, 2), (.eRmax, 0x29, 2), (.eRmin, 0x2A, 2), (.eFrsum, 0x45, 8), (.eFrmax, 0x46, 4),
        (.eFrmin, 0x47, 4)]
    ++ floatWords.map (fun x => (x.1, x.2.1, x.2.2.1)) ++ mixedWords.map (fun x => (x.1, x.2.1, x.2.2.1))
    ++ blockWords.map (fun x => (x.1, x.2.1, 2))

end Sys2Proof.Claims

namespace Sys2Proof.Claims

/-- R110: RSUM adds the lanes it takes modulo 2^32 and delivers the sum in every lane; RMAX and RMIN deliver a lane they take that no lane they take
exceeds or falls below; with no lane taken the value is zero. Latency 2 (R96). -/
def IntegerReductionsCombineTheTakenLanes : Prop :=
  ∀ (w : EWord) (s : State),
    (liveWord 0x28 w s → let r := s.srcs 0x28 w
      Delivers (exec (.eRsum w) s) s 2 w r (fun _ => decide (r.a.valid ≠ 0)) fun _ => (((takes w r.a).map r.a.lane).sum, 0))
    ∧ (liveWord 0x29 w s → let r := s.srcs 0x29 w
      ∃ x : W32, Delivers (exec (.eRmax w) s) s 2 w r (fun _ => decide (r.a.valid ≠ 0)) (fun _ => (x, 0))
        ∧ (∀ i ∈ takes w r.a, (r.a.lane i).toInt ≤ x.toInt)
        ∧ if takes w r.a = [] then x = 0 else ∃ i ∈ takes w r.a, r.a.lane i = x)
    ∧ (liveWord 0x2A w s → let r := s.srcs 0x2A w
      ∃ x : W32, Delivers (exec (.eRmin w) s) s 2 w r (fun _ => decide (r.a.valid ≠ 0)) (fun _ => (x, 0))
        ∧ (∀ i ∈ takes w r.a, x.toInt ≤ (r.a.lane i).toInt)
        ∧ if takes w r.a = [] then x = 0 else ∃ i ∈ takes w r.a, r.a.lane i = x)

end Sys2Proof.Claims

namespace Sys2Proof.Claims

/-- R122, R66: FRSUM, FRMAX and FRMIN combine the taken lanes in the fixed tree, FRSUM rounding at each node, and make a NaN canonical;
latencies 8, 4 and 4 (R116). -/
def FloatReductionsUseTheFixedTree : Prop :=
  ∀ (w : EWord) (s : State),
    (liveWord 0x45 w s → let r := s.srcs 0x45 w
      Delivers (exec (.eFrsum w) s) s 8 w r (fun _ => decide (r.a.valid ≠ 0)) fun _ => laneTree w r.a fun x y =>
        let n := roundOut f32 r.rm (Val.add r.rm (f32.val x.1.toNat) (f32.val y.1.toNat))
        (BitVec.ofNat 32 n.1, x.2 ||| y.2 ||| n.2))
    ∧ (liveWord 0x46 w s → let r := s.srcs 0x46 w
      Delivers (exec (.eFrmax w) s) s 4 w r (fun _ => decide (r.a.valid ≠ 0)) fun _ => laneTree w r.a fun x y =>
        (BitVec.ofNat 32 (f32.round 0 false (Val.minmax true (f32.val x.1.toNat) (f32.val y.1.toNat))).1, x.2 ||| y.2))
    ∧ (liveWord 0x47 w s → let r := s.srcs 0x47 w
      Delivers (exec (.eFrmin w) s) s 4 w r (fun _ => decide (r.a.valid ≠ 0)) fun _ => laneTree w r.a fun x y =>
        (BitVec.ofNat 32 (f32.round 0 false (Val.minmax false (f32.val x.1.toNat) (f32.val y.1.toNat))).1, x.2 ||| y.2))

end Sys2Proof.Claims

/-- Integer and floating cross-lane reductions (R110, R122). -/
def Obligations.ReductionsCombineTheTakenLanes : Prop := IntegerReductionsCombineTheTakenLanes ∧ FloatReductionsUseTheFixedTree

namespace Sys2Proof.Claims

/-- R109: LANEI inserts one word into one lane of its destination and forwards the whole register; with an invalid index outside blind it
writes nothing and forwards invalid zero. -/
def LaneiInsertsOneLane : Prop :=
  ∀ (w : EWord) (s : State), liveWord 0x2C w s →
    let r := s.srcs 0x2C w
    let j := fld (r.b.lane 0) 3 0
    let ok := r.a.ok 0 && r.b.ok 0
    if r.b.ok 0 = false ∧ w.vm ≠ 1 then
      exec (.eLanei w) s = .next (s.launchAct 1 (.result { sides := w.fwd, odd := s.fcore.odd s.focus }))
    else
      ∃ x : Result, exec (.eLanei w) s = .next (s.launchAct 1 (.result x))
        ∧ x.reg = (destOf s.fcore w).1 ∧ x.sides = w.fwd ∧ x.narrow = false ∧ x.whole = true ∧ x.key = false ∧ x.odd = s.fcore.odd s.focus
        ∧ (∀ i < 16, x.mask.getLsbD i = (decide (i = j) && (decide (w.vm ≠ 2) || ok)))
        ∧ x.valid.getLsbD j = laneStands w r (fun _ => ok) j
        ∧ laneOf x.lanes j = if w.vm = 1 ∨ w.vm = 3 ∨ ok = true then r.a.lane 0 else 0

end Sys2Proof.Claims

/-- R118 to R121: each floating word computes its function on every element of its lanes under the sampled rounding mode; latencies of R116. Model's choices it rests on: notes/assumptions 15 (FEXP2 and FLOG2). -/
def Obligations.FloatWordsComputePerElement : Prop :=
  ∀ x ∈ floatWords, ∀ (w : EWord) (s : State), liveWord x.2.1 w s →
    let r := s.srcs x.2.1 w
    Delivers (exec (x.1 w) s) s x.2.2.1 w r
      (fun i => r.a.ok i && (decide (x.2.2.2.1 < 2) || r.b.ok i) && (decide (x.2.2.2.1 < 3) || r.c.ok i))
      fun i => perFloat w.ty (x.2.2.2.2 r.rm) (r.a.lane i) (r.b.lane i) (r.c.lane i)

/-- R118, R123 to R126: scaling, dot products and lane-wise conversions; latencies of R116. Model's choices it rests on: notes/assumptions 16 (nv of chunked sums). -/
def Obligations.ConversionWordsComputePerLane : Prop :=
  ∀ x ∈ mixedWords, ∀ (w : EWord) (s : State), liveWord x.2.1 w s →
    let r := s.srcs x.2.1 w
    Delivers (exec (x.1 w) s) s x.2.2.1 w r
      (fun i => r.a.ok i && (decide (x.2.2.2.1 < 2) || r.b.ok i) && (decide (x.2.2.2.1 < 3) || r.c.ok i))
      fun i => x.2.2.2.2 w r.rm (r.a.lane i) (r.b.lane i) (r.c.lane i)

/-- R127 to R131: quantizers, SCLX, DQ, NARW and WIDN compute their lanes from several source lanes; latency 2 (R116). -/
def Obligations.BlockWordsComputeAcrossLanes : Prop :=
  ∀ x ∈ blockWords, ∀ (w : EWord) (s : State), liveWord x.2.1 w s →
    let r := s.srcs x.2.1 w
    Delivers (exec (x.1 w) s) s 2 w r (x.2.2.1 w r) (x.2.2.2 w r)

namespace Sys2Proof.Claims

/-- The words with a register result that no list above names, with their latency (R96, R116, R326). -/
def accessWords : List ((EWord → Instr) × Nat × Nat) :=
  [(.eLd, 0x60, 3), (.eLdc, 0x62, 2), (.eSrd, 0x63, 1), (.eScount, 0x66, 1), (.eSdrn, 0x73, 1), (.eRdctl, 0x75, 1)]

/-- The words without a register result. -/
def silentWords : List (EWord → Instr) :=
  [.eNop, .eSteer, .eTrapif, .eSt, .eSwr, .eSskip, .eAredf, .eAredi, .eWsel, .eFeed, .eWrctl]

/-- What a void word delivers: invalid zero to a rotating register, nothing to a static or scalar one, invalid zero to its sides (R22, R94). -/
def voidResult (w : EWord) (s : State) : Result :=
  { reg := if 8 ≤ w.d.toNat ∧ w.d.toNat < 40 then .vec (physReg s.fcore.fold s.fcore.rbase w.d.toNat) else .none
    sides := (destOf s.fcore w).2.1, narrow := (destOf s.fcore w).2.2, odd := s.fcore.odd s.focus }

/-- R22, R97: a void word reads nothing; at its latency it writes invalid zero to a rotating register and nothing to a static or scalar one, and
forwards invalid zero; a void word without a register result does nothing; WLD and SMAC pass invalid zero on. -/
def VoidWordsWriteInvalidZero : Prop :=
  (∀ x ∈ resultWords ++ accessWords, ∀ (w : EWord) (s : State), s.focus.live = false →
    exec (x.1 w) s = .next (s.launchAct x.2.2 (.result (voidResult w s))))
  ∧ (∀ x ∈ silentWords, ∀ (w : EWord) (s : State), s.focus.live = false → exec (x w) s = .next s)
  ∧ ∀ (w : EWord) (s : State), s.focus.live = false →
      exec (.eWld w) s = .next (s.launchAct 1 (.result { sides := w.fwd, odd := s.fcore.odd s.focus }))
      ∧ exec (.eSmac w) s = .next ((s.launchAct 4 (.result (voidResult w s))).launchAct 1 (.result { sides := 4 }))

end Sys2Proof.Claims

/-- Words that move lanes, LANEI, and void words (R22, R97, R103 to R109). -/
def Obligations.MoveWordsPlaceLanes : Prop := MoveWordsPlaceLanesWhole ∧ LaneiInsertsOneLane ∧ VoidWordsWriteInvalidZero

/-- R94: until its result lands a word changes nothing but its own core's pipeline: every register, every other core and page, every byte of
memory and every other part of the state stay as they were. -/
def Obligations.ResultWordsKeepEverythingElse : Prop :=
  ∀ x ∈ resultWords, ∀ (w : EWord) (s t : State), s.unkeyed x.2.1 w = true ∨ s.focus.live = false → exec (x.1 w) s = .next t →
    t.offPages = s.offPages ∧ KeepsBytes s t
      ∧ (∀ p, p ≠ s.focus.page → t.page p = s.page p)
      ∧ (∀ c, c ≠ s.focus.core → t.core s.focus.page c = s.core s.focus.page c)
      ∧ t.fcore.settled = s.fcore.settled
      ∧ { t.page s.focus.page with cores := [] } = { s.page s.focus.page with cores := [] }

namespace Sys2Proof.Claims

/-- Four bytes of a memory from an address, the lowest in the low bits (R5). -/
def word32 (m : List Host.Cell) (a : Nat) : W32 := cellGet m (a + 3) ++ cellGet m (a + 2) ++ cellGet m (a + 1) ++ cellGet m a

/-- Does lane i of an LD or ST address a word that the core may touch: inside its scratchpad, aligned, in no keyed bank (R132)? -/
def spotFree (s : State) (addr : Nat) : Prop :=
  addr < (s.fcore.spWindow s.focus).1 ∧ addr % 4 = 0 ∧ s.fcore.ckb.getLsbD (((s.fcore.spWindow s.focus).2 + addr) / 65536) = false

/-- The class and code of the trap that a lane's address raises, in the order of R132; none when it raises none. -/
def spotTrap (s : State) (addr : Nat) : Option (Nat × Nat) :=
  if (s.fcore.spWindow s.focus).1 ≤ addr then some (2, 3)
  else if addr % 4 ≠ 0 then some (2, 1)
  else if s.fcore.ckb.getLsbD (((s.fcore.spWindow s.focus).2 + addr) / 65536) then some (3, 4)
  else none

/-- Effective address of lane i of LD, LDC and ST: the low 32 bits of a + b (R132). -/
def laneAddr (r : Srcs) (i : Nat) : Nat := (r.a.lane i + r.b.lane i).toNat

/-- Validity of an address lane. -/
def addrOk (r : Srcs) (i : Nat) : Bool := r.a.ok i && r.b.ok i

/-- A load: a result whose lanes with side effects hold the words at their addresses; under null and keep the others hold zero, and under setv they are
invalid and hold, where a condition on their address allows it, the word there (R21, R132, R327). Sixteen free values are used up (log 5). -/
def Loads (o : Res) (s : State) (lat : Nat) (w : EWord) (r : Srcs) (m : List Host.Cell) (base : Nat) (also : Nat → Prop) : Prop :=
  ∃ x : Result, o = .next (({ s with free := s.free + 16 } : State).launchAct lat (.result x))
    ∧ (x.reg, x.sides, x.narrow) = destOf s.fcore w ∧ x.whole = false ∧ x.key = false ∧ x.flags = 0 ∧ x.odd = s.fcore.odd s.focus
    ∧ ∀ i ∈ lanesOf w,
      x.valid.getLsbD i = laneStands w r (addrOk r) i ∧ x.mask.getLsbD i = (decide (w.vm ≠ 2) || addrOk r i)
        ∧ (laneStands w r (addrOk r) i = true ∨ (w.vm = 3 ∧ also (laneAddr r i)) → laneOf x.lanes i = word32 m (base + laneAddr r i))
        ∧ (laneStands w r (addrOk r) i = false → w.vm ≠ 3 → laneOf x.lanes i = 0)

/-- The bits of an entry's byte mask that the lanes of a word write (R136). -/
def laneBytes (f : Nat → Bool) (k : Nat) : Bool := decide (k < 64) && f (k / 4)

end Sys2Proof.Claims

namespace Sys2Proof.Claims

/-- R132, R133: LD reads the core's scratchpad as it stands at issue, four bytes a lane, little-endian; LDC reads the constant cache (R327); latencies
3 and 2. -/
def LocalLoadsDeliverTheirBytes : Prop :=
  ∀ (w : EWord) (s : State),
    (liveWord 0x60 w s → let r := s.srcs 0x60 w
      (∀ i ∈ lanesOf w, laneStands w r (addrOk r) i = true → spotFree s (laneAddr r i)) →
      Loads (exec (.eLd w) s) s 3 w r s.fcore.sp (s.fcore.spWindow s.focus).2 fun _ => False)
    ∧ (liveWord 0x62 w s → let r := s.srcs 0x62 w
      (∀ i ∈ lanesOf w, laneStands w r (addrOk r) i = true → laneAddr r i < 0x2000 ∧ laneAddr r i % 4 = 0) →
      Loads (exec (.eLdc w) s) s 2 w r s.fcore.cc 0 fun a => a < 0x2000 ∧ a % 4 = 0)

end Sys2Proof.Claims

namespace Sys2Proof.Claims

/-- R132, R133: ST gives the bytes of its lanes to the scratchpad in the cycle after issue, lane after lane, so that the highest-numbered lane of
one address stands; until then no byte and no register changes. -/
def StoreLandsInTheNextCycle : Prop :=
  ∀ (w : EWord) (s : State), liveWord 0x61 w s →
    let r := s.srcs 0x61 w
    let ok := fun i => addrOk r i && r.c.ok i
    w.vm ≠ 3 → (∀ i ∈ lanesOf w, laneStands w r ok i = true → spotFree s (laneAddr r i)) →
    ∃ cells : List Host.Cell,
      exec (.eSt w) s = .next (s.launchAct 1 (.store cells))
      ∧ cells = ((lanesOf w).filter (laneStands w r ok)).flatMap fun i => (List.range 4).map fun j =>
          ((s.fcore.spWindow s.focus).2 + laneAddr r i + j, (r.c.lane i).extractLsb' (8 * j) 8)

end Sys2Proof.Claims

namespace Sys2Proof.Claims

/-- The class and code of the trap that a lane of LDC raises (R327). -/
def constantTrap (addr : Nat) : Option (Nat × Nat) := if 0x2000 ≤ addr then some (2, 9) else if addr % 4 ≠ 0 then some (2, 1) else none

/-- R132, R327: an LD, ST or LDC lane that takes part and addresses past its memory, off a multiple of 4, or a keyed bank raises the trap of its first
failing check; the lowest such lane is recorded with its address, nothing is delivered and nothing stored. -/
def LocalAccessTrapsAtTheLowestLane : Prop :=
  ∀ (w : EWord) (s : State) (i cls code : Nat), i ∈ lanesOf w →
    (liveWord 0x60 w s → let r := s.srcs 0x60 w
      laneStands w r (addrOk r) i = true → spotTrap s (laneAddr r i) = some (cls, code) →
      (∀ j < i, laneStands w r (addrOk r) j = true → spotTrap s (laneAddr r j) = none) →
      exec (.eLd w) s = .next (s.elemTrap cls code i (some (BitVec.ofNat 64 (laneAddr r i)))))
    ∧ (liveWord 0x62 w s → let r := s.srcs 0x62 w
      laneStands w r (addrOk r) i = true → constantTrap (laneAddr r i) = some (cls, code) →
      (∀ j < i, laneStands w r (addrOk r) j = true → constantTrap (laneAddr r j) = none) →
      exec (.eLdc w) s = .next (s.elemTrap cls code i (some (BitVec.ofNat 64 (laneAddr r i)))))
    ∧ (liveWord 0x61 w s → w.vm ≠ 3 → let r := s.srcs 0x61 w
      let ok := fun i => addrOk r i && r.c.ok i
      laneStands w r ok i = true → spotTrap s (laneAddr r i) = some (cls, code) →
      (∀ j < i, laneStands w r ok j = true → spotTrap s (laneAddr r j) = none) →
      exec (.eSt w) s = .next (s.elemTrap cls code i (some (BitVec.ofNat 64 (laneAddr r i)))))

end Sys2Proof.Claims

/-- Loads and stores of a core in its scratchpad and constant cache (R132, R133, R327). Model's choices it rests on: notes/assumptions 80 (a lane that makes no access holds a free value). -/
def Obligations.LocalAccessesReachTheirBytes : Prop := LocalLoadsDeliverTheirBytes ∧ StoreLandsInTheNextCycle ∧ LocalAccessTrapsAtTheLowestLane

namespace Sys2Proof.Claims

/-- R135 to R138: SRD takes the oldest entry of its input port, and delivers invalid zero when there is none; SWR pushes one entry whose written bytes
are those of its standing lanes; SSKIP moves a port by n entries; SCOUNT delivers the port's status byte, valid. -/
def StreamWordsMoveEntries : Prop :=
  ∀ (w : EWord) (s : State), s.focus.live = true →
    let p := s.focus.page
    let n := w.a.toNat
    (s.unkeyed 0x63 w = true →
      ((s.port p n).fifo = [] → exec (.eSrd w) s = .next (s.issue 0x63 w 0 0 0xFFFF 0))
      ∧ ∀ e rest, (s.port p n).fifo = e :: rest →
          let x : Srcs := { a := e.lanes, b := {}, c := s.src w.c, rm := 0 }
          ∃ r : Result, r.carries (s.portPop p n).2 w x e.lanes.ok (fun i => (laneOf e.data i, 0)) ∧
            exec (.eSrd w) s = .next ((s.portPop p n).2.launchAct 1 (.result r)))
    ∧ (s.unkeyed 0x64 w = true → ∃ mask : W64,
        (∀ k < 64, mask.getLsbD k = laneBytes (laneStands w (s.srcs 0x64 w) (s.srcs 0x64 w).b.ok) k)
        ∧ exec (.eSwr w) s = .next (s.portPush p n (s.srcs 0x64 w).b.lanes mask false))
    ∧ exec (.eSskip w) s = .next (if (s.port p n).out then s.portSkips p n (fld ((s.src w.b).lane 0) 5 0) else s.portPops p n (fld ((s.src w.b).lane 0) 5 0))
    ∧ ∃ r : Result, exec (.eScount w) s = .next (s.launchAct 1 (.result r)) ∧ (r.reg, r.sides, r.narrow) = destOf s.fcore w
        ∧ ∀ i ∈ lanesOf w, laneOf r.lanes i = BitVec.ofNat 32 ((s.page p).portStatus s.cycle n) ∧ r.valid.getLsbD i = true ∧ r.mask.getLsbD i = true

end Sys2Proof.Claims

namespace Sys2Proof.Claims

/-- The reduction words: constructor, opcode, bytes of a target, whether it is a cell (R328). -/
def reductionWords : List ((EWord → Instr) × Nat × Nat × Bool) := [(.eAredf, 0x67, 16, true), (.eAredi, 0x68, 4, false)]

/-- R328, R329: AREDF and AREDI check the target of every standing lane in the issue cycle; with no trap they queue one entry for each, in lane order,
addressed relative to the task's lease, and give back the sixteen places that were reserved; else the lowest refused lane traps and nothing is queued. -/
def ReductionWordsQueueTheirLanes : Prop :=
  ∀ x ∈ reductionWords, ∀ (w : EWord) (s : State) (t : Task), s.owner s.focus.page = some t → liveWord x.2.1 w s →
    let r := s.srcs x.2.1 w
    let target := fun i => t.rcd.lbase + (r.a.lane i).setWidth 64
    let place := fun i => s.redPlace t s.focus.page (target i) x.2.2.1
    (∀ at_ : Nat → Loc, (∀ i < 16, laneStands w r (addrOk r) i = true → place i = .ok (at_ i)) →
      exec (x.1 w) s = .next (s.modCore s.focus.page s.focus.core fun k =>
        { k with redResv := k.redResv - 16
                 redq := k.redq ++ ((List.range 16).filter (laneStands w r (addrOk r))).map fun i =>
                   ({ va := target i, loc := at_ i, cell := x.2.2.2, ty := if x.2.2.2 then w.ty.toNat else 0, addends := [r.b.lane i] } : RedEntry) }))
    ∧ ∀ i cls code, i < 16 → laneStands w r (addrOk r) i = true → place i = .error (cls, code) →
        (∀ j < i, laneStands w r (addrOk r) j = true → ∃ l, place j = .ok l) →
        exec (x.1 w) s = .next (s.elemTrap cls code i (some (s.resolve (s.who t s.focus.page).home (target i))))

end Sys2Proof.Claims

/-- The stream and reduction words of a core (R135 to R138, R328). -/
def Obligations.QueueWordsMoveEntries : Prop := StreamWordsMoveEntries ∧ ReductionWordsQueueTheirLanes

namespace Sys2Proof.Claims

/-- R141 to R143, R150, R223: WLD writes a weight register of the bank that wsel does not select when every lane of a is valid, and passes a's value,
key flag and source on; a WLD of the selected bank traps; WSEL flips wsel in the next cycle, and traps while a fill is partly delivered. -/
def WeightWordsFillTheInactiveBank : Prop :=
  ∀ (w : EWord) (s : State), s.focus.live = true →
    let a := w.a.toNat
    let l : LinkIn := if 40 ≤ a ∧ a < 44 then s.fcore.lin.getD (s.fcore.side s.focus (a - 40)) {} else { v := s.src w.a }
    let passed := s.launchAct 1
      (.result { lanes := l.v.lanes, valid := l.v.valid, sides := w.fwd, key := l.key, src := l.src, odd := s.fcore.odd s.focus })
    ((8 ≤ w.d.toNat ↔ s.fcore.wsel = false) → w.d.toNat < 16 →
      exec (.eWld w) s = .next (if l.v.valid = 0xFFFF then passed.launchAct 1 (.weight w.d.toNat l.v.lanes l.key) else passed))
    ∧ ((8 ≤ w.d.toNat ↔ s.fcore.wsel = true) → w.d.toNat < 16 → exec (.eWld w) s = .next (passed.elemTrap 1 8))
    ∧ exec (.eWsel w) s = .next (if 1 ≤ s.fcore.got.length ∧ s.fcore.got.length ≤ 7 then s.elemTrap 1 9 else s.launchAct 1 .wsel)

end Sys2Proof.Claims

namespace Sys2Proof.Claims

/-- R145, R218: with both activation lanes valid, SMAC merges each column's chunk of its cell into b under the page's semiring; with one invalid it
passes b on; its result takes four cycles and a's lanes go south in one; columns past the type's are zero. On core 0 with lW as a it first takes the oldest
segment of the feed row into lW. -/
def SmacMergesOneChunkPerColumn : Prop :=
  ∀ (w : EWord) (s0 : State),
    let p := s0.focus.page
    let s := if s0.focus.core = 0 ∧ w.a = 43 then s0.feedPop p else s0
    s0.focus.live = true → liveWord 0x72 w s →
    let k := s.fcore
    let a := s.src w.a
    let edge := decide (40 ≤ w.b.toNat ∧ w.b.toNat < 44) && !s.matrixBeyond p (w.b.toNat - 40) s.focus.core
    let b := if edge then bcast (ringIdentity (s.page p).ring) true else s.src w.b
    let wt := (k.w.getD (8 * k.wsel.toNat + s.wimm.toNat % 8) {}).val
    let cols := if w.ty = 7 then 8 else 4
    let on := a.ok 0 && a.ok 1
    ∃ r : Result,
      exec (.eSmac w) s0 = .next ((s.launchAct 4 (.result r)).launchAct 1 (.result { lanes := a.lanes, valid := a.valid, sides := 4 }))
      ∧ (r.reg, r.sides, r.narrow) = destOf k w ∧ r.mask = 0xFFFF
      ∧ ∀ n < 16, laneOf r.lanes n =
          (if cols ≤ n then 0
           else if on then (mergeChunk (s.page p).ring w.ty.toNat k.rm (b.lane n) (cellPairs w.ty.toNat k.f4 a.lanes wt n)).1
           else b.lane n)
        ∧ r.valid.getLsbD n = (on && b.ok (if cols ≤ n then 0 else n))

end Sys2Proof.Claims

namespace Sys2Proof.Claims

/-- R146, R147, R218, R220: SDRN delivers a and, on a general page with lane 0 valid, pushes one entry on sp7; on a matrix page it lays the columns of a
valid a into the drain record of its row tag, which core 7's SDRN makes ready; FEED appends one segment, which counts two cycles later, to the feed row of
the matrix page of its core's number. -/
def DrainAndFeedMoveColumns : Prop :=
  ∀ (w : EWord) (s : State), s.focus.live = true →
    (s.unkeyed 0x73 w = true →
      let a := s.src w.a
      let p := s.focus.page
      let s1 := s.issue 0x73 w a.lanes a.valid 0xFFFF 0
      ((s.page p).mode = false → ∃ mask : W64, (∀ k < 64, mask.getLsbD k = laneBytes a.ok k)
        ∧ exec (.eSdrn w) s = .next (if a.ok 0 then s1.portPush p 7 a.lanes mask false else s1))
      ∧ ((s.page p).mode = true →
          let cols := if s.fcore.opType = 7 then 8 else 4
          let mine := fun (x : Drain) => decide (x.tag = s.focus.tag ∧ x.ready = none)
          let old : Drain := ((s1.page p).drains.find? mine).getD { tag := s.focus.tag }
          ∃ d : Drain, d.tag = old.tag ∧ (s.focus.core = 7 → d.ready = some s.cycle) ∧ (s.focus.core ≠ 7 → d.ready = old.ready)
            ∧ (a.ok 0 = false → d.data = old.data ∧ d.mask = old.mask)
            ∧ (a.ok 0 = true → d.mask = old.mask ||| (BitVec.ofNat 256 (2 ^ (4 * cols) - 1) <<< (4 * cols * s.focus.core))
                ∧ d.data = old.data ||| (a.lanes.setWidth 2048 &&& BitVec.ofNat 2048 (2 ^ (32 * cols) - 1)) <<< (32 * cols * s.focus.core))
            ∧ exec (.eSdrn w) s = .next (s1.modPage p fun pg => { pg with drains := pg.drains.filter (fun x => !mine x) ++ [d] })))
    ∧ (s.unkeyed 0x74 w = true → ∀ t q, s.owner s.focus.page = some t → s.matrixPage t s.focus.core = some q →
        let r := s.srcs 0x74 w
        if w.vm = 1 ∨ (r.a.ok 0 = true ∧ r.a.ok 1 = true) then
          ∃ g : Seg, g.valid = true ∧ g.from_ = s.cycle + 2 ∧ g.mark = none
            ∧ g.data = (if w.ty = 7 then ((r.a.lane 1).setWidth 16).setWidth 32 ++ r.a.lane 0 else r.a.lane 1 ++ r.a.lane 0)
            ∧ exec (.eFeed w) s = .next (s.modPage q fun pg => { pg with feed := pg.feed ++ [g], feedSpace := pg.feedSpace - 1 })
        else exec (.eFeed w) s = .next (s.modPage q fun pg => { pg with feedSpace := pg.feedSpace - 1 }))

end Sys2Proof.Claims

/-- The weight, matrix, drain and feed words (R141 to R147, R218, R220, R223). Model's choices it rests on: notes/assumptions 28, 29 (what a trapping WLD forwards; from when a segment counts). -/
def Obligations.MatrixWordsFeedAndDrainTheColumns : Prop := WeightWordsFillTheInactiveBank ∧ SmacMergesOneChunkPerColumn ∧ DrainAndFeedMoveColumns

/-- R102, R112, R114, R140, R355: NOP does nothing; STEER sends its condition on the region's return path when it acts; TRAPIF traps at its lowest nonzero standing lane and
otherwise does nothing; RDCTL delivers a control register, its high word in lane 1 of a vector; WRCTL writes one in the next cycle. -/
def Obligations.ControlWordsOfACore : Prop :=
  ∀ (w : EWord) (s : State), s.focus.live = true →
    exec (.eNop w) s = .next s
    ∧ (s.unkeyed 0x2D w = true → w.vm ≠ 2 → ∀ t, s.owner s.focus.page = some t →
        let r := s.srcs 0x2D w
        exec (.eSteer w) s = .next (if laneStands w r r.a.ok 0 then
            s.modTask t.tid fun t => { t with steers := t.steers ++
              [{ at_ := s.cycle, skew := s.focus.core + t.delta.getD (s.page s.focus.page).rp 0, cond := decide (r.a.lane 0 ≠ 0) }] }
          else s))
    ∧ (s.unkeyed 0x2E w = true → w.vm ≠ 2 →
        let r := s.srcs 0x2E w
        let fires := fun i => laneStands w r r.a.ok i && decide (r.a.lane i ≠ 0)
        ((∀ i < 16, fires i = false) → exec (.eTrapif w) s = .next s)
        ∧ ∀ i < 16, fires i = true → (∀ j < i, fires j = false) → exec (.eTrapif w) s = .next (s.elemTrap 1 2 i none ((r.a.lane i).setWidth 128)))
    ∧ (∃ r : Result, exec (.eRdctl w) s = .next (s.launchAct 1 (.result r)) ∧ (r.reg, r.sides, r.narrow) = destOf s.fcore w
        ∧ laneOf r.lanes 0 = (s.ctlReg s.focus.page s.focus.core w.a.toNat).setWidth 32 ∧ r.valid.getLsbD 0 = true
        ∧ (isScalar w = false → laneOf r.lanes 1 = (s.ctlReg s.focus.page s.focus.core w.a.toNat).extractLsb' 32 32 ∧ r.valid = 0xFFFF))
    ∧ (s.unkeyed 0x76 w = true → (w.vm = 0 ∨ w.vm = 3) →
        let r := s.srcs 0x76 w
        let one := oneWord w.b.toNat
        let acts := if w.vm = 3 then decide (r.c.lane 0 ≠ 0) else r.b.ok 0 && (one || r.b.ok 1)
        exec (.eWrctl w) s = .next (if acts then s.launchAct 1 (.ctl w.a.toNat ((if one then 0 else r.b.lane 1) ++ r.b.lane 0)) else s))

namespace Sys2Proof.Claims

/-- R149: a live word other than WLD with a link operand that holds a keyed beat raises trap(protection, keyed_access) besides its effect, which sees
invalid zero in its place. -/
def KeyedLinkOperandsTrap : Prop :=
  ∀ (op : Nat) (w : EWord) (s : State), s.focus.live = true → s.unkeyed op w = false →
    s.keyCheck op w = s.elemTrap 3 5
    ∧ ∀ n < 4, (s.fcore.lin.getD (s.fcore.side s.focus n) {}).key = true → s.src (BitVec.ofNat 6 (40 + n)) = {}

end Sys2Proof.Claims

namespace Sys2Proof.Claims

/-- R68, R69, R14: what each operand code reads in a live word: registers under rotation, links, tokens, scalars, the wave immediate of the wave word in
focus (notes/assumptions 84), the lane numbers, the row tag, zero and the constants; one-word sources reach every lane. -/
def OperandCodesReadTheirSources : Prop :=
  ∀ (s : State) (n : Nat), s.focus.live = true →
    let k := s.fcore
    let f := s.focus
    (n < 8 → s.src (BitVec.ofNat 6 n) = k.v.getD n {})
    ∧ (n < 32 → k.fold = false → s.src (BitVec.ofNat 6 (8 + n)) = k.v.getD (8 + (n + k.rbase.toNat) % 32) {})
    ∧ (n < 4 → (k.lin.getD (k.side f n) {}).key = false → s.src (BitVec.ofNat 6 (40 + n)) = (k.lin.getD (k.side f n) {}).v)
    ∧ (n < 4 → ∀ i < 16, (s.src (BitVec.ofNat 6 (44 + n))).lane i = (k.qin.getD (k.side f n) {}).val
        ∧ (s.src (BitVec.ofNat 6 (44 + n))).ok i = (k.qin.getD (k.side f n) {}).valid)
    ∧ (n < 8 → ∀ i < 16, (s.src (BitVec.ofNat 6 (48 + n))).lane i = ((k.s.getD n {}).val).setWidth 32
        ∧ (s.src (BitVec.ofNat 6 (48 + n))).ok i = (k.s.getD n {}).valid)
    ∧ (∀ i < 16, (s.src 56).lane i = f.wimm ∧ (s.src 57).lane i = BitVec.ofNat 32 i ∧ (s.src 58).lane i = f.tag.setWidth 32 ∧ (s.src 59).lane i = 0)
    ∧ ((s.src 56).valid = 0xFFFF ∧ (s.src 57).valid = 0xFFFF ∧ (s.src 58).valid = 0xFFFF ∧ (s.src 59).valid = 0xFFFF)
    ∧ (n < 4 → s.src (BitVec.ofNat 6 (60 + n)) = { lanes := k.k.getD n 0, valid := 0xFFFF })

end Sys2Proof.Claims

/-- Operand codes read their sources, and a keyed beat is read by no word but WLD (R68, R69, R149). -/
def Obligations.OperandsReadTheirSources : Prop := KeyedLinkOperandsTrap ∧ OperandCodesReadTheirSources

namespace Sys2Proof.Claims

/-- R94, R28, R11: a result that lands changes the lanes of its mask in its register and joins its flags to cfr bits 12:8; the other lanes, registers and
memories of the core keep their values; a scalar result keeps bits 63:32. -/
def LandingsWriteTheirLanes : Prop :=
  ∀ (k : Core) (r : Result),
    (k.landReg r).cfr = k.cfr ||| ((r.flags.setWidth 32) <<< 8)
    ∧ (k.landReg r).sp = k.sp ∧ (k.landReg r).k = k.k ∧ (k.landReg r).w = k.w ∧ (k.landReg r).m = k.m ∧ (k.landReg r).flight = k.flight
    ∧ (r.reg = .none → (k.landReg r).v = k.v ∧ (k.landReg r).s = k.s)
    ∧ (∀ n, r.reg = .vec n → (k.landReg r).s = k.s ∧ (∀ m, m ≠ n → (k.landReg r).v.getD m {} = k.v.getD m {})
        ∧ (n < k.v.length → ∀ i < 16,
            ((k.landReg r).v.getD n {}).lane i = (if r.mask.getLsbD i then laneOf r.lanes i else (k.v.getD n {}).lane i)
            ∧ ((k.landReg r).v.getD n {}).ok i = (if r.mask.getLsbD i then r.valid.getLsbD i else (k.v.getD n {}).ok i)))
    ∧ (∀ n, r.reg = .scal n → (k.landReg r).v = k.v ∧ (∀ m, m ≠ n → (k.landReg r).s.getD m {} = k.s.getD m {})
        ∧ (n < k.s.length → r.mask.getLsbD 0 = true →
            ((k.landReg r).s.getD n {}).val.extractLsb' 0 32 = laneOf r.lanes 0
            ∧ ((k.landReg r).s.getD n {}).val.extractLsb' 32 32 = (k.s.getD n {}).val.extractLsb' 32 32
            ∧ ((k.landReg r).s.getD n {}).valid = r.valid.getLsbD 0))

end Sys2Proof.Claims

namespace Sys2Proof.Claims

/-- R27, R28, R33: a control write that lands sets cfr's rm, f4 and flag bits and no reserved bit; it sets mprog's low 40 bits, but not while the core runs a
macro; ckb, spst, kprog and eprog take no write. -/
def ControlWritesKeepReservedBits : Prop :=
  ∀ (k : Core) (x : W64) (i : Nat),
    (k.landCtl 0 x).cfr = x.setWidth 32 &&& 0x1F07
    ∧ (k.busy = false → (k.landCtl 3 x).mprog = x &&& 0xFFFFFFFFFF) ∧ (k.busy = true → k.landCtl 3 x = k)
    ∧ (i ≠ 0 → i ≠ 3 → k.landCtl i x = k)

end Sys2Proof.Claims

/-- What a result and a control write change when they land (R11, R27, R28, R33, R94). -/
def Obligations.LandingsAndControlWritesChangeOnlyTheirFields : Prop := ControlWritesKeepReservedBits ∧ LandingsWriteTheirLanes

namespace Sys2Proof.Claims

/-! ## Sequencer words -/

/-- Operand b of a sequencer word: imm sign-extended when mod bit 0 is set, else xb (R75, R154). -/
def operB (w : SWord) (s : State) : W64 := if w.mod.getLsbD 0 then w.imm.signExtend 64 else s.fpage.xr w.xb

/-- The word stands at the program counter of the page in focus. -/
def standsAt (i : Instr) (s : State) : Prop := encode i = some (.seq s.fpage.word)

/-- The word completes in this cycle with a change of its page, and nothing else happens (R151). -/
def Completes (o : Res) (s : State) (f : Page → Page) : Prop :=
  o = .next (s.modPage s.focus.page fun pg => (f pg).complete)

/-- One-cycle scalar words: constructor and value of xd (R154). -/
def scalarWords : List ((SWord → Instr) × (SWord → State → W64)) :=
  [(.sXli, fun w s => operB w s),
   (.sXlih, fun w s => w.imm ++ (s.fpage.xr w.xa).extractLsb' 0 32),
   (.sXadd, fun w s => s.fpage.xr w.xa + operB w s),
   (.sXsub, fun w s => s.fpage.xr w.xa - operB w s),
   (.sXand, fun w s => s.fpage.xr w.xa &&& operB w s),
   (.sXior, fun w s => s.fpage.xr w.xa ||| operB w s),
   (.sXxor, fun w s => s.fpage.xr w.xa ^^^ operB w s),
   (.sXshl, fun w s => s.fpage.xr w.xa <<< (operB w s &&& 63)),
   (.sXshr, fun w s => s.fpage.xr w.xa >>> (operB w s &&& 63)),
   (.sXsra, fun w s => (s.fpage.xr w.xa).sshiftRight' (operB w s &&& 63)),
   (.sXmin, fun w s =>
      let a := s.fpage.xr w.xa
      let b := operB w s
      if (if w.mod.getLsbD 3 then b.ult a else b.slt a) then b else a),
   (.sXmax, fun w s =>
      let a := s.fpage.xr w.xa
      let b := operB w s
      if (if w.mod.getLsbD 3 then a.ult b else a.slt b) then b else a),
   (.sXslt, fun w s => if (if w.mod.getLsbD 3 then (s.fpage.xr w.xa).ult (operB w s) else (s.fpage.xr w.xa).slt (operB w s)) then 1 else 0),
   (.sXsel, fun w s => if s.fpage.xr (w.imm.extractLsb' 0 5) = 0 then s.fpage.xr w.xb else s.fpage.xr w.xa)]

/-- The checked bytes of a sequencer's read at an address: state after the read, latency and bytes (R331). -/
def seqRead (s : State) (t : Task) (va : W64) (ps : List (Loc × Nat × Option PotE)) : State × Nat × List Byte :=
  let a := s.touchL1 t s.focus.page 0 va ps
  let b := a.1.readPlaces t (t.windex s.fpage.vrp 0) s.fpage.vrp seqReader ps
  (b.2, a.2, b.1)

/-- The page waits for its data until a cycle and then writes xd (R331). -/
def Awaits (o : Res) (s : State) (lat : Nat) (xd : Option (BitVec 5 × W64)) : Prop :=
  o = .next (s.modPage s.focus.page fun pg => { pg with phase := .mem (s.cycle + max 1 lat) xd, since := s.cycle })

/-- The page holds until a cycle; what the word does happens then (R152). -/
def Lands (o : Res) (s : State) (lat : Nat) (act : SeqLand) : Prop :=
  o = .next (s.modPage s.focus.page fun pg => { pg with phase := .land (s.cycle + max 1 lat) act, since := s.cycle })

/-- The trap of a sequencer access that is refused (R304, R373). -/
def deniedAt (s : State) (t : Task) (e : Deny) (va : W64) : State :=
  s.seqTrap s.focus.page e.cls e.code (some (s.resolve (s.who t s.focus.page).home va))

/-- The checks of a sequencer's read of n bytes, through core 0's L1, and of its write (R304, R331). -/
def readCheck (s : State) (t : Task) (va : W64) (n : Nat) : Except Deny (List (Loc × Nat × Option PotE)) :=
  s.elemAccess t (s.who t s.focus.page) .read false va n n none (some { cls := 3, code := 5 }) false (some (s.focus.page, 0))

def writeCheck (s : State) (t : Task) (va : W64) (n : Nat) : Except Deny (List (Loc × Nat × Option PotE)) :=
  s.elemAccess t (s.who t s.focus.page) .write true va n n none (some { cls := 3, code := 4 })

/-- What the sequencer of a page owns of a place: a scratchpad of its own page (R280, R331). -/
def seqOwns (s : State) (l : Loc) : Nat × Nat :=
  (s.fpage.vrp, match l with
    | .sp _ c _ => c
    | _ => 0)

/-- An access width of XLD, XST and the atomics in bytes: 1, 2, 4 or 8 by mod bits 2:1 (R155, R330). -/
def widthOf (w : SWord) : Nat := 2 ^ fld w.mod 2 1

/-- The tile macros with their opcodes (R176). -/
def macroWords : List ((SWord → Instr) × Nat) :=
  [(.sTld, 0x40), (.sTst, 0x41), (.sTkld, 0x42), (.sTwld, 0x43), (.sTmma, 0x44), (.sTmms, 0x45), (.sTgath, 0x46), (.sTscat, 0x47), (.sTxp, 0x48),
   (.sTcvt, 0x49), (.sTqnt, 0x4A), (.sTred, 0x4B), (.sTew, 0x4C), (.sTfill, 0x4D), (.sTsmx, 0x4E), (.sTnrm, 0x4F)]

/-- The data commands of the engines with their opcodes (R354). -/
def engineWords : List ((SWord → Instr) × Nat) :=
  [(.sEcopy, 0x70), (.sEgath, 0x71), (.sEscat, 0x72), (.sEfill, 0x73), (.sEcollSum, 0x74), (.sEcollGather, 0x74), (.sEcollBcast, 0x74),
   (.sEcryptEnc, 0x75), (.sEcryptDec, 0x75)]

/-- The words and registers that a copy of a macro word works with. -/
def macroRecOf (s : State) (w : SWord) : MacroRec :=
  { word := s.fpage.word, xa := s.fpage.xr w.xa, xb := s.fpage.xr w.xb, xd := s.fpage.xr w.xd }

/-- The record that a copy keeps for its resume: TFILL, TSMX and TNRM take the value of xa, the others its address as a record keeps it (R386). -/
def macroKept (s : State) (t : Task) (op : Nat) (w : SWord) : MacroRec :=
  { macroRecOf s w with
    xa := if op = 0x4D ∨ op = 0x4E ∨ op = 0x4F then s.fpage.xr w.xa else s.keepAddr (s.who t s.focus.page).home (s.fpage.xr w.xa) }

end Sys2Proof.Claims

/-- R154, R75, R151: a scalar word writes its value to xd in one cycle and completes; XMUL writes the low 64 bits of the product in its third cycle. -/
def Obligations.ScalarWordsWriteTheirResult : Prop :=
  (∀ x ∈ scalarWords, ∀ (w : SWord) (s : State), s.fpage.phase = .ready →
    Completes (exec (x.1 w) s) s fun pg => pg.setX w.xd (x.2 w s))
  ∧ ∀ (w : SWord) (s : State),
    (s.fpage.phase = .ready → exec (.sXmul w) s = .next (s.modPage s.focus.page fun pg => { pg with phase := .until (s.cycle + 2) }))
    ∧ ∀ c, s.fpage.phase = .until c →
        (c ≤ s.cycle → Completes (exec (.sXmul w) s) s fun pg => pg.setX w.xd (s.fpage.xr w.xa * operB w s))
        ∧ (s.cycle < c → exec (.sXmul w) s = .next s)

namespace Sys2Proof.Claims

/-- R12: x0 reads zero and takes no write; a write of another register is read back and leaves every other register as it was. -/
def XRegistersReadWhatWasWritten : Prop :=
  ∀ (pg : Page) (n m : BitVec 5) (v : W64),
    pg.xr 0 = 0 ∧ pg.setX 0 v = pg
    ∧ (n ≠ 0 → pg.x.length = 32 → (pg.setX n v).xr n = v)
    ∧ (m ≠ n → (pg.setX n v).xr m = pg.xr m)
    ∧ { pg.setX n v with x := pg.x } = pg

end Sys2Proof.Claims

namespace Sys2Proof.Claims

/-- R151, R156, R175: after a word the next one issues; at the last word of a repeated body the count falls and the body starts again while more than one
repetition is left, else the entry is dropped and the body around it is stepped. -/
def CompletionStepsTheRepeatStack : Prop :=
  ∀ (pg : Page), pg.complete.phase = .ready
    ∧ (pg.rep = [] → pg.complete.rep = [] ∧ pg.complete.pc = BitVec.ofNat 11 (pg.pc.toNat + 1))
    ∧ ∀ e r, pg.rep = e :: r →
        (e.last ≠ pg.pc.toNat → pg.complete.rep = pg.rep ∧ pg.complete.pc = BitVec.ofNat 11 (pg.pc.toNat + 1))
        ∧ (e.last = pg.pc.toNat → 1 < e.left →
            pg.complete.rep = { e with left := e.left - 1 } :: r ∧ pg.complete.pc = BitVec.ofNat 11 e.first)
        ∧ (e.last = pg.pc.toNat → e.left ≤ 1 →
            pg.complete.rep = ({ pg with rep := r }).complete.rep ∧ pg.complete.pc = ({ pg with rep := r }).complete.pc)

end Sys2Proof.Claims

/-- x registers and the repeat stack (R12, R151, R156, R175). -/
def Obligations.SequencerRegistersAndRepeats : Prop := XRegistersReadWhatWasWritten ∧ CompletionStepsTheRepeatStack

namespace Sys2Proof.Claims

/-- R155, R304, R331: XLD reads W bits at xa + b and holds until its data return, sign-extended unless u; XST takes its version sectors and holds until the low W
bits of the register that xd names are written; a refused access raises its trap with its address and does nothing else, and without a sector version_overflow. -/
def SequencerAccesses : Prop :=
  ∀ (w : SWord) (s : State) (t : Task), s.owner s.focus.page = some t → s.fpage.phase = .ready →
    let va := s.fpage.xr w.xa + operB w s
    let n := widthOf w
    let who := s.who t s.focus.page
    let sectors := fun (ps : List (Loc × Nat × Option PotE)) => s.takeSectors t (ps.flatMap fun x => sectorsOf t (seqOwns s x.1) [x])
    (∀ ps, readCheck s t va n = .ok ps →
      let r := seqRead s t va ps
      Awaits (exec (.sXld w) s) r.1 (max 3 r.2.1)
        (some (w.xd, if w.mod.getLsbD 3 then BitVec.ofNat 64 (leNat r.2.2) else BitVec.ofInt 64 (sx (8 * n) (leNat r.2.2)))))
    ∧ (∀ e, readCheck s t va n = .error e → exec (.sXld w) s = .next (deniedAt s t e va))
    ∧ (∀ ps s1, writeCheck s t va n = .ok ps → sectors ps = some s1 →
      Lands (exec (.sXst w) s) (s1.noteWalks who va n).1 ((s1.noteWalks who va n).2 + max 3 (s.acceptLat t s.focus.page 0 va ps))
        (.write (ps.map fun x => (x.1, x.2.1)) (leBytes n ((s.fpage.xr w.xd).toNat % 2 ^ (8 * n)))))
    ∧ (∀ ps, writeCheck s t va n = .ok ps → sectors ps = none →
      exec (.sXst w) s = .next (deniedAt (s.countVofl t.part) t { cls := 2, code := 6 } va))
    ∧ (∀ e, writeCheck s t va n = .error e → exec (.sXst w) s = .next (deniedAt s t e va))

/-- R152, R331, R372: DATA_RETURN of a page does nothing before its data are due or on a page that a trap has frozen; then it writes the register of a load, or
stores, installs or fills what the word holds, and the word completes; the next word issues in the next cycle. -/
def DataReturnsToThePage : Prop :=
  ∀ (s : State) (p due : Nat), s.focus.ev = .dataReturn (.page p) →
    let after := fun (pg : Page) => ({ pg.complete with phase := .after } : Page)
    let stopped := (s.page p).frozen = true ∧ ∃ t, s.owner p = some t ∧ s.trapped t = true
    (∀ xd, (s.page p).phase = .mem due xd →
      (s.cycle < due ∨ stopped → exec .vDataReturn s = .next s)
      ∧ (due ≤ s.cycle → ¬ stopped → exec .vDataReturn s = .next (s.modPage p fun pg => after (match xd with
          | some (r, v) => pg.setX r v
          | none => pg))))
    ∧ ∀ act t, (s.page p).phase = .land due act → s.owner p = some t →
      (s.cycle < due ∨ stopped → exec .vDataReturn s = .next s)
      ∧ (due ≤ s.cycle → ¬ stopped →
          (∀ ps bs, act = .write ps bs → exec .vDataReturn s = .next ((s.seqWrite t p ps bs).modPage p after))
          ∧ (∀ n k pat, act = .install n k pat → exec .vDataReturn s =
              .next ((s.modPort p n fun x => x.setWin k { pat := pat, fresh := true }).modPage p after))
          ∧ ∀ line data, act = .fill line data → exec .vDataReturn s =
              .next ((data.foldl (fun s x => s.modCore p x.1 fun k => { k with cc := cellsWrite k.cc (64 * line) x.2 }) s).modPage p after))

/-- R307, R309, R331: what an XST gives to one place when it lands: in a scratchpad of its own page its bytes are written at once, in another scratchpad and in
translated memory they wait in the task's version under writer slot 0; every byte of HBM stays as it was. -/
def XstLandsInItsPlace : Prop :=
  ∀ (s : State) (t : Task) (p : Nat) (l : Loc) (bs : List Byte),
    let u := s.seqWrite t p [(l, bs.length)] bs
    u.hbm = s.hbm ∧ u.peer = s.peer
    ∧ (∀ c off q, l = .sp (s.page p).vrp c off → t.holds (s.page p).vrp = some q → (s.core q c).fresh = [] → c < (s.page q).cores.length →
        Memory.wf (s.core q c).sp = true → ∀ i < bs.length, cellGet (u.core q c).sp (t.spOff (s.page p).vrp off + i) = bs.getD i 0)
    ∧ ∀ d pa, l = .hbm d pa → s.task t.tid = some t → (∀ x ∈ t.ver, x.ord ≤ s.ordNow 3) →
        ∃ v, u.task t.tid = some v ∧ ∀ i < bs.length, ∃ c ∈ v.ver, c.loc = .hbm d (pa + i) ∧ c.w = t.windex (s.page p).vrp 0 ∧ c.val = bs.getD i 0

end Sys2Proof.Claims

/-- The loads and stores of a sequencer, and how they end (R152, R155, R304, R307, R331, R372). Model's choices it rests on: notes/assumptions 4 (latencies). -/
def Obligations.SequencerLoadsAndStores : Prop := SequencerAccesses ∧ DataReturnsToThePage ∧ XstLandsInItsPlace

/-- R156, R161, R162, R163, R164, R165: REP pushes its body with a count, or passes it when the count is 0 and steps the bodies that end with it; KSW sets a wave
immediate (of a folded page the one in its physical slot); YIELD completes, and when asked sends a wave word with the yield bit and yields; HALT parks the page with
its code once no macro runs, the code of region page 0 being the task's exit code; TRAP raises trap(program, user) with its code; NOPQ holds for max(1, n) cycles,
changes nothing and completes. -/
def Obligations.ControlWordsOfASequencer : Prop :=
  ∀ (w : SWord) (s : State),
    let p := s.focus.page
    (let n := if w.mod.getLsbD 0 then fld w.imm 31 10 else fld (s.fpage.xr w.xa) 31 0
     let len := fld w.imm 9 0
     (n ≠ 0 → exec (.sRep w) s = .next (s.modPage p fun pg =>
       { pg with rep := { first := pg.pc.toNat + 1, last := pg.pc.toNat + len, left := n } :: pg.rep
                 pc := BitVec.ofNat 11 (pg.pc.toNat + 1), phase := .ready }))
     ∧ (n = 0 → s.fpage.pc.toNat + len < 2048 → exec (.sRep w) s = .next (s.modPage p fun pg =>
         ({ pg with pc := BitVec.ofNat 11 (pg.pc.toNat + len) } : Page).complete)))
    ∧ (let n := fld w.imm 5 0
       let entry := if (s.fpage.core 0).fold then (if n % 32 < 16 then n / 32 * 32 + 2 * (n % 32) else 64) else n
       Completes (exec (.sKsw w) s) s fun pg => { pg with wimm := pg.wimm.set entry ((s.fpage.xr w.xa).extractLsb' 0 32) })
    ∧ Completes (exec (.sYield w) s) s (fun pg =>
        if pg.preq.getLsbD 0 then { pg with yielded := true, wave := BitVec.ofNat 64 (2 ^ 33) } else pg)
    ∧ (∀ t, s.owner p = some t → s.fpage.idle = true →
        (s.reach t 4 = none →
          let s1 := s.modPage p fun pg => { pg with halted := some w.imm, phase := .parked, since := s.cycle }
          exec (.sHalt w) s = .next (if s.fpage.rp = 0 then s1.modTask t.tid fun t => { t with exit := some w.imm } else s1))
        ∧ ∀ s1, s.reach t 4 = some s1 → exec (.sHalt w) s = .next s1)
    ∧ (s.fpage.idle = false → exec (.sHalt w) s = .next s)
    ∧ exec (.sTrap w) s = .next (s.seqTrap p 1 1 none ((w.imm.extractLsb' 0 16).setWidth 128))
    ∧ (s.fpage.phase = .ready → fld w.imm 15 0 ≤ 1 → Completes (exec (.sNopq w) s) s id)
    ∧ (s.fpage.phase = .ready → 1 < fld w.imm 15 0 →
        exec (.sNopq w) s = .next (s.modPage p fun pg => { pg with phase := .until (s.cycle + fld w.imm 15 0 - 1) }))
    ∧ ∀ c, s.fpage.phase = .until c → (c ≤ s.cycle → Completes (exec (.sNopq w) s) s id) ∧ (s.cycle < c → exec (.sNopq w) s = .next s)

/-- R158, R209, R167, R168, R190, R310, R169: KRUN makes the lead hold for its region and a follower join it; SSEND and LSYNC hold while a macro runs and then arrive
at their boundary, and the last page of a region to arrive at LSYNC starts its 24 cycles; a word that does not meet that of another page raises sync_mismatch on one
of the two; SIGE adds to an event of the task's grant; WAITE with n = 0 completes, else joins the event's queue, and completes when it has been granted. -/
def Obligations.MeetingWordsArrive : Prop :=
  (∀ (w : SWord) (s : State) (t : Task), s.owner s.focus.page = some t →
    (s.fpage.phase = .granted → Completes (exec (.sWaite w) s) s id)
    ∧ (s.fpage.phase = .kern ∨ s.fpage.phase = .join → exec (.sKrun w) s = .next (s.tryStart t.tid)))
  ∧ ∀ (w : SWord) (s : State) (t : Task), s.owner s.focus.page = some t → s.fpage.phase = .ready →
    let p := s.focus.page
    let arrived := s.modPage p fun pg => { pg with phase := .arrived, since := s.cycle }
    (s.reach t 1 = none → exec (.sKrun w) s =
      .next ((s.modPage p fun pg => { pg with phase := if pg.rp = 0 then .kern else .join, since := s.cycle }).tryStart t.tid))
    ∧ (t.rcd.bg.getLsbD 7 = true → fld t.rcd.bg 5 0 = fld w.imm 5 0 → s.fpage.idle = true → s.reach t 3 = none →
        exec (.sSsend w) s = .next arrived)
    ∧ (t.rcd.bg.getLsbD 7 = false ∨ fld t.rcd.bg 5 0 ≠ fld w.imm 5 0 → exec (.sSsend w) s = .next (s.seqTrap p 1 10))
    ∧ (s.fpage.idle = false → exec (.sLsync w) s = .next s
        ∧ (t.rcd.bg.getLsbD 7 = true → fld t.rcd.bg 5 0 = fld w.imm 5 0 → exec (.sSsend w) s = .next s))
    ∧ (s.fpage.idle = true → s.reach t 2 = none → exec (.sLsync w) s = .next (
        if (t.pages.all fun q => decide ((arrived.page q).atSync = 2)) then arrived.modTask t.tid fun t => { t with localDue := some (s.cycle + 24) }
        else arrived))
    ∧ (∀ s1, s.reach t 1 = some s1 → exec (.sKrun w) s = .next s1)
    ∧ (∀ s1, t.rcd.bg.getLsbD 7 = true → fld t.rcd.bg 5 0 = fld w.imm 5 0 → s.fpage.idle = true → s.reach t 3 = some s1 →
        exec (.sSsend w) s = .next s1)
    ∧ (∀ kind s1, s.reach t kind = some s1 → ∃ q ∈ t.pages, q ≠ p ∧ (s1 = s.seqTrap p 1 11 ∨ s1 = s.seqTrap q 1 11))
    ∧ (t.rcd.evbase ≤ fld w.imm 7 0 → fld w.imm 7 0 < t.rcd.evbase + t.rcd.evcount →
        Completes (exec (.sSige w) s) (s.taskSignal t (32 * s.fpage.rp) (fld w.imm 7 0) (fld w.imm 31 16)) id)
    ∧ (t.rcd.grants (fld w.imm 7 0) = false → exec (.sSige w) s = .next (s.seqTrap p 3 8))
    ∧ (let n := fld w.imm 7 0
       let need := if w.mod.getLsbD 0 then fld w.imm 31 16 else fld (s.fpage.xr w.xa) 31 0
       (t.rcd.grants n = false → exec (.sWaite w) s = .next (s.seqTrap p 3 8))
       ∧ (t.rcd.grants n = true → need = 0 →
           Completes (exec (.sWaite w) s) (s.modTask t.tid fun t => { t with nonIdem := true }) id)
       ∧ (t.rcd.grants n = true → need ≠ 0 →
             let r := (s.modPage p fun pg => { pg with phase := .queued, since := s.cycle }).dualIssue t (32 * s.fpage.rp) [1, n, need]
             exec (.sWaite w) s = .next (if r.1 then
                 r.2.queueWait t.part n (.page (if t.copyB then t.dual.getD t.tid else t.tid) s.fpage.rp) need
               else r.2)))

/-- R171 to R173, R166, R30, R368, R369: shapes, ports, windows, core scalars and special registers: MSHP sets a legal shape on all eight cores and traps on an illegal
one; SPSET restarts a port; WIN installs a well-formed pattern at the end of its hold; CSET writes a valid scalar; CGET, MSHR and RDSR read; WRSR writes seqst's user field alone. -/
def Obligations.SetupWordsReadAndWrite : Prop :=
  ∀ (w : SWord) (s : State) (t : Task), s.owner s.focus.page = some t → s.fpage.phase = .ready →
    let p := s.focus.page
    (let v : W32 := if w.mod.getLsbD 0 then w.imm else (s.fpage.xr w.xa).extractLsb' 0 32
     (s.fpage.idle = true → shapeBad v = false → Completes (exec (.sMshp w) s) s fun pg =>
       { pg with cores := pg.cores.map fun k => { k with mshape := k.mshape.set (fld w.mod 3 1) v } })
     ∧ (s.fpage.idle = true → shapeBad v = true → exec (.sMshp w) s = .next (s.seqTrap p 1 5))
     ∧ (s.fpage.idle = false → exec (.sMshp w) s = .next s))
    ∧ Completes (exec (.sMshr w) s) s (fun pg => pg.setX w.xd (((pg.core 0).mshape.getD (fld w.mod 3 1) 0).setWidth 64))
    ∧ (let x := s.fpage.port (fld w.imm 2 0)
       (x.out = false ∨ x.fifo = [] → Completes (exec (.sSpset w) s) (s.portSet p (fld w.imm 2 0) (w.imm.getLsbD 4) (w.imm.getLsbD 3)) id)
       ∧ (x.out = true → x.fifo ≠ [] → exec (.sSpset w) s = .next s))
    ∧ (∀ e, readCheck s t (s.fpage.xr w.xa + w.imm.signExtend 64) 64 = .error e →
        exec (.sWin w) s = .next (deniedAt s t e (s.fpage.xr w.xa + w.imm.signExtend 64)))
    ∧ (∀ ps, readCheck s t (s.fpage.xr w.xa + w.imm.signExtend 64) 64 = .ok ps →
        let r := seqRead s t (s.fpage.xr w.xa + w.imm.signExtend 64) ps
        let n := fld w.mod 2 0
        let k := w.mod.getLsbD 3
        let x := s.fpage.port n
        (patBad (recOf r.2.2) false = true → exec (.sWin w) s = .next (r.1.seqTrap p 1 13))
        ∧ (patBad (recOf r.2.2) false = false → x.en = true → x.cur = some k → x.ended = false → exec (.sWin w) s = .next (r.1.seqTrap p 1 12))
        ∧ (patBad (recOf r.2.2) false = false → x.en = false ∨ x.cur ≠ some k ∨ x.ended = true →
            Lands (exec (.sWin w) s) r.1 (max 3 r.2.1) (.install n k (recOf r.2.2))))
    ∧ Completes (exec (.sCset w) s) s (fun pg =>
        { pg with cores := pg.cores.zipIdx.map fun (k, c) =>
            if w.mod.getLsbD 6 = true ∨ c = fld w.mod 5 3 then { k with s := k.s.set (fld w.mod 2 0) { val := s.fpage.xr w.xa, valid := true } } else k })
    ∧ Completes (exec (.sCget w) s) s (fun pg => pg.setX w.xd ((pg.core (fld w.mod 5 3)).s.getD (fld w.mod 2 0) {}).val)
    ∧ Completes (exec (.sRdsr w) s) s (fun pg => pg.setX w.xd (pg.special (fld w.imm 4 0)))
    ∧ Completes (exec (.sWrsr w) s) s (fun pg => { pg with user := (pg.xr w.xa).extractLsb' 32 16 })

/-- R173, R174, R175, R166: what each special register shows. -/
def Obligations.SpecialRegistersShowTheirFields : Prop :=
  ∀ (pg : Page),
    pg.special 0 = pg.tid.setWidth 64 ∧ pg.special 1 = pg.tco ∧ pg.special 2 = pg.preq ∧ pg.special 3 = pg.pdl.setWidth 64
    ∧ pg.special 4 = pg.sstep
    ∧ (pg.special 5).extractLsb' 0 2 = pg.kend ∧ (pg.special 5).extractLsb' 2 8 = pg.kport ∧ (pg.special 5).extractLsb' 32 16 = pg.user
    ∧ (pg.rep.length < 8 → ((pg.special 5).extractLsb' 10 3).toNat = pg.rep.length)
    ∧ ∀ n e, pg.rep.reverse[n]? = some e → e.first < 1024 → e.last < 1024 → e.left < 2 ^ 32 →
        fld (pg.special (6 + n)) 9 0 = e.first ∧ fld (pg.special (6 + n)) 19 10 = e.last ∧ fld (pg.special (6 + n)) 63 32 = e.left

/-- R15, R182, R33, R184, R206: a tile macro holds while a core of its mask runs a macro; when no copy traps the page sends a wave word with mstart = 1 and the macro
starts on every core of the mask, with mprog busy and naming its opcode, rm and f4 sampled, its first element due after its time, and completes; the lowest core
whose copy traps is recorded and none starts. Model's choices it rests on: notes/assumptions 4, 31 (latencies; order of the checks). -/
def Obligations.MacroWordsStartTheirCopies : Prop :=
  ∀ x ∈ macroWords, ∀ (w : SWord) (s : State) (t : Task), s.owner s.focus.page = some t → standsAt (x.1 w) s →
    let p := s.focus.page
    let cores := (List.range 8).filter fun c => w.imm.getLsbD (4 + c)
    let m := macroRecOf s w
    let sent := s.modPage p fun pg => { pg with wave := pg.wave ||| BitVec.ofNat 64 (2 ^ 32) }
    ((∃ c ∈ cores, (s.core p c).busy = true) → exec (x.1 w) s = .next s)
    ∧ ((∀ c ∈ cores, (s.core p c).busy = false ∧ s.macroRefuse t p c m = none) →
        Completes (exec (x.1 w) s) (cores.foldl (fun s c => s.modCore p c fun k =>
          { k with mprog := BitVec.ofNat 64 (k.elem + x.2 * 2 ^ 32 + 2 ^ 40), mres := some (macroKept s t x.2 w)
                   mrun := some { m := m, count := k.macroCount x.2 w, rm := BitVec.ofNat 2 k.rm, f4 := k.f4
                                  due := s.cycle + (k.macroTime x.2 w).1 + (k.macroTime x.2 w).2 } }) sent) id)
    ∧ ((∀ c ∈ cores, (s.core p c).busy = false) → ∀ c ∈ cores, ∀ cls code, s.macroRefuse t p c m = some (cls, code) →
        (∀ d ∈ cores, d < c → s.macroRefuse t p d m = none) →
        exec (x.1 w) s = .next (s.raiseOn p
          { cls := cls, code := code, unit := 1 + c, core := c, flags := 1, word := s.fpage.word, prog := (s.core p c).mprog }))

namespace Sys2Proof.Claims

/-- R354, R355, R363, R364: a data command holds while its slot is busy, then reads its records; with a refused record or a refusal of its own it traps; else it
fills its slot with its word, its records and its element count, busy when there are elements, starting at the saved element unless the slot is done; the collective
that completes a match whose members differ raises coll_mismatch in each of them. -/
def EngineWordsFillTheirSlot : Prop :=
  ∀ x ∈ engineWords, ∀ (w : SWord) (s : State) (t : Task), s.owner s.focus.page = some t → s.fpage.phase = .ready → standsAt (x.1 w) s →
    let p := s.focus.page
    let n := fld w.mod 2 0
    let e := s.fpage.eslot n
    (e.busy = true → exec (x.1 w) s = .next s)
    ∧ (∀ d va, e.busy = false → s.engRecs t (engRegs x.2 w) = .error (d, va) → exec (x.1 w) s = .next (deniedAt s t d va))
    ∧ ∀ rs lat s1, e.busy = false → s.engRecs t (engRegs x.2 w) = .ok (rs, lat, s1) →
      (∀ cls code, s1.engRefuse t x.2 w e rs = some (cls, code) → exec (x.1 w) s = .next (s.seqTrap p cls code))
      ∧ (s1.engRefuse t x.2 w e rs = none → ∃ (y : Slot) (s2 : State),
          y.word = s.fpage.word ∧ y.recs = rs ∧ y.total = engCount x.2 rs ∧ y.busy = decide (0 < engCount x.2 rs) ∧ y.done = false ∧ y.held = false
          ∧ y.cancelled = false ∧ y.op.toNat = x.2 ∧ y.elem = BitVec.ofNat 48 (if e.done then 0 else e.elem.toNat) ∧ y.csticky = e.csticky
          ∧ y.order = s.fpage.orders ∧ y.coll = t.collCount s.fpage.rp n ∧ y.due = s.cycle + lat + Config.latL2Far ∧ (x.2 = 0x73 → y.fill = s.fpage.xr w.xb)
          ∧ (if x.2 = 0x75 then (y.ctr, s2) = s1.takeCounter t (fld w.imm 11 0) (w.mod.getLsbD 3) else s2 = s1)
          ∧ (let s3 := s2.modPage p fun pg =>
               { pg.setSlot n y with
                 orders := pg.orders + 1 }
             let s4 :=
               if x.2 = 0x75 then s3.modTask t.tid fun t => { t with nonIdem := true }
               else if x.2 = 0x74 then s3.modTask t.tid fun t => { t with colls := t.colls ++ [⟨s.fpage.rp, n, y.coll, y.collKey, y.pat 0, []⟩] }
               else s3
             let differ := x.2 = 0x74 ∧ collDiffers (s4.collSet t s.fpage.rp n y.coll) = true
             let s5 := if differ then s4.collFail t s.fpage.rp n y.coll true else s4
             Awaits (exec (x.1 w) s) (if engCount x.2 rs = 0 then s5.engDone t p n else s5) (max 3 lat) none))

end Sys2Proof.Claims

namespace Sys2Proof.Claims

/-- R363, R355: EQRY reads a slot's eprog; EWAIT holds while a slot of its mask is busy; ECANCEL stops the busy slots of its mask, marks them cancelled and, with
reset, sets their element to 0. -/
def EngineQueriesAndCancels : Prop :=
  ∀ (w : SWord) (s : State), s.fpage.phase = .ready →
    Completes (exec (.sEqry w) s) s (fun pg => pg.setX w.xd (pg.eslot (fld w.mod 2 0)).eprog)
    ∧ ((∃ n < 8, w.imm.getLsbD n = true ∧ (s.fpage.eslot n).busy = true) → exec (.sEwait w) s = .next s)
    ∧ ((∀ n < 8, w.imm.getLsbD n = true → (s.fpage.eslot n).busy = false) → Completes (exec (.sEwait w) s) s id)
    ∧ Completes (exec (.sEcancel w) s) s (fun pg =>
        { pg with
          slots := pg.slots.zipIdx.map fun (e, n) =>
            if w.imm.getLsbD n = true ∧ e.busy = true then
              { e with busy := false, held := false, cancelled := true, elem := if w.mod.getLsbD 0 then 0 else e.elem }
            else e })

end Sys2Proof.Claims

/-- Engine commands, queries, waits and cancels (R354, R355, R363). Model's choices it rests on: notes/assumptions 4, 35, 36 (latencies; csticky; order of the records). -/
def Obligations.EngineWordsDriveTheirSlots : Prop := EngineWordsFillTheirSlot ∧ EngineQueriesAndCancels

namespace Sys2Proof.Claims

/-! ## Memory class, ports, engines and boundaries -/

/-- The new value of an immediate atomic from the old one, for its width in bytes (R332). -/
def atomicWords : List ((SWord → Instr) × (SWord → State → Nat → Nat)) :=
  [(.sXaadd, fun w s old => old + (s.fpage.xr w.xb).toNat),
   (.sXacas, fun w s old => if old = (s.fpage.xr w.xb).toNat % 2 ^ (8 * widthOf w) then (s.fpage.xr w.xd).toNat else old),
   (.sXaswp, fun w s _ => (s.fpage.xr w.xb).toNat)]

/-- The pieces of the cells that a CELLINIT writes. -/
def cellPlaces (s : State) (t : Task) (a : W64) (n : Nat) : List (Loc × Nat × Option PotE) :=
  (List.range n).flatMap fun i => match s.taskPlaces t (s.who t s.focus.page) .write true (a + BitVec.ofNat 64 (16 * i)) 16 with
    | .ok ps => ps
    | .error _ => []

/-- The lines of a CFILL read by one core after another: the latest latency and what each core's constant cache gets (R336). -/
def fillAll (s : State) (t : Task) (w : SWord) (cores : List Nat) : Option (Nat × List (Nat × List Byte) × State) :=
  cores.foldl (fun (acc : Option (Nat × List (Nat × List Byte) × State)) c => acc.bind fun x =>
    match x.2.2.cfillRead t s.focus.page c (s.fpage.xr w.xa) 0 (fld w.imm 13 7 + 1) with
    | .ok (bs, lat, s1) => some (max x.1 lat, x.2.1 ++ [(c, bs)], s1)
    | .error _ => none) (some (0, [], s))

end Sys2Proof.Claims

namespace Sys2Proof.Claims

/-- R332, R333, R321: an immediate atomic reads the committed value of its place, commits the new value cut to its width at once, makes the superstep not
idempotent and holds until the old value returns for xd; while its change waits for a snapshot (R315) it holds with no effect of its own; a refused access traps
and changes no byte. -/
def AtomicsExchangeCommittedValues : Prop :=
  ∀ x ∈ atomicWords, ∀ (w : SWord) (s : State) (t : Task), s.owner s.focus.page = some t → s.fpage.phase = .ready → t.dual = none →
    let who := s.who t s.focus.page
    let va := s.fpage.xr w.xa + w.imm.signExtend 64
    let n := widthOf w
    (∀ l m e rest, s.atomicAccess t who va n = .ok ((l, m, e) :: rest) →
      let old := leNat (s.committedLoc l n)
      let new := leBytes n (x.2 w s old % 2 ^ (8 * n))
      let r := s.touchL2 who va ((l, m, e) :: rest)
      (s.changeHeld t.part l new = none →
        Awaits (exec (x.1 w) s) ((r.1.commitLoc t.part l new).modTask t.tid fun t => { t with nonIdem := true }) r.2 (some (w.xd, BitVec.ofNat 64 old)))
      ∧ ∀ s1, s.changeHeld t.part l new = some s1 → exec (x.1 w) s = .next s1)
    ∧ ∀ e, s.atomicAccess t who va n = .error e → exec (x.1 w) s = .next (deniedAt s t e va)

end Sys2Proof.Claims

namespace Sys2Proof.Claims

/-- R334, R335, R304: CELLINIT checks all its cells first and then holds until each is written as a new cell of its scale; without a sector it raises
version_overflow; XCELL reads one cell into xd as its f32 value with its sticky bits, as its integer part saturated, or as its scale; a refused access traps. -/
def CellWordsInitializeAndRead : Prop :=
  ∀ (w : SWord) (s : State) (t : Task), s.owner s.focus.page = some t → s.fpage.phase = .ready →
    let a := s.fpage.xr w.xa
    let n := fld w.mod 8 0 + 1
    let who := s.who t s.focus.page
    let access := fun i => s.elemAccess t who .write true (a + BitVec.ofNat 64 (16 * i)) 16 16 none (some { cls := 3, code := 4 })
    let ps := cellPlaces s t a n
    let sectors := s.takeSectors t (ps.flatMap fun x => sectorsOf t (seqOwns s x.1) [x])
    ((∀ i < n, ∃ ps, access i = .ok ps) →
      (∀ s1, sectors = some s1 →
        Lands (exec (.sCellinit w) s) (s1.noteWalks who a (16 * n)).1
          ((s1.noteWalks who a (16 * n)).2 + max (s.acceptLat t s.focus.page 0 a ps) Config.latL2Near + (n + 7) / 8)
          (.write (ps.map fun x => (x.1, x.2.1)) (List.replicate n (leBytes 16 (fld w.imm 12 0 * 2 ^ 112))).flatten))
      ∧ (sectors = none → exec (.sCellinit w) s = .next (deniedAt (s.countVofl t.part) t { cls := 2, code := 6 } a)))
    ∧ (∀ i < n, ∀ e, access i = .error e → (∀ j < i, ∃ ps, access j = .ok ps) →
        exec (.sCellinit w) s = .next (deniedAt s t e (a + BitVec.ofNat 64 (16 * i))))
    ∧ (∀ e, readCheck s t a 16 = .error e → exec (.sXcell w) s = .next (deniedAt s t e a))
    ∧ ∀ ps, readCheck s t a 16 = .ok ps →
        let r := seqRead s t a ps
        let c : BitVec 128 := BitVec.ofNat 128 (leNat r.2.2)
        Awaits (exec (.sXcell w) s) r.1 (max 3 r.2.1) (some (w.xd,
          if fld w.imm 1 0 = 0 then cellRead c
          else if fld w.imm 1 0 = 1 then BitVec.ofInt 64 (max (-(2 : Int) ^ 63) (min ((2 : Int) ^ 63 - 1) (c.extractLsb' 0 112).toInt))
          else (c.extractLsb' 112 13).signExtend 64))

end Sys2Proof.Claims

/-- Immediate atomics, cells and their initialization (R332 to R335). Model's choices it rests on: notes/assumptions 4, 73 (latencies; places of the sticky bits). -/
def Obligations.AtomicsAndCellsActOnCommittedValues : Prop := AtomicsExchangeCommittedValues ∧ CellWordsInitializeAndRead

namespace Sys2Proof.Claims

/-- R336, R337, R322: CFILL reads its lines as the core it names, or each of the eight, and holds until they stand in the constant cache; it holds at first while a
macro runs there, and a refused access traps; SEAL and UNSEAL keep their request for the next group boundary with the sequencer's writer index, and a SEAL of a
range that is held already completes with no request. -/
def FillsAndSealsTakeEffect : Prop :=
  ∀ (w : SWord) (s : State) (t : Task), s.owner s.focus.page = some t → s.fpage.phase = .ready →
    let p := s.focus.page
    (let c := fld w.imm 16 14
     let n := fld w.imm 13 7 + 1
     w.imm.getLsbD 17 = false →
       ((s.core p c).busy = true → exec (.sCfill w) s = .next s)
       ∧ ((s.core p c).busy = false →
         (∀ bs lat s1, s.cfillRead t p c (s.fpage.xr w.xa) 0 n = .ok (bs, lat, s1) →
           Lands (exec (.sCfill w) s) s1 (lat + n) (.fill (fld w.imm 6 0) [(c, bs)]))
         ∧ ∀ e va, s.cfillRead t p c (s.fpage.xr w.xa) 0 n = .error (e, va) → exec (.sCfill w) s = .next (deniedAt s t e va)))
    ∧ (w.imm.getLsbD 17 = true →
        ((∃ c < 8, (s.core p c).busy = true) → exec (.sCfill w) s = .next s)
        ∧ ((∀ c < 8, (s.core p c).busy = false) →
          (∀ lat data s1, fillAll s t w (List.range 8) = some (lat, data, s1) →
            Lands (exec (.sCfill w) s) s1 (lat + 8 * (fld w.imm 13 7 + 1)) (.fill (fld w.imm 6 0) data))
          ∧ (∀ c < 8, ∀ lat data s1 e va, fillAll s t w (List.range c) = some (lat, data, s1) →
              s1.cfillRead t p c (s.fpage.xr w.xa) 0 (fld w.imm 13 7 + 1) = .error (e, va) → exec (.sCfill w) s = .next (deniedAt s t e va))))
    ∧ (let size := s.fpage.xr w.xb
       let a := s.resolve (s.who t p).home (s.fpage.xr w.xa)
       (s.sealCheck t (s.who t p) (s.fpage.xr w.xa) size true = none → s.sealCase t.part a size true = none →
         (s.part t.part).seals.contains (a, size) = false →
         Completes (exec (.sSeal w) s) (s.modTask t.tid fun t => { t with seals := t.seals ++ [(true, t.windex s.fpage.vrp 0, a, size)] }) id)
       ∧ (s.sealCheck t (s.who t p) (s.fpage.xr w.xa) size true = none → s.sealCase t.part a size true = none →
         (s.part t.part).seals.contains (a, size) = true → Completes (exec (.sSeal w) s) s id)
       ∧ (s.sealCheck t (s.who t p) (s.fpage.xr w.xa) size false = none → s.sealCase t.part a size false = none →
         Completes (exec (.sUnseal w) s) (s.modTask t.tid fun t => { t with seals := t.seals ++ [(false, t.windex s.fpage.vrp 0, a, size)] }) id)
       ∧ ∀ e, (s.sealCheck t (s.who t p) (s.fpage.xr w.xa) size true = none ∧ s.sealCase t.part a size true = some e →
             exec (.sSeal w) s = .next (s.seqTrap p e.cls e.code))
           ∧ (s.sealCheck t (s.who t p) (s.fpage.xr w.xa) size false = none ∧ s.sealCase t.part a size false = some e →
             exec (.sUnseal w) s = .next (s.seqTrap p e.cls e.code)))

end Sys2Proof.Claims

namespace Sys2Proof.Claims

/-- R338, R339, R346, R341: RETAIN and EVHINT claim the lowest register that is free in every slice and answer its number, or an error when none is free or
the ways run out; UNPIN releases a claimed one after its hold; FENCE completes once what its mask names is done. -/
def RetentionWordsClaimAndRelease : Prop :=
  ∀ (w : SWord) (s : State) (t : Task), s.owner s.focus.page = some t →
    let p := s.focus.page
    (∀ d pa, s.fpage.phase = .ready →
      let va := s.fpage.xr w.xa
      let size := s.fpage.xr w.xb
      va.toNat % 512 = 0 → size.toNat % 512 = 0 → size ≠ 0 → spaceOf va = .translated →
      s.inLease (s.who t p).home t.rcd.lbase t.rcd.lsize va size.toNat = true → s.interval (s.who t p) va size.toNat = .ok (d, pa) →
      let free := (List.range 8).find? fun i => (s.die d).slices.all fun sl => !retOn (sl.retain.getD i 0) && !retEf (sl.retain.getD i 0)
      let claim := fun (ways : Nat) (ef : Bool) (i : Nat) =>
        let r : BitVec 192 := BitVec.ofNat 192 (pa + size.toNat * 2 ^ 64 + ways * 2 ^ 128 + ef.toNat * 2 ^ 132 + t.part * 2 ^ 133)
        (s.modDie d fun x => { x with slices := x.slices.map fun sl => { sl.setRetain i r with rcnt := (sl.setRetain i r).rcnt.set i 0 } }).modTask
          t.tid fun t => { t with claims := t.claims ++ [(d, i)] }
      (free = none → Awaits (exec (.sRetain w) s) s 23 (some (w.xd, 0x8000000000000001)) ∧ Awaits (exec (.sEvhint w) s) s 23 (some (w.xd, 0x8000000000000001)))
      ∧ ∀ i, free = some i →
        (if ((s.die d).slices.any fun sl => decide (12 < sl.total i + fld w.imm 3 0)) then
          Awaits (exec (.sRetain w) s) s 23 (some (w.xd, 0x8000000000000002))
         else Awaits (exec (.sRetain w) s) (claim (fld w.imm 3 0) false i) 23 (some (w.xd, BitVec.ofNat 64 i)))
        ∧ ((∀ sl ∈ (s.die d).slices, sl.total i ≤ 12) → Awaits (exec (.sEvhint w) s) (claim 0 true i) 23 (some (w.xd, BitVec.ofNat 64 i))))
    ∧ (let i := (s.fpage.xr w.xa).toNat
       (8 ≤ i → exec (.sUnpin w) s = .next (s.seqTrap p 1 18))
       ∧ (i < 8 → (∀ c ∈ t.claims, c.2 ≠ i) → exec (.sUnpin w) s = .next (s.seqTrap p 3 11))
       ∧ ∀ d, i < 8 → t.claims.reverse.find? (fun c => decide (c.2 = i)) = some (d, i) →
           (s.fpage.phase = .ready → exec (.sUnpin w) s = .next (s.modPage p fun pg => { pg with phase := .until (s.cycle + 23) }))
           ∧ ∀ c, s.fpage.phase = .until c → c ≤ s.cycle →
               Completes (exec (.sUnpin w) s) ((s.release d i).modTask t.tid fun t => { t with claims := t.claims.erase (d, i) }) id)
    ∧ (let done := (!w.imm.getLsbD 0 || s.fpage.idle) && (!w.imm.getLsbD 2 || s.fpage.cores.all fun k => k.redq.isEmpty)
       (done = true → Completes (exec (.sFence w) s) s id) ∧ (done = false → exec (.sFence w) s = .next s))

end Sys2Proof.Claims

/-- Fills, seals, retention, unpinning and fences (R336 to R341, R346). Model's choices it rests on: notes/assumptions 4, 30, 78 (latencies; retained ranges; their hold). -/
def Obligations.MemoryClassWordsTakeEffect : Prop := FillsAndSealsTakeEffect ∧ RetentionWordsClaimAndRelease

namespace Sys2Proof.Claims

/-- R329, R314, R328: REDUCTION_SEND takes the oldest entry of a core's queue to its home, which was found and checked when the entry was queued, and there it joins
the pending reductions of the task; without room it raises trap(memory, version_overflow), once. -/
def ReductionSendReachesItsHome : Prop :=
  ∀ (s : State) (p c : Nat) (t : Task) (e : RedEntry) (r : List RedEntry),
    s.focus.ev = .reductionSend p c → s.owner p = some t → (s.core p c).redq = e :: r →
    let s1 := s.modCore p c fun k => { k with redq := r }
    let n := if e.cell then 16 else 4
    (∀ s2, s1.takeSectors t (sectorsOf t ownNone [(e.loc, n, none)]) = some s2 →
      exec .vReductionSend s = .next ((s2.noteWalks (s.who t p) e.va n).1.modTask t.tid fun t =>
        { t with reds := t.reds ++ [{ loc := e.loc, cell := e.cell, ty := e.ty, addends := e.addends }] }))
    ∧ (s1.takeSectors t (sectorsOf t ownNone [(e.loc, n, none)]) = none →
      exec .vReductionSend s = .next (if t.trapping then s else (s.countVofl t.part).raiseOn p
        { cls := 2, code := 6, unit := 1 + c, core := c, flags := 12, addr := s.resolve (s.who t p).home e.va }))

end Sys2Proof.Claims

namespace Sys2Proof.Claims

/-- R312: of the uncommitted bytes of one place the one with the highest writer index stands, and a place that two writer indices wrote counts as a conflict. -/
def HighestWriterIndexStands : Prop :=
  ∀ (cs : List VCell) (l : Loc), (∀ c ∈ cs, ∀ d ∈ cs, c.loc = d.loc → c.w = d.w → c = d) →
    ((∃ c ∈ cs, c.loc = l) ↔ ∃ x ∈ winners cs, x.loc = l)
    ∧ ∀ x ∈ winners cs, x.loc = l →
        (∃ c ∈ cs, c.loc = l ∧ c.w = x.w ∧ c.val = x.val) ∧ (∀ c ∈ cs, c.loc = l → c.w ≤ x.w)
        ∧ (x.clash = true ↔ ∃ c ∈ cs, ∃ d ∈ cs, c.loc = l ∧ d.loc = l ∧ c.w ≠ d.w)

end Sys2Proof.Claims

/-- The winner among writers and the reductions on their way home (R312, R314, R329). -/
def Obligations.WritersAndReductionsMerge : Prop := HighestWriterIndexStands ∧ ReductionSendReachesItsHome

namespace Sys2Proof.Claims

/-- R310, R168, R314: LOCAL_BOUNDARY applies the region's remote scratchpad writes but those of its engines, gives up their version sectors, opens the next phase
and completes every LSYNC. -/
def LocalBoundaryOpensTheNextPhase : Prop :=
  ∀ (s : State) (tid due : Nat) (t : Task), s.focus.ev = .localBoundary tid → s.task tid = some t → t.localDue = some due →
    if s.cycle < due ∨ ∃ p ∈ t.pages, (s.page p).atSync ≠ 2 ∨ (s.page p).frozen = true then exec .vLocalBoundary s = .next s
    else
      let mine := fun (c : VCell) => !c.loc.outer && decide (c.w % 16 ≠ 8)
      let u : Task := { t with ver := t.ver.filter (fun c => !mine c), phase := t.phase + 1, localDue := none }
      exec .vLocalBoundary s = .next (t.pages.foldl (fun s p => s.modPage p fun pg => { pg.complete with phase := .after })
        (((s.applyScratch t (t.ver.filter mine)).modTask tid fun _ => u).dropScratch u))

end Sys2Proof.Claims

namespace Sys2Proof.Claims

/-- R311, R247, R315, R322: GROUP_BOUNDARY completes every boundary of its group that is due, one after another: it commits the members' versions, ends their
superstep, takes their seals and drops their version sectors, unless a dual-run pair disagrees, or the commit waits one cycle more for a snapshot. -/
def GroupBoundaryCommitsItsMembers : Prop :=
  ∀ (s : State) (part bg : Nat), s.focus.ev = .groupBoundary part bg →
    exec .vGroupBoundary s = .next ((s.bounds.filter fun b => decide (b.part = part ∧ b.bg = bg ∧ b.due ≤ s.cycle)).foldl State.groupBoundary s)
    ∧ ∀ b : Bound,
      let ts := s.members b.part b.bg b.mset
      let s0 : State := { s with bounds := s.bounds.filter fun x => decide (x ≠ b) }
      let tids := ts.map (·.tid)
      let cs := ts.filter fun t => !(t.dual.isSome && t.copyB)
      (s.boundReady ts = false → s.groupBoundary b = s0)
      ∧ (s.boundReady ts = true → s.mismatchIn ts = none → s.commitHeld b.part cs tids = none →
          s.groupBoundary b = ((((ts.foldl State.finishStep (s0.commit b.part cs tids)).takeSeals b.part cs).dropSectors b.part tids).dropColls b.part b.mset))
      ∧ (∀ s1, s.boundReady ts = true → s.mismatchIn ts = none → s.commitHeld b.part cs tids = some s1 →
          s.groupBoundary b = { s1 with bounds := s1.bounds.map fun x => if x = b then { x with due := s.cycle + 1 } else x })
      ∧ ∀ t u, s.boundReady ts = true → s.mismatchIn ts = some (t, u) → s.groupBoundary b = s0.dualFail t u

end Sys2Proof.Claims

/-- Local and group boundaries (R310, R311, R247, R314, R315, R322). Model's choices it rests on: notes/assumptions 21, 45, 87 (version sectors; the signature of a
dual run; held commits). -/
def Obligations.BoundariesCommit : Prop := LocalBoundaryOpensTheNextPhase ∧ GroupBoundaryCommitsItsMembers

/-- R23, R24, R25: in its deciding cycle a kernel decides one interval: it enters live when nothing stops it and every place the schedule needs has room, and then
the reservations are made; II wave words follow with the wave immediates of every page, after two bubbles when the schedule changes; outside that cycle nothing
happens. Model's choices it rests on: notes/assumptions 19, 84, 92 (reservations; wave immediates; the end of an output port's windows). -/
def Obligations.IntervalDecisionSendsItsWaves : Prop :=
  ∀ (s : State) (tid : Nat) (t : Task) (k : Kern) (lead : Nat) (more : List Nat),
    s.focus.ev = .intervalDecide tid → s.task tid = some t → t.kern = some k → t.pages = lead :: more →
    (k.next ≠ s.cycle ∨ k.ends ≠ [] → exec .vIntervalDecide s = .next s)
    ∧ (k.next = s.cycle → k.ends = [] → exec .vIntervalDecide s = .next (s.decideEntry t k))
    ∧ (k.drain = none → (s.stopCause t k (s.regionNeeds t (s.page lead).latch)).1 = 0 →
        let sched := (s.page lead).latch
        let needs := s.regionNeeds t sched
        let live := needs.all fun x => (s.offers t x.1 x.2).1
        ((s.page lead).stages ≠ 1 ∨ (if live then k.entered + 1 else k.entered) < k.trip) →
        let switch := decide (k.intervals ≠ 0) && decide (sched ≠ k.sched)
        ∃ k2 : Kern, k2.intervals = k.intervals + 1 ∧ k2.entered = (if live then k.entered + 1 else k.entered) ∧ k2.sched = sched
          ∧ k2.next = s.cycle + (s.page lead).ii + (if switch then 2 else 0) ∧ k2.drain = none
          ∧ k2.recs = { live := live, sched := sched, tag := BitVec.ofNat 16 k.intervals } :: k.recs.take 31
          ∧ s.decideEntry t k = (if live then needs.foldl (fun s x => s.reserve t x.1 x.2) s else s).modTask t.tid fun t =>
              { t with kern := some k2
                       waves := makeWaves (s.cycle + 1) (s.page lead).ii live sched (decide (k.intervals = 0)) switch k.intervals false (s.wimmOf t sched)
                         ++ t.waves.take 512 })

namespace Sys2Proof.Claims

/-- R158, R159, R160, R209: once every page of the region stands at KRUN with no macro running and no kernel runs, the kernel starts: a port that is off or turned
against its words traps, a trip count that the iterations before a cut have reached (0 with none) completes at once with their number, and else interval 0 is decided
in this cycle under the word's latch and the rest of the trip count; wave words that the lead has sent before go on to the cores of higher skew. -/
def KernelStartsWhenTheRegionStands : Prop :=
  ∀ (s : State) (t : Task) (lead : Nat) (more : List Nat), s.task t.tid = some t → t.pages = lead :: more →
    let w := seqFields (s.page lead).word
    let count : W64 := if w.mod.getLsbD 0 then w.imm.setWidth 64 else ((s.page lead).xr w.xa).setWidth 32 |>.setWidth 64
    let base : W64 := (t.kern.map fun k => k.base + k.entered).getD 0
    ((t.kernelRuns = true ∨ ∃ p ∈ t.pages, (s.page p).atSync ≠ 1 ∨ (s.page p).idle = false) → s.tryStart t.tid = s)
    ∧ (t.kernelRuns = false → (∀ p ∈ t.pages, (s.page p).atSync = 1 ∧ (s.page p).idle = true) →
        ((∃ p ∈ t.pages, (s.page p).portOff = true) → s.tryStart t.tid = s.seqTrap lead 1 21)
        ∧ ((∀ p ∈ t.pages, (s.page p).portOff = false) → base < count →
            let k : Kern := { t0 := s.cycle + 1, trip := count - base, base := base, yieldable := w.mod.getLsbD 2, next := s.cycle }
            let t1 := { t with kern := some k, waves := t.waves.filter fun x => decide (x.at_ ≤ s.cycle) }
            s.tryStart t.tid = ((s.modPage lead fun pg => { pg with latch := w.mod.getLsbD 1 }).setTask t1).decideEntry t1 k)
        ∧ ((∀ p ∈ t.pages, (s.page p).portOff = false) → count ≤ base →
            s.tryStart t.tid = (t.pages.foldl (fun s p => s.modPage p fun pg =>
              let pg1 := pg.setX (seqFields pg.word).xd base
              { pg1.complete with kend := 1, kport := 0, phase := .after, cores := pg1.cores.map fun k => { k with kprog := 0 } }) s).modTask t.tid
                fun t => { t with kern := none, waves := t.waves.map fun x => { x with counts := false } }))

end Sys2Proof.Claims

namespace Sys2Proof.Claims

/-- R158, R160, R166: KERNEL_END of a page writes the live count to the KRUN's xd, the end cause to seqst and completes the KRUN; a kernel that preq cut leaves the
page at its KRUN word, yielded while preq asks for it. -/
def KernelEndCompletesKrun : Prop :=
  ∀ (s : State) (tid rp p : Nat) (t : Task) (k : Kern), s.focus.ev = .kernelEnd tid rp → s.task tid = some t → t.kern = some k → t.phys rp = some p →
    k.ends.getD rp 0 ≠ 0 → k.ends.getD rp 0 ≤ s.cycle →
    Answers (exec .vKernelEnd s) fun u =>
      (u.page p).kend = k.cause
      ∧ (k.cause ≠ 2 → (u.page p).kport = 0)
      ∧ (k.cause = 3 → (u.page p).pc = (s.page p).pc ∧ (u.page p).x = (s.page p).x ∧ (u.page p).phase = .ready
          ∧ (u.page p).yielded = (s.page p).preq.getLsbD 0)
      ∧ (k.cause ≠ 3 → (u.page p).x = ((s.page p).setX ((s.page p).word.extractLsb' 51 5) (k.base + k.entered)).x
          ∧ (u.page p).pc = (s.page p).complete.pc ∧ (u.page p).rep = (s.page p).complete.rep ∧ (u.page p).phase = .after)

end Sys2Proof.Claims

/-- The start and the end of a kernel (R158 to R160, R166, R209). Model's choices it rests on: notes/assumptions 26, 84 (a kernel without a live iteration; wave words
that travel on). -/
def Obligations.KernelsStartAndEnd : Prop := KernelStartsWhenTheRegionStands ∧ KernelEndCompletesKrun

/-- R25, R215, R220, R222, R456: STEER_ARRIVAL overwrites the lead's latch and takes its condition off the return path; DRAIN_RECORD_WRITE drops a column that no core
kept, and writes another's record as whole entries; WEIGHT_PORT_BEAT puts its beat into the next weight register of the bank not in use, makes the core ready again with
its eighth, and signals the window's marker. Model's choices it rests on: notes/assumptions 20 (columns all discarded). -/
def Obligations.MatrixEventsMoveTheirData : Prop :=
  (∀ (s : State) (tid cond p : Nat) (t : Task) (more : List Nat), s.focus.ev = .steerArrival tid cond → s.task tid = some t → t.pages = p :: more →
    exec .vSteerArrival s = .next ((s.modPage p fun pg => { pg with latch := decide (cond ≠ 0) }).modTask tid fun t =>
      { t with steers := t.steers.filter fun x => !(t.steerDue x s.cycle && decide (x.cond = decide (cond ≠ 0))) }))
  ∧ (∀ (s : State) (p : Nat) (t : Task) (d : Drain), s.focus.ev = .drainRecordWrite p → s.owner p = some t →
      ((s.page p).drains.find? fun d => d.ready.any fun c => decide (c < s.cycle)) = some d →
      let n := if ((s.page p).core 0).opType = 7 then 4 else 2
      let s1 := s.modPage p fun pg => { pg with drains := pg.drains.filter fun x => decide (x ≠ d) }
      (d.mask = 0 → exec .vDrainRecordWrite s = .next (s1.modPort p 7 fun x => { x with resv := x.resv - n }))
      ∧ (d.mask ≠ 0 →
          let s2 := (List.range n).foldl (fun s i => s.portPush p 7 (d.data.extractLsb' (512 * i) 512) (d.mask.extractLsb' (64 * i) 64) false) s1
          let s3 := s2.modPort p 7 fun x => { x with fifo := x.fifo.map fun e => { e with at_ := min e.at_ (s.cycle - 1) } }
          exec .vDrainRecordWrite s = .next ((List.range n).foldl (fun s _ => s.portWriteOne t p 7) s3)))
  ∧ ∀ (s : State) (p : Nat) (e : Entry) (r : List Entry), s.focus.ev = .weightPortBeat p → ((s.page p).port 1).fifo = e :: r →
      let f := (s.page p).wfill
      let k := (s.page p).core (f / 8)
      (s.cycle ≤ e.at_ ∨ (s.page p).frozen = true ∨ k.ready = false → exec .vWeightPortBeat s = .next s)
      ∧ (e.at_ < s.cycle → (s.page p).frozen = false → k.ready = true →
          let s1 := s.modPage p fun pg =>
            ({ pg with wfill := (pg.wfill + 1) % 64 }.setCore (f / 8)
              { k with w := k.w.set ((if k.wsel then 0 else 8) + f % 8) { val := e.data, key := e.skip }, ready := decide (f % 8 ≠ 7)
                       got := k.got ++ [(e.pat, e.idx)] }).setPort 1 { pg.port 1 with fifo := r }
          (e.mark = none → exec .vWeightPortBeat s = .next s1)
          ∧ ∀ v t, e.mark = some v → s.owner p = some t → exec .vWeightPortBeat s = .next (s1.taskSignal t (32 * (s.page p).rp + 2) v 1))

namespace Sys2Proof.Claims

/-- One run of an input window's entry under the checks of its path, an error of the memory last (R134, R149, R304, R351, R390, R445). -/
def runAccess (s : State) (t : Task) (who : Who) (weight : Bool) (cls : Nat) (via : Nat × Nat) (va : W64) (len : Nat) :
    Except Deny (List (Loc × Nat × Option PotE)) :=
  match s.elemPlaces t who (if weight then .matrix else .read) false va len 1 (some cls)
      (if weight then none else some { cls := 3, code := 6 }) true with
  | .error e => .error e
  | .ok ps => if s.policyOk t (imagesOf ps) = false then .error dClass else if s.touchesBad t ps (some via) then .error dIntegrity else .ok ps

/-- The runs of an entry read one after another: the state after them, their bytes with their places, the longest latency, and whether one of them is keyed;
a refused run answers its cause and address. -/
def fetchRuns (t : Task) (who : Who) (weight : Bool) (cls p : Nat) (id : Nat × Nat) : State → List (Nat × W64 × Nat) →
    Except (Deny × W64) (State × List (Nat × List Byte) × Nat × Bool)
  | s, [] => .ok (s, [], 0, false)
  | s, (i, va, len) :: rest =>
    match runAccess s t who weight cls (p, id.2 % 8) va len with
    | .error e => .error (e, va)
    | .ok ps =>
      let r := (s.countBeats t (imagesOf ps) 1).touchL1 t p (id.2 % 8) va ps
      let b := r.1.readPlaces t (t.windex id.1 id.2) id.1 id.2 ps
      let keyed := s.touchesKeyed t ps || ps.any fun x => x.2.2.any fun y => decide (y.cls = 3)
      match fetchRuns t who weight cls p id b.2 rest with
      | .error e => .error e
      | .ok (u, bs, lat, key) => .ok (u, (i, b.1) :: bs, max r.2 lat, keyed || key)

/-- What a collective's limit does to one member (R365): running and holding, it traps; absent, it ends with the trap when it is resumed. -/
def timeOut (n coll rp : Nat) (info : BitVec 128) (s : State) (u : Option Task) : State :=
  match u with
  | none => s
  | some v =>
    if v.active then
      match v.phys rp with
      | none => s
      | some q =>
        if (s.eslot q n).busy = true ∧ (s.eslot q n).held = true ∧ (s.eslot q n).coll = coll then s.engineTrap q n 1 20 none info else s
    else if v.state = .running ∨ v.state = .ended then s
    else s.modTask v.tid fun v => { v with failed := some info.toNat }

end Sys2Proof.Claims

namespace Sys2Proof.Claims

/-- R134, R149, R304, R351, R352, R353, R373: PORT_FETCH takes up a window when the port stands at none; the bytes of the window's next entry join the FIFO, or as eight
segments the feed row, not before what stands ahead of them, and the window moves on; a refused run raises the port's trap with its address. -/
def PortFetchBringsTheNextEntry : Prop :=
  ∀ (s : State) (p n : Nat) (t : Task), s.focus.ev = .portFetch p n → s.owner p = some t →
    let x := s.port p n
    let id := x.ident (s.page p).rp n
    let entry := fetchRuns t (s.who t p) ((s.page p).weightPort n) (patCls x.pat) p id s (patRuns x.pat x.pos 64 0)
    (s.portFetches p n = false → exec .vPortFetch s = .next s)
    ∧ (s.portFetches p n = true → x.cur = none → exec .vPortFetch s = .next (s.portNext p n 3))
    ∧ (s.portFetches p n = true → x.cur ≠ none →
        (∀ e va, entry = .error (e, va) →
          exec .vPortFetch s = .next (s.portTrap p n e.cls e.code (some (s.resolve (s.who t p).home va))))
        ∧ ∀ u bs lat key, entry = .ok (u, bs, lat, key) →
            let d := entryOf bs
            let mark := patMark x.pat x.pos
            exec .vPortFetch s = .next ((if (s.page p).feedPort n then u.modPage p fun pg =>
                { pg with feed := pg.feed ++ segments d.1 d.2 mark (max ((pg.feed.getLast?.map (·.from_)).getD 0 - 1) (s.cycle + lat)) }
              else u.modPort p n fun z =>
                let y : Entry := { data := d.1, mask := d.2, pat := x.pat, idx := x.pos, at_ := max ((z.fifo.getLast?.map (·.at_)).getD 0) (s.cycle + lat)
                                   mark := mark, skip := key }
                { z with fifo := z.fifo ++ [y] }).portStep p n))

end Sys2Proof.Claims

namespace Sys2Proof.Claims

/-- R134, R136, R307, R353: PORT_WRITEOUT drops the skipped entries at the head of an output FIFO with their markers and then writes one entry; a written entry leaves
the FIFO, its masked bytes go to the places of its window, and its marker is signalled; with a refused run it traps and writes nothing, and so without a version sector,
once (R314, R315). -/
def PortWriteoutStoresOneEntry : Prop :=
  (∀ (s : State) (p n : Nat) (t : Task), s.focus.ev = .portWriteout p n → s.owner p = some t →
    exec .vPortWriteout s = .next (if s.portWrites p n then (s.dropSkips t p n 64).portWriteOne t p n else s))
  ∧ ∀ (s : State) (t : Task) (p n : Nat) (e : Entry) (r : List Entry), (s.port p n).fifo = e :: r →
      let id := (s.port p n).ident (s.page p).rp n
      let runs := patRuns e.pat e.idx 64 0
      let access := fun (x : Nat × W64 × Nat) =>
        s.elemAccess t (s.who t p) .write true x.2.1 x.2.2 1 (some (patCls e.pat)) (some { cls := 3, code := 6 }) true
      let w := s.who t p
      let at_ := fun (u : State) (x : Nat × W64 × Nat) => match u.taskPlaces t w .write true x.2.1 x.2.2 with
        | .ok ps => ps
        | .error _ => []
      (s.cycle ≤ e.at_ → s.portWriteOne t p n = s)
      ∧ (∀ pre x post d, e.at_ < s.cycle → runs = pre ++ x :: post → (∀ y ∈ pre, ∃ ps, access y = .ok ps) → access x = .error d →
          s.portWriteOne t p n = s.portTrap p n d.cls d.code (some (s.resolve (s.who t p).home x.2.1)))
      ∧ (e.at_ < s.cycle → (∀ x ∈ runs, ∃ ps, access x = .ok ps) → s.takeSectors t (runs.flatMap fun x => sectorsOf t id (at_ s x)) = none →
          s.portWriteOne t p n = if t.trapping then s else
            (s.countVofl t.part).portTrap p n 2 6 (runs.head?.map fun x => s.resolve (s.who t p).home x.2.1))
      ∧ ∀ s1, e.at_ < s.cycle → (∀ x ∈ runs, ∃ ps, access x = .ok ps) → s.takeSectors t (runs.flatMap fun x => sectorsOf t id (at_ s x)) = some s1 →
          let s2 := runs.foldl (fun u x => ((u.noteWalks w x.2.1 x.2.2).1.markL1 t p (id.2 % 8) (at_ u x)).writePlaces t (t.windex id.1 id.2) (s.ordNow 0) 0 id
            (fun j => e.mask.getLsbD (x.1 + j)) (at_ u x) 0 (((entryBytes e.data).drop x.1).take x.2.2)) s1
          let s3 := s2.modPort p n fun x => { x with fifo := r }
          s.portWriteOne t p n = (match e.mark with
            | none => s3
            | some v => s3.taskSignal t (32 * (s.page p).rp + 1 + n) v 1)

end Sys2Proof.Claims

/-- The two sides of the stream ports (R134, R136, R149, R304, R307, R351 to R353). Model's choices it rests on: notes/assumptions 4, 18 (latencies; the ended bit). -/
def Obligations.PortsMoveTheirEntries : Prop := PortFetchBringsTheNextEntry ∧ PortWriteoutStoresOneEntry

namespace Sys2Proof.Claims

/-- R184, R185, R189, R33, R193: MACRO_ELEMENT does nothing before its element is due; an element in tile registers alone advances mprog, and after the last one
clears mprog.elem and busy, ends the copy and signals its event; an element of memory first waits for its data, is performed so too when they have come, and a
refused row traps. -/
def MacroElementsComplete : Prop :=
  ∀ (s : State) (p c : Nat) (t : Task) (r : MacroRun), s.focus.ev = .macroElement p c → s.owner p = some t → (s.core p c).mrun = some r →
    let k := s.core p c
    let w := seqFields r.m.word
    let op := r.m.word.toNat / 2 ^ 56
    let after := fun (u : State) =>
      if k.elem + 1 < r.count then
        u.modCore p c fun k => { k with mprog := k.mprog + 1, mrun := some { r with due := s.cycle + (k.macroTime op w).2, waited := false } }
      else
        let u1 := u.modCore p c fun k => { k with mprog := BitVec.ofNat 64 (fld k.mprog 39 32 * 2 ^ 32), mrun := none, mres := none }
        if w.imm.getLsbD 12 then u1.taskSignal t (32 * (s.page p).rp + 17 + c) (fld w.imm 20 13) 1 else u1
    (s.cycle < r.due ∨ (s.page p).frozen = true → exec .vMacroElement s = .next s)
    ∧ (r.due ≤ s.cycle → (s.page p).frozen = false →
        (macroMem op = false → exec .vMacroElement s = .next (after (s.modCore p c fun k => k.tileElem r k.elem)))
        ∧ (∀ u, macroMem op = true → r.waited = true → s.macroElem t p c r k.elem = .ok u → exec .vMacroElement s = .next (after u))
        ∧ (∀ u, macroMem op = true → r.waited = false → s.macroElem t p c r k.elem = .ok u →
            let data := s.rowLatency t p c op (if op = 0x42 ∨ op = 0x43 then 0 else fld w.imm 2 0) (k.rowAddr r.m c k.elem) (k.rowLen op w)
            0 < data.2 → exec .vMacroElement s =
              .next (data.1.modCore p c fun k => { k with mrun := some { r with due := s.cycle + data.2, waited := true } }))
        ∧ (∀ d, macroMem op = true → s.macroElem t p c r k.elem = .error d →
            let s1 := if d.cls = 2 ∧ d.code = 6 ∧ d.stage = 0 then s.countVofl t.part else s
            exec .vMacroElement s = .next (s1.macroTrap p c d.cls d.code (some (s.resolve (s.who t p).home (k.rowAddr r.m c k.elem))))))

end Sys2Proof.Claims

namespace Sys2Proof.Claims

/-- R196 to R203: what an element of each tile macro computes: TMMA and TMMS merge the products of a row of ma with each row of mb into the accumulator row or the
semiring's identity; TXP takes column e; TCVT converts a row; TEW combines two rows element by element; TFILL fills with a constant. -/
def TileElementsComputeTheirRow : Prop :=
  ∀ (k : Core) (r : MacroRun) (e : Nat),
    let w := seqFields r.m.word
    let op := r.m.word.toNat / 2 ^ 56
    let ty := fld w.imm 2 0
    let mx := fld w.imm 31 21
    let md := fld w.mod 8 6
    let ma := fld w.mod 5 3
    let mb := fld w.mod 2 0
    let cols := shapeCols (k.mshape.getD md 0)
    let row := fun (cs : List Nat) (f : FlagSet) =>
      let k1 := k.setRow md e cs
      { k1 with cfr := k1.cfr ||| (f.setWidth 32 <<< 8) }
    (op = 0x44 ∨ op = 0x45 →
      let ring := if op = 0x44 then 0 else mx / 2 % 8
      let out := (List.range cols).map fun j =>
        productAt ring ty r.rm.toNat (if mx % 2 = 1 then ringIdentity ring else BitVec.ofNat 32 (k.code md e j)) (k.rowVals r.f4 ty ma e) (k.rowVals r.f4 ty mb j)
      k.tileElem r e = row (out.map (·.1.toNat)) (joinFlags out))
    ∧ (op = 0x48 → k.tileElem r e = row ((List.range cols).map fun i => k.code ma i e) 0)
    ∧ (op = 0x49 →
        let out := (k.rowVals r.f4 (mx % 8) ma e).map (convTo ty r.rm.toNat (w.imm.getLsbD 3 && !exactPair (mx % 8) ty))
        k.tileElem r e = row (out.map (·.1)) (out.foldl (fun f x => f ||| x.2) 0))
    ∧ (op = 0x4C →
        let out := (List.range cols).map fun j =>
          tewElem ty r.rm.toNat (mx % 8) (k.code ma e j) (k.code mb (if mx / 8 % 2 = 1 then 0 else e) j) (k.code md e j)
        k.tileElem r e = row (out.map (·.1)) (out.foldl (fun f x => f ||| x.2) 0))
    ∧ (op = 0x4D → k.tileElem r e = row (List.replicate cols (r.m.xa.toNat % 2 ^ tyWidth ty)) 0)
    ∧ (op = 0x4E →
        let out := softmaxRow ty r.rm.toNat (if mx % 2 = 1 then some (r.m.xa.setWidth 32) else none) (k.rowVals false ty ma e)
        k.tileElem r e = row out.1 out.2)

end Sys2Proof.Claims

namespace Sys2Proof.Claims

/-- R31, R187: writing a row of a tile with a legal shape sets its elements to the given codes and keeps every element of the other rows. -/
def TileRowsKeepTheirNeighbours : Prop :=
  ∀ (k : Core) (m row : Nat) (cs : List Nat), m < k.m.length → shapeBad (k.shape m) = false → row < shapeRows (k.shape m) →
    cs.length = shapeCols (k.shape m) → (∀ c ∈ cs, c < 2 ^ shapeEw (k.shape m)) →
    (k.setRow m row cs).rowCodes m row = cs
    ∧ (∀ q < shapeRows (k.shape m), q ≠ row → (k.setRow m row cs).rowCodes m q = k.rowCodes m q)
    ∧ ∀ n, n ≠ m → (k.setRow m row cs).tile n = k.tile n

end Sys2Proof.Claims

/-- The elements of the tile macros (R31, R33, R184, R185, R187, R189, R193, R196 to R203). Model's choices it rests on: notes/assumptions 4, 33, 34 (latencies; fp4 rows; TKLD). -/
def Obligations.MacroElementsComputeTheirTiles : Prop := MacroElementsComplete ∧ TileElementsComputeTheirRow ∧ TileRowsKeepTheirNeighbours

namespace Sys2Proof.Claims

/-- R347: an element waits while the four engine units of its page's die are busy, and else takes one that is free, for 256 bytes a cycle; the slot counts as the
one served last. Which free unit it takes is the model's choice (notes/assumptions 93). -/
def EngineUnitsAreShared : Prop :=
  ∀ (s : State) (t : Task) (p n bytes : Nat),
    let d := p / 40
    ((∀ c ∈ (s.die d).units, s.cycle < c) → s.takeUnit t p n bytes = none)
    ∧ ∀ s0, s.takeUnit t p n bytes = some s0 → ∃ u c, (s.die d).units[u]? = some c ∧ c ≤ s.cycle ∧ s0.focus.unit = u
        ∧ s0.pages = s.pages ∧ s0.tasks = s.tasks ∧ s0.hbm = s.hbm ∧ s0.cycle = s.cycle
        ∧ (d < s.dies.length → (s0.die d).units = (s.die d).units.set u (s.cycle + max 1 ((bytes + 255) / 256))
            ∧ (s0.die d).engLast = 8 * (p % 40) + n)

/-- R347, R356, R361, R353, R355: ENGINE_ELEMENT performs the next element of a busy command that is due, on a free engine unit, and moves elem on; the last one
clears busy, sets done and gives the end marker; a refused element traps with its address and leaves elem naming it. -/
def EngineElementsAdvance : Prop :=
  ∀ (s : State) (p n : Nat) (t : Task), s.focus.ev = .engineElement p n → s.owner p = some t →
    let e := s.eslot p n
    (e.busy = false ∨ s.cycle < e.due ∨ (s.page p).frozen = true → exec .vEngineElement s = .next s)
    ∧ (e.busy = true → e.due ≤ s.cycle → (s.page p).frozen = false →
        (∀ s1, e.opc = 0x74 → s.collWaits t p n e = some s1 → exec .vEngineElement s = .next s1)
        ∧ ((e.opc = 0x74 → s.collWaits t p n e = none) →
            (s.takeUnit t p n e.elemBytes = none → exec .vEngineElement s = .next s)
            ∧ ∀ s0, s.takeUnit t p n e.elemBytes = some s0 →
              (∀ s1, s0.engElem t p n e e.elem.toNat = .ok s1 →
                let s2 := s1.modSlot p n fun x => { x with elem := x.elem + 1, held := false, due := s.cycle + max 1 ((x.elemBytes + 255) / 256) }
                exec .vEngineElement s = .next (if e.elem.toNat + 1 < e.total then s2 else s2.engDone t p n))
              ∧ ∀ d va, s0.engElem t p n e e.elem.toNat = .error (d, va) →
                  let s1 := if d.cls = 2 ∧ d.code = 6 ∧ d.stage = 0 then s0.countVofl t.part else s0
                  exec .vEngineElement s = .next (s1.engineTrap p n d.cls d.code (some (s.resolve (s.who t p).home va)))))

end Sys2Proof.Claims

namespace Sys2Proof.Claims

/-- R361, R364: what an element of each copying command does: ECOPY moves element i; EGATH reads its source at the index; ESCAT writes its destination at the index; EFILL
writes its value, least significant byte first and repeating; gather and bcast write the element that the member has sent. -/
def EngineElementsMoveTheirBytes : Prop :=
  ∀ (s : State) (t : Task) (p n i : Nat) (e : Slot),
    let r0 := e.recs.getD 0 0
    let r1 := e.recs.getD 1 0
    let r2 := e.recs.getD 2 0
    let ord := e.order * 2 ^ 48 + i
    (∀ bs s1, e.opc = 0x70 → s.engRead t p (patCls r0) none (patAddr r0 i) (patEsz r0) = .ok (bs, s1) →
      s.engElem t p n e i = s1.engWrite t p (patCls r1) none ord (patAddr r1 i) bs)
    ∧ (∀ x s1 bs s2, e.opc = 0x71 → s.engRead t p (patCls r0) none (patAddr r0 i) (patEsz r0) = .ok (x, s1) →
        s1.engRead t p (patCls r1) none (patBase r1 + BitVec.ofInt 64 (sx 32 (leNat x)) * patStride r1 0) (patEsz r1) = .ok (bs, s2) →
        s.engElem t p n e i = s2.engWrite t p (patCls r2) none ord (patAddr r2 i) bs)
    ∧ (∀ x s1 bs s2, e.opc = 0x72 → s.engRead t p (patCls r0) none (patAddr r0 i) (patEsz r0) = .ok (x, s1) →
        s1.engRead t p (patCls r1) none (patAddr r1 i) (patEsz r1) = .ok (bs, s2) →
        s.engElem t p n e i = s2.engWrite t p (patCls r2) none ord (patBase r2 + BitVec.ofInt 64 (sx 32 (leNat x)) * patStride r2 0) bs)
    ∧ (e.opc = 0x73 → s.engElem t p n e i = s.engWrite t p (patCls r0) none ord (patAddr r0 i)
        ((List.range (patEsz r0)).map fun j => e.fill.extractLsb' (8 * (j % 8)) 8))
    ∧ (e.opc = 0x74 → e.collOp = 1 ∨ e.collOp = 2 →
        let m := if e.collOp = 1 then i / patN r0 else 0
        let j := if e.collOp = 1 then i % patN r0 else i
        let sent := (((s.collSet t (s.page p).rp n e.coll).getD m none).map (·.sent)).getD []
        s.engElem t p n e i = s.engWrite t p (patCls r1) none ord (patAddr r1 i) ((sent.drop (j * patEsz r0)).take (patEsz r0)))

end Sys2Proof.Claims

/-- The elements of the engine commands (R347, R353, R355, R356, R361, R364). Model's choices it rests on: notes/assumptions 4, 93 (latencies; which unit serves). -/
def Obligations.EngineElementsAdvanceAndCopy : Prop := EngineUnitsAreShared ∧ EngineElementsAdvance ∧ EngineElementsMoveTheirBytes

/-- R347, R364, R365, R373: COLL_CONTRIBUTION sends the next source element of a running member's command on a free engine unit, and a refused read traps the sender; COLL_TIMEOUT, once the
limit is passed, raises coll_timeout on every running member whose command holds, names the absent member, and lets every absent member end with it; before the
limit nothing happens. Model's choices it rests on: notes/assumptions 4, 51 (latencies; absent members). -/
def Obligations.CollectivesArriveOrTimeOut : Prop :=
  (∀ (s : State) (p n : Nat) (t : Task) (c : Coll), s.focus.ev = .collContribution p n → s.owner p = some t →
    t.coll (s.page p).rp n (s.eslot p n).coll = some c →
    let e := s.eslot p n
    let i := c.sent.length / patEsz c.src
    (t.sends (s.page p).rp n e = false ∨ t.active = false ∨ (s.page p).frozen = true → exec .vCollContribution s = .next s)
    ∧ (t.sends (s.page p).rp n e = true → t.active = true → (s.page p).frozen = false →
        (s.takeUnit t p n (patEsz c.src) = none → exec .vCollContribution s = .next s)
        ∧ ∀ s0, s.takeUnit t p n (patEsz c.src) = some s0 →
          (∀ bs s1, s0.engRead t p (patCls c.src) none (patAddr c.src i) (patEsz c.src) = .ok (bs, s1) →
            exec .vCollContribution s = .next (s1.modTask t.tid fun u =>
              { u with colls := u.colls.map fun x => if x = c then { x with sent := x.sent ++ bs } else x }))
          ∧ ∀ d va, s0.engRead t p (patCls c.src) none (patAddr c.src i) (patEsz c.src) = .error (d, va) →
              exec .vCollContribution s = .next (s0.engineTrap p n d.cls d.code (some (s.resolve (s.who t p).home va)))))
  ∧ ∀ (s : State) (p n : Nat) (t : Task), s.focus.ev = .collTimeout p n → s.owner p = some t →
      let e := s.eslot p n
      let rp := (s.page p).rp
      (s.collLate t e = false → exec .vCollTimeout s = .next s)
      ∧ ∀ m, s.collLate t e = true → s.collAbsent t rp n e = some m →
          exec .vCollTimeout s = .next ((s.mates t).foldl (timeOut n e.coll rp (BitVec.ofNat 128 (m % 65536))) s)

/-- R288, R296, R298, R345: L2_FILL serves the oldest fill that may proceed: a fill that waits takes its way when one is free of fills; then an ordinary line's data arrive,
and a line of a compression range joins the expander queue; EXPANDER_DELIVER hands on the head of the queue in its L2 cycle. Model's choices it rests on:
notes/assumptions 4, 23, 70 (latencies; metadata cache; L2 cycles). -/
def Obligations.FillsEnterTheirSlice : Prop :=
  (∀ (s : State) (d si : Nat), s.focus.ev = .l2Fill d si →
    let sl := (s.die d).slices.getD si {}
    let put := fun (u : State) (g : Slice → Slice) => u.modDie d fun x => { x with slices := modAt x.slices si g }
    let without := fun (f : Fill) => sl.fills.filter fun g => decide (g ≠ f)
    (sl.fills.find? (Fill.ripe · s.cycle) = none → exec .vL2Fill s = .next s)
    ∧ ∀ f, sl.fills.find? (Fill.ripe · s.cycle) = some f →
        (f.taken = false →
          (s.pickWay d si f = none → exec .vL2Fill s = .next (put s fun y =>
            { y with fills := y.fills.map fun g => if g = f then { g with start := s.cycle + 1 } else g }))
          ∧ ∀ k, s.pickWay d si f = some k → exec .vL2Fill s = .next (put (s.takeWay d si f k) fun y =>
            { y with fills := y.fills.map fun g => if g = f then { g with taken := true } else g }))
        ∧ (f.taken = true → f.rng = none → exec .vL2Fill s = .next (put s fun y =>
            { y with lines := y.lines.map (fun l => if l.line = f.line then { l with busy := false } else l), fills := without f }))
        ∧ (f.taken = true → f.rng ≠ none → exec .vL2Fill s = .next (put s fun y => { y with fills := without f, xq := y.xq ++ [f] })))
  ∧ ∀ (s : State) (d si : Nat) (f : Fill) (r : List Fill), s.focus.ev = .expanderDeliver d si →
      ((s.die d).slices.getD si {}).xq = f :: r →
      (s.cycle * 4 / 3 < f.out → exec .vExpanderDeliver s = .next s)
      ∧ (f.out ≤ s.cycle * 4 / 3 → exec .vExpanderDeliver s = .next (s.modDie d fun x => { x with slices := modAt x.slices si fun y =>
          { y with lines := y.lines.map (fun l => if l.line = f.line then { l with busy := false } else l), xq := r } }))

namespace Sys2Proof.Claims

/-! ## Traps, tasks and their scheduling -/

/-- Who receives a copy of a trap record: operator, lessee (R375, R416). -/
def copyTo (s : State) (t : Task) (c : Cause) : Bool × Bool :=
  let both := decide ((c.cls = 3 ∧ c.code ∈ [1, 3, 12]) ∨ (c.cls = 2 ∧ c.code = 7) ∨ (c.cls = 5 ∧ c.code = 1))
  (both || decide (c.cls = 2 ∧ c.code = 2 ∧ s.stageOf t c.addr = 2), both || decide ((c.cls = 2 ∧ (c.code = 2 ∨ c.code = 4)) ∨ c.cls = 4))

end Sys2Proof.Claims

/-- R371 to R375, R377: of the causes of one cycle the first by class, region page and unit is recorded; TRAP_FREEZE freezes every page of the task and posts the
record with the task's numbers and the page's pc, sstep and seqst; the wave words then at a core carry the freeze bit (R15); it waits 2^24 cycles for the instance's
decision when the instance reads faults, and else the task ends, gives up its pages and commits nothing; a thawed page runs again from its frozen word. Model's choices
it rests on: notes/assumptions 28, 49 (fields of a record that no rule fills). -/
def Obligations.TrapsFreezeAndRecord : Prop :=
  (∀ cs c, pickCause cs = some c → c ∈ cs ∧ ∀ d ∈ cs, d.before c = false)
  ∧ (∀ (s : State) (tid : Nat) (t : Task) (c : Cause), s.focus.ev = .trapFreeze tid → s.task tid = some t → t.tid = tid → t.dual = none →
      t.state ≠ .ended → pickCause t.causes = some c →
      (t.trap.isSome = true → exec .vTrapFreeze s = .next (s.modTask tid fun t => { t with causes := [] }))
      ∧ (t.trap = none →
          let s1 := (s.modTask tid fun t => { t with causes := [] }).freezeNow t
          let t1 : Task := { t.markWaves 3 s.cycle with causes := [], frozenAt := s.cycle }
          let x := s1.spill t1
          s1.task tid = some t1 ∧ (∀ p ∈ t.pages, (s1.page p).frozen = true)
          ∧ exec .vTrapFreeze s = .next (x.1.postTrap ((x.1.task tid).getD t1) (x.1.trapRecord t1 c x.2))))
  ∧ (∀ (s : State) (t : Task) (c : Cause) (b : Bool) (p : Nat), t.phys c.page = some p → c.cls ≠ 4 → c.cls ≠ 5 →
      let r := s.trapRecord t c b
      (r.cause.cls, r.cause.code, r.cause.page, r.cause.core, r.cause.lane, r.cause.addr, r.cause.word) = (c.cls, c.code, c.page, c.core, c.lane, c.addr, c.word)
        ∧ (r.tid, r.ctag, r.tco, r.cycle) = (t.tid, 16 * t.part + t.tenant, t.tco, s.cycle)
        ∧ (r.pc, r.sstep, r.seqst) = ((s.page p).pc, (s.page p).sstep, (s.page p).seqst))
  ∧ (∀ (s : State) (t : Task) (r : TrapRec),
      let s1 := s.report t.part (copyTo s t r.cause).1 (copyTo s t r.cause).2 r
      let g := s1.inst t.inst.die t.inst.slot
      s.postTrap t r =
        if g.live = true ∧ g.gen = t.inst.gen ∧ g.frdSeen = true then
          (s1.modTask t.tid fun t =>
            { t with trap := some r, trapRead := false, deadline := some (s.cycle + 2 ^ 24), frozenAt := s.cycle }).modInst t.inst.die t.inst.slot
              fun g => { g with faults := g.faults ++ [t.tid] }
        else s1.endTask t.tid)
  ∧ (∀ (s : State) (tid d : Nat) (t : Task), s.focus.ev = .faultDeadline tid → s.task tid = some t → t.deadline = some d →
      exec .vFaultDeadline s = .next (if d ≤ s.cycle then s.endTask tid else s))
  ∧ (∀ (s : State) (tid : Nat) (t : Task), s.task tid = some t → t.tid = tid → t.dual = none → t.state ≠ .ended →
      (∃ w, (s.endTask tid).task tid = some w ∧ w.state = .ended ∧ w.endTrap = true ∧ w.ver = [] ∧ w.reds = [] ∧ w.trap = none)
      ∧ ∀ p ∈ s.heldPages tid, ((s.endTask tid).page p).owner = none)
  ∧ ∀ (s : State) (t : Task), ∀ p ∈ t.pages, (s.thawTask t).page p = { s.page p with frozen := false, yielded := false }

/-- R234, R237, R238, R240: selection takes the lowest level with a selectable task and there the round-robin's tenant; a selected queued task enters lease-wait, a saved
one has its image checked again for page-wait; a tenant may hold one unit of each in these states; a waiting task rises one level behind its queue every 2^20 cycles; a
running task is charged every 2^16 cycles, and over its quantum beside a rival it is asked to yield; a task that has waited 2^14 cycles, with all that it is placed
with, asks tasks of higher levels to yield when on every die their pages suffice. Model's choices it rests on: notes/assumptions 37 (order of selection). -/
def Obligations.TasksAreSelectedAndCharged : Prop :=
  (∀ (s : State) (part die l : Nat), s.selectLevel part die = some l →
      (∃ t < 16, s.selectable part die l t = true) ∧ ∀ m < l, ∀ t < 16, s.selectable part die m t = false)
  ∧ (∀ (s : State) (part die l x : Nat), s.selectable part die l x = true ↔ s.weight part x ≠ 0 ∧ ∃ h r, s.queueOf part die l x = h :: r
      ∧ ∀ e ∈ s.tasks, ¬ (e.2.part = part ∧ e.2.inst.die = die ∧ e.2.level = l ∧ e.2.tenant = x
          ∧ e.2.state = (if h.state = .saved then TState.pageWait else TState.leaseWait)))
  ∧ (∀ weight q empty ok fuel t d x y, selectLoop weight q empty ok fuel t d = some (x, y) →
      weight x ≠ 0 ∧ empty x = false ∧ ok x = true ∧ 0 < y.getD x 0)
  ∧ (∀ (s : State) (die part : Nat), s.focus.ev = .taskSelect die part → s.selectLevel part die = none → exec .vTaskSelect s = .next s)
  ∧ (∀ (s : State) (die part l x : Nat) (d : List Int) (h : Task), s.focus.ev = .taskSelect die part → s.selectLevel part die = some l →
      (let sc := s.sched part die
       selectLoop (s.weight part) (s.quantum part) (fun t => (s.queueOf part die l t).isEmpty) (s.selectable part die l)
         (16 * (sc.deficit.foldl (fun m d => max m d.natAbs) 0 / s.quantum part + 3)) (sc.ptr.getD l 0) sc.deficit = some (x, d)) →
      (s.queueOf part die l x).head? = some h →
      exec .vTaskSelect s = .next ((s.unitOf h).foldl (fun s u =>
        if u.state = .saved then s.later (.event (.imageCheck u.tid))
        else s.modTask u.tid fun u => { u with state := .leaseWait, memSince := s.cycle, leaseOk := u.leaseOk && u.restore })
          (s.modSched part die fun c => { c with deficit := d, ptr := c.ptr.set l x })))
  ∧ (∀ (s : State) (tid : Nat) (t : Task), s.focus.ev = .taskAging tid → s.task tid = some t → 
      exec .vTaskAging s = .next (if t.waits = true ∧ 1 < t.level ∧ t.agedAt + 2 ^ 20 ≤ s.cycle then
        s.modTask tid fun u => { u with level := t.level - 1, qpos := s.backPos t.part t.inst.die (t.level - 1) t.tenant, agedAt := t.agedAt + 2 ^ 20 } else s))
  ∧ (∀ (s : State) (tid : Nat) (t : Task), s.focus.ev = .deficitCharge tid → s.task tid = some t → t.tid = tid →
      (t.state ≠ .running ∨ s.cycle < t.charged + 2 ^ 16 → exec .vDeficitCharge s = .next s)
      ∧ (t.state = .running → t.charged + 2 ^ 16 ≤ s.cycle →
          let s1 := (s.modSched t.part t.inst.die fun c => { c with deficit := modAt c.deficit t.tenant fun d =>
            d - ((s.heldPages tid).length * (s.cycle - t.charged) : Nat) }).modTask tid fun t => { t with charged := s.cycle }
          let past := (s1.sched t.part t.inst.die).deficit.getD t.tenant 0 < -((s.weight t.part t.tenant * s.quantum t.part : Nat) : Int)
          let rival := ∃ u < 16, u ≠ t.tenant ∧ s.selectable t.part t.inst.die t.level u = true
          (past → rival → t.preqAt = none → exec .vDeficitCharge s = .next (s1.later (.event (.preemptRequest tid 1))))
          ∧ (¬ (past ∧ rival ∧ t.preqAt = none) → exec .vDeficitCharge s = .next s1)))
  ∧ ∀ (s : State) (tid : Nat) (t : Task), s.focus.ev = .priorityPreempt tid → s.task tid = some t →
      (t.state ≠ .pageWait ∨ s.cycle < t.memSince + 2 ^ 14 → exec .vPriorityPreempt s = .next s)
      ∧ (t.state = .pageWait → t.memSince + 2 ^ 14 ≤ s.cycle →
          let prey := fun d => (s.tasks.map (·.2)).filter fun u => decide (u.part = t.part ∧ u.die = d ∧ u.state = .running ∧ t.level < u.level)
          let free := fun d => (s.freePages t.part d).length
          let need := fun d => max 1 (((s.gang t).filter fun u => decide (u.die = d)).map Task.leastPages).sum
          let total := fun d => free d + ((prey d).map fun u => (s.heldPages u.tid).length).sum
          ((∃ u ∈ s.gang t, total u.die < need u.die) → exec .vPriorityPreempt s = .next s)
          ∧ ((∀ u ∈ s.gang t, need u.die ≤ total u.die) →
              ∃ asked : List Task, (∀ u ∈ asked, u.preqAt = none ∧ u ∈ prey u.die ∧ ∃ m ∈ s.gang t, m.die = u.die ∧ free m.die < need m.die)
                ∧ (∀ m ∈ s.gang t, ∀ u ∈ prey m.die, (∀ v ∈ prey m.die, v = u ∨ v.level < u.level ∨ (v.level = u.level ∧ v.startSeq < u.startSeq)) →
                    free m.die < need m.die → u.preqAt = none → u ∈ asked)
                ∧ exec .vPriorityPreempt s = .next (asked.foldl (fun s u => s.later (.event (.preemptRequest u.tid 0))) s)))

/-- R234, R235, R236, R242, R243, R246, R303, R390, R482: LEASE_RESIDENT pins the windows' pages of a resident lease or reports the stage that fails; IMAGE_CHECK takes a
task with a checked image to page-wait, a saved one too, ends one whose image is refused and traps one whose image cannot be read for an error of the memory; REGION_PLACE
gives free pages whose links meet their delays to a gang that finds them all, and else compacts the partition, or folds the members where they permit it; four pages of a
die are written at a time in 3,200 cycles; CONFIG_LOAD starts every sequencer of the loaded pages from its record; TASK_END turns a halted task to ending, and then commits
it, ends it and signals its event, or holds while its commit waits for a snapshot. Model's choices it rests on: notes/assumptions 11, 38, 42, 87, 88, 90 (refusal records;
unused fields; time of a load; held commits; window tables; pages not written again). -/
def Obligations.TasksPassThroughTheirStates : Prop :=
  (∀ (s : State) (tid : Nat) (t : Task), s.focus.ev = .leaseResident tid → s.task tid = some t →
      (t.state ≠ .leaseWait ∨ t.leaseOk = true ∨ t.leaseFault.isSome = true → exec .vLeaseResident s = .next s)
      ∧ (t.state = .leaseWait → t.leaseOk = false → t.leaseFault = none →
          let home := t.home.getD t.die
          (∀ es, s.residence t.part t.tenant home t.rcd.lbase t.rcd.lsize.toNat = .ok es →
            let w := pintleWho t.part t.tenant home
            let wins := if t.wins.length = t.rcd.wcount ∨ t.rcd.wtab = 0 then t.wins else ((s.readWins w t.rcd).toOption.join).getD []
            let s1 := if wins = t.wins then s else s.ctxTouch w .record t.rcd.wtab (72 * t.rcd.wcount)
            let ws := s.windowPages { t with wins := wins } es
            exec .vLeaseResident s = .next ((s1.pin ws).modTask tid fun t =>
              { t with leaseOk := true, wins := wins, pins := ws.map fun (d, e) => pinKey d e.part e.tenant e.vpn }))
          ∧ ∀ st, s.residence t.part t.tenant home t.rcd.lbase t.rcd.lsize.toNat = .error st →
              exec .vLeaseResident s = .next (if s.graphLease t then s.modTask tid fun t => { t with leaseOk := true }
                else (s.modTask tid fun t => { t with leaseFault := some st }).leaseReport t.part t.tenant tid st)))
  ∧ (∀ (s : State) (tid : Nat) (t : Task), s.focus.ev = .imageCheck tid → s.task tid = some t →
      let ready := t.state = .saved ∨ (t.state = .leaseWait ∧ t.leaseOk = true)
      let full := ∃ u ∈ s.tasks, u.2.part = t.part ∧ u.2.inst.die = t.inst.die ∧ u.2.level = t.level ∧ u.2.tenant = t.tenant ∧ u.2.state = .pageWait
        ∧ (t.mset = none ∨ u.2.mset ≠ t.mset) ∧ u.2.dual ≠ some tid
      (¬ ready ∨ t.trap.isSome = true ∨ full → exec .vImageCheck s = .next s)
      ∧ (ready → t.trap = none → ¬ full →
          let home := t.home.getD t.die
          (s.readImage t = .error dIntegrity → exec .vImageCheck s = .next (s.postTrap t
            { cause := { cls := 2, code := 7, core := 0xFF, flags := 8, addr := s.resolve home t.rcd.config }, tid := t.tid, ctag := 16 * t.part + t.tenant
              tco := t.tco, cycle := s.cycle }))
          ∧ (∀ d, s.readImage t = .error d → d ≠ dIntegrity → exec .vImageCheck s = .next (s.refuseLoad t { reason := 0x12 }))
          ∧ ∀ bs, s.readImage t = .ok bs →
              let s1 := s.ctxTouch (pintleWho t.part t.tenant home) .fetch t.rcd.config bs.length
              (∀ r, s.checkImage t.part bs = .error r → exec .vImageCheck s = .next (s1.refuseLoad t r))
              ∧ ∀ m e, s.checkImage t.part bs = .ok (m, e) →
                  (∀ r, t.winRefuse m = some r → exec .vImageCheck s = .next (s1.refuseLoad t r))
                  ∧ (t.winRefuse m = none → exec .vImageCheck s = .next (s1.modTask tid fun t =>
                      { t with state := .pageWait, memSince := s.cycle, npages := m.pages.length
                               img := { bytes := bs, signer := e.signer, folded := t.img.folded && t.restore } }))))
  ∧ (∀ (s : State) (tid : Nat) (t : Task), s.focus.ev = .regionPlace tid → s.task tid = some t →
      (t.state ≠ .pageWait ∨ (∃ u ∈ s.gang t, u.state ≠ .pageWait) → exec .vRegionPlace s = .next s)
      ∧ (t.state = .pageWait → (∀ u ∈ s.gang t, u.state = .pageWait) →
          let start := fun (l : List (Task × Bool × List Nat × List Nat × Option (Nat × Nat))) =>
            let done := s.cycle + s.loadTime (l.map fun x => (x.1, x.2.1, x.2.2.1))
            l.foldl (fun s x => s.takePages x.1 x.2.1 x.2.2.1 x.2.2.2.1 x.2.2.2.2 done) s
          (∀ l, s.placeAll false (s.gang t) [] [] = some l → exec .vRegionPlace s = .next (start l))
          ∧ (s.placeAll false (s.gang t) [] [] = none →
              (s.compacting t.part = true → exec .vRegionPlace s = .next s)
              ∧ (s.compacting t.part = false →
                  (s.compactable t (s.gang t) ≠ [] → exec .vRegionPlace s = .next ((s.compactable t (s.gang t)).foldl
                    (fun s u => s.later (.event (.preemptRequest u.tid 2))) (s.modPart t.part fun x => { x with compacted := some s.cycle })))
                  ∧ (s.compactable t (s.gang t) = [] →
                      (∀ l, s.placeAll true (s.gang t) [] [] = some l → exec .vRegionPlace s = .next (start l))
                      ∧ (s.placeAll true (s.gang t) [] [] = none → exec .vRegionPlace s = .next s))))))
  ∧ (∀ (s : State) (l : List (Task × Bool × List Nat)) (d : Nat), d < 4 → ∀ x ∈ l, (∀ p ∈ x.2.2, p / 40 = d) →
      (x.1.restore = true ∨ ∀ y ∈ x.2.2.zipIdx, s.written x.1 x.2.1 y.2 y.1 = false) → 3200 * ((x.2.2.length + 3) / 4) ≤ s.loadTime l)
  ∧ (∀ (s : State) (t : Task) (links : List Nat) (taken : List (Nat × Nat)) (ps all : List Nat), links ≠ [] →
      s.findPlace t links taken = some (ps, all) →
      ps.length = links.length ∧ (∀ p ∈ ps, s.pageFree p = true ∧ p ∈ all) ∧ (∀ i, i + 1 < ps.length → natural (ps.getD i 0) (ps.getD (i + 1) 0) ≤ links.getD (i + 1) 0))
  ∧ (∀ (s : State) (tid due : Nat) (t : Task) (m : Img), s.focus.ev = .configLoad tid → s.task tid = some t → t.loadDone = some due →
      parseImg t.img.bytes = .ok m →
      (t.state ≠ .loading ∨ t.restore = true ∨ s.cycle < due → exec .vConfigLoad s = .next s)
      ∧ (t.state = .loading → t.restore = false → due ≤ s.cycle →
          let t1 := { t with state := TState.running, home := some (t.home.getD t.die), loadDone := none, startSeq := s.nextStart
                             images := (m.weights.map wsImage).eraseDups, charged := s.cycle }
          let s1 : State := { (s.charge t).setTask t1 with nextStart := s.nextStart + 1 }
          let s2 := ((t.pages.zipIdx.foldl (fun s x => s.loadPage t1 m x.2 x.1) s1).fillWeights t1 m).markReady t1 m
          let s3 := t.wins.foldl (fun s e => match s.winPlace t1 e with
            | none => s
            | some (p, n) => s.modPage p fun pg => pg.applyWin n e) s2
          exec .vConfigLoad s = .next ((if t1.keeps then s3.modTask tid fun u => { u with check := (s3.taskPages u).map Page.checkpoint } else s3).startPorts t1)))
  ∧ (∀ (s : State) (t : Task) (m : Img) (rp p : Nat),
      let pg := (s.loadPage t m rp p).page p
      pg.owner = some t.tid ∧ pg.rp = rp ∧ pg.pc = 0 ∧ pg.x = List.replicate 16 0 ++ t.rcd.param ∧ pg.tid = BitVec.ofNat 32 t.tid ∧ pg.tco = t.tco
        ∧ pg.pdl = t.rcd.pdl ∧ pg.sstep = 0 ∧ pg.seqst = 0 ∧ pg.running = true)
  ∧ ∀ (s : State) (tid : Nat) (t : Task), s.focus.ev = .taskEnd tid → s.task tid = some t →
      (s.canEnd t = true → exec .vTaskEnd s = .next (s.modTask tid fun t => { t with state := .ending }))
      ∧ (s.canEnd t = false → t.state ≠ .ending ∨ s.cutOff t = true → exec .vTaskEnd s = .next s)
      ∧ (t.tid = tid → t.state = .ending → s.cutOff t = false → t.dual = none →
          let s1 := (((s.commit t.part [t] [tid]).emptyL1s t).takeSeals t.part [t]).release1 t false
          (∀ s0, s.commitHeld t.part [t] [tid] = some s0 → exec .vTaskEnd s = .next s0)
          ∧ (s.commitHeld t.part [t] [tid] = none →
              exec .vTaskEnd s = .next (if t.rcd.cflags.getLsbD 0 then s1.signal t.part t.rcd.cev 1 else s1))
          ∧ (∃ w, s1.task tid = some w ∧ w.state = .ended ∧ w.endTrap = false) ∧ ∀ p ∈ s.heldPages tid, (s1.page p).owner = none)

/-- R32, R150, R281, R380 to R388: PREEMPT_REQUEST sets preq with its cause on every page of a running task and its partner in one cycle, gives up a load in progress,
and asks for the restart of a task that may restart at slice end; COOPERATIVE_SAVE and FORCED_SAVE write a task that has come to rest into its save slot and free its
pages, weight registers, keyed banks and keyed link inputs left out; SLICE_END_RESTART queues it again from its superstep's start; TASK_RESTORE puts the saved pages
back, reads again what the save left out, and runs them on, or ends the task with its trap. Model's choices it rests on: notes/assumptions 24, 25, 40, 50, 85 (save
slots; what a restore keeps; deadlines; a refill that fails). -/
def Obligations.PreemptionSavesAndRestores : Prop :=
  (∀ (s : State) (tid cause : Nat) (t : Task), s.focus.ev = .preemptRequest tid cause → s.task tid = some t →
      (t.state = .loading → exec .vPreemptRequest s = .next ((s.both t).foldl State.dropLoad s))
      ∧ (t.state ≠ .loading → t.state ≠ .running ∨ t.preqAt.isSome = true → exec .vPreemptRequest s = .next s)
      ∧ (t.state = .running → t.preqAt = none →
          let slice := cause = 1 ∧ s.trapped t = false ∧ s.sliceRestart t = true
          (slice → exec .vPreemptRequest s = .next (s.later (.event (.sliceEndRestart tid))))
          ∧ (¬ slice → (∀ u ∈ s.both t, u.saveSlot.isSome = true) → Answers (exec .vPreemptRequest s) fun v =>
              (∀ u ∈ s.both t, ∀ p ∈ u.pages, v.page p = { s.page p with preq := BitVec.ofNat 64 (1 + 2 * (cause % 4)) })
              ∧ (t.tid = tid → t.dual = none → v.task tid = some { t with preqAt := some s.cycle, preqCause := cause % 4 }))))
  ∧ (∀ (s : State) (tid : Nat) (t : Task), s.focus.ev = .sliceEndRestart tid → s.task tid = some t → t.dual = none →
      exec .vSliceEndRestart s = .next (if t.state = .running ∧ s.trapped t = false ∧ s.sliceRestart t = true then
        (s.restartTask t).saveTask (((s.restartTask t).task t.tid).getD t) .queued else s))
  ∧ (∀ (s : State) (tid : Nat) (t : Task), s.focus.ev = .cooperativeSave tid → s.task tid = some t → t.tid = tid → t.dual = none →
      exec .vCooperativeSave s = .next (if s.trapped t = false ∧ s.saveReady t false = true then
        (s.modTask tid fun u => { u with frozenAt := s.cycle }).saveBoth { t with frozenAt := s.cycle } else s))
  ∧ (∀ (s : State) (tid req : Nat) (t : Task), s.focus.ev = .forcedSave tid → s.task tid = some t → t.dual = none → t.preqAt = some req →
      (t.state ≠ .running ∨ s.trapped t = true → exec .vForcedSave s = .next s)
      ∧ (t.state = .running → s.trapped t = false →
          (4 ≤ t.preqCause → exec .vForcedSave s = .next (if s.saveReady t true then s.saveBoth t else s))
          ∧ (t.preqCause < 4 → s.cycle < s.deadlineOf t req → exec .vForcedSave s = .next s)
          ∧ (t.preqCause < 4 → s.deadlineOf t req ≤ s.cycle →
              exec .vForcedSave s = .next ((s.freezeNow t).modTask t.tid fun u => { u with preqCause := u.preqCause + 4 }))))
  ∧ (∀ (s : State) (tid : Nat) (t : Task) (next : TState), s.task tid = some t → t.tid = tid →
      (∃ w, (s.saveTask t next).task tid = some w ∧ w.state = next ∧ w.restore = true ∧ w.save = t.pages.map (fun p => (s.page p).saved) ∧ w.pages = []
        ∧ w.ver = t.ver ∧ w.preqAt = none)
      ∧ (∀ p ∈ s.heldPages tid, ((s.saveTask t next).page p).owner = none)
      ∧ ∀ p, p ∉ s.heldPages tid → (s.saveTask t next).page p = s.page p)
  ∧ (∀ (pg : Page) (c : Nat), c < pg.cores.length →
      let k := pg.core c
      let u := pg.saved.core c
      u.w = List.replicate 16 {} ∧ (∀ i, (k.lin.getD i {}).key = true → (u.lin.getD i {}).v.lanes = 0)
      ∧ (Memory.wf k.sp = true → ∀ a, cellGet u.sp a = if k.ckb.getLsbD (a / 65536) then 0 else cellGet k.sp a)
      ∧ (u.v, u.s, u.m, u.cfr, u.hist, u.kprog, u.mprog) = (k.v, k.s, k.m, k.cfr, k.hist, k.kprog, k.mprog))
  ∧ ∀ (s : State) (tid due : Nat) (t : Task), s.focus.ev = .taskRestore tid → s.task tid = some t → t.loadDone = some due →
      (t.state ≠ .loading ∨ t.restore = false ∨ s.cycle < due ∨ t.trap.isSome = true → exec .vTaskRestore s = .next s)
      ∧ (t.state = .loading → t.restore = true → due ≤ s.cycle → t.trap = none →
          let s1 := (s.charge t).restored t
          let t1 := s.restoredTask t
          let ends := fun (c : Cause) => exec .vTaskRestore s = .next (s.postTrap t (s1.trapRecord t1 c false))
          (s.slotBad t = true → ends { cls := 3, code := 12, core := 0xFF })
          ∧ (∀ m, s.slotBad t = false → t.failed = some m → ends { cls := 1, code := 20, core := 0xFF, info := BitVec.ofNat 128 m })
          ∧ (∀ c, s.slotBad t = false → t.failed = none → (s1.readBack t1).refill t1 = .error c → ends c)
          ∧ (∀ s4, s.slotBad t = false → t.failed = none → (s1.readBack t1).refill t1 = .ok s4 →
              exec .vTaskRestore s = .next ((s4.resumePages ((s4.task tid).getD t1)).lostSnapshot t))
          ∧ ((∀ p ∈ t.pages, (s1.page p).spillPos = none ∧ (s1.page p).weightPort 1 = false
                ∧ ∀ c < 8, (s1.core p c).kbsrc = [] ∧ ∀ i < 8, ((s1.core p c).lin.getD i {}).key = false) → (s1.readBack t1).refill t1 = .ok s1)
          ∧ (t1.state, t1.restore, t1.save, t1.startSeq) = (.running, false, [], s.nextStart)
          ∧ (t.tid = tid → t.pages.Nodup → ∀ rp p, t.phys rp = some p →
              let pg := t.save.getD rp {}
              ((s1.page p).owner, (s1.page p).rp, (s1.page p).preq) = (some tid, rp, 0)
                ∧ ((s1.page p).pc, (s1.page p).x, (s1.page p).phase, (s1.page p).rep, (s1.page p).sstep) = (pg.pc, pg.x, pg.phase, pg.rep, pg.sstep)
                ∧ (s1.page p).cores.length = pg.cores.length
                ∧ ∀ c < pg.cores.length, ((s1.core p c).v, (s1.core p c).s, (s1.core p c).sp) = ((pg.core c).v, (pg.core c).s, (pg.core c).sp)))

namespace Sys2Proof.Claims

/-! ## Graph words -/

/-- The word in focus writes g register gd, unless it is without a result, and the next word of the instance follows. -/
def Goes (o : Res) (s : State) (f : GInst → GInst) : Prop := o = .next (s.modInst s.focus.die s.focus.inst f)

/-- The instance after a word that writes v into gd. -/
def gResult (g : GInst) (gd : BitVec 4) (v : W64) : GInst := { g with g := g.g.set gd.toNat v, phase := .ready, pc := g.pc + 1 }

/-- The registers of the instance in focus. -/
def gOf (s : State) (n : BitVec 4) : W64 := (s.inst s.focus.die s.focus.inst).g.getD n.toNat 0

/-- The second operand: gb, or imm sign-extended when i = 1 (R257). -/
def gB (w : GWord) (s : State) : W64 := if w.mod.getLsbD 0 then w.imm.signExtend 64 else gOf s w.gb

/-- The graph words that compute a register from registers (R257). -/
def graphWords : List ((GWord → Instr) × (GWord → State → W64)) :=
  [(.gGli, fun w s => if w.mod.getLsbD 0 then BitVec.ofNat 64 (w.imm.toNat * 2 ^ 32 + (gOf s w.gd).toNat % 2 ^ 32) else w.imm.signExtend 64),
   (.gGadd, fun w s => gOf s w.ga + gB w s),
   (.gGsub, fun w s => gOf s w.ga - gB w s),
   (.gGand, fun w s => gOf s w.ga &&& gB w s),
   (.gGcmp, fun w s =>
      let a := gOf s w.ga
      let b := gB w s
      let c := fld w.mod 3 1
      let holds := if c = 0 then a == b else if c = 1 then a != b else if c = 2 then a.slt b else if c = 3 then a.sle b else if c = 4 then a.ult b else a.ule b
      if holds then 1 else 0)]

/-- A branch to a word: loops whose body does not hold it are left (R261). -/
def branchTo (target : Nat) (g : GInst) : GInst :=
  { g with pc := target, phase := .ready, loops := g.loops.filter fun l => decide (l.first ≤ target ∧ target ≤ l.fin) }

/-- The word in focus raises a graph fault: the open step is discarded and the instance closes with code 0xFFFF and the fault's number; its waiting records end
their tasks (R269, R268). -/
def Faults (o : Res) (s : State) (code : Nat) : Prop :=
  o = .next ((s.inst s.focus.die s.focus.inst).faults.foldl State.endTask (s.modInst s.focus.die s.focus.inst fun g =>
    { g with stepOpen := false, step := [], phase := .closing 0xFFFF code
             launches := g.launches.map fun l => if l.inStep then { l with inStep := false, left := 0 } else l }))

/-- 2^63 + status: the result of a graph word that fails (R256). -/
def failCode (status : Nat) : W64 := BitVec.ofNat 64 (2 ^ 63 + status)

end Sys2Proof.Claims

/-- R257, R261: GLI, GADD, GSUB, GAND and GCMP write gd and go on; BR and BRC leave the loops that do not hold their target; LOOP skips its body for a count of 0
and else pushes it, ENDL runs it again until its count is used up; no other instance, no byte of memory and no other state changes. -/
def Obligations.GraphRegisterWords : Prop :=
  (∀ x ∈ graphWords, ∀ (w : GWord) (s : State), Goes (exec (x.1 w) s) s fun g => gResult g w.gd (x.2 w s))
  ∧ (∀ (w : GWord) (s : State), Goes (exec (.gBr w) s) s (branchTo w.imm.toNat))
  ∧ (∀ (w : GWord) (s : State),
      let taken := decide (gOf s w.ga = 0) == w.mod.getLsbD 0
      Goes (exec (.gBrc w) s) s fun g => if taken then branchTo w.imm.toNat g else { g with phase := .ready, pc := g.pc + 1 })
  ∧ (∀ (w : GWord) (s : State),
      let n := if w.mod.getLsbD 0 then w.imm.toNat else (gOf s w.ga).toNat % 2 ^ 32
      Goes (exec (.gLoop w) s) s fun g =>
        if n = 0 then { g with pc := g.matching g.pc + 1, phase := .ready }
        else { g with loops := { first := g.pc + 1, fin := g.matching g.pc, left := n } :: g.loops, pc := g.pc + 1, phase := .ready })
  ∧ (∀ (w : GWord) (s : State) (l : GLoop) (r : List GLoop), (s.inst s.focus.die s.focus.inst).loops = l :: r →
      Goes (exec (.gEndl w) s) s fun g =>
        if l.left ≤ 1 then { g with loops := r, pc := g.pc + 1, phase := .ready }
        else { g with loops := { l with left := l.left - 1 } :: r, pc := l.first, phase := .ready })
  ∧ ∀ (s : State) (d k : Nat) (f : GInst → GInst),
      (s.modInst d k f).offGraphs = s.offGraphs ∧ KeepsBytes s (s.modInst d k f) ∧ ∀ e j, (e, j) ≠ (d, k) → (s.modInst d k f).inst e j = s.inst e j

/-- R253, R254, R260: GLD and GCELL read committed bytes and hold until they return; GST is checked at its issue and performed when it completes, and changes no other
byte of memory where no compression range, no save slot and no dirty log is set; DATA_RETURN writes the register of an instance's load, or performs its store, and
completes its word; a refused address raises its graph fault; a change that waits for a snapshot (R315) holds its word. Model's choices it rests on:
notes/assumptions 4, 54, 89 (latencies; fault codes; a bad line). -/
def Obligations.GraphMemoryWords : Prop :=
  (∀ (w : GWord) (s : State), s.finst.phase = .ready →
      let va := gOf s w.ga + w.imm.signExtend 64
      (∀ c, s.gAccess false va 8 8 = .error c → Faults (exec (.gGld w) s) s c)
      ∧ (∀ c, s.gAccess true va 8 8 = .error c → Faults (exec (.gGst w) s) s c)
      ∧ (∀ c, s.gAccess (w.mod.getLsbD 1) va 16 16 = .error c → Faults (exec (.gGcell w) s) s c)
      ∧ (∀ l c, s.gAccess (w.mod.getLsbD 1) va 16 16 = .ok l → s.gAccess false va 16 16 = .error c → Faults (exec (.gGcell w) s) s c)
      ∧ (∀ l, s.gAccess false va 8 8 = .ok l →
          let x := s.touchL2 (pintleWho s.finst.part s.finst.tenant s.focus.die) va [(l, 8, none)]
          Goes (exec (.gGld w) s) x.1 fun g =>
            { g with phase := .mem (s.cycle + x.2) (some (w.gd, BitVec.ofNat 64 (leNat (s.committedLoc l 8)))) })
      ∧ (∀ l, s.gAccess true va 8 8 = .ok l →
          Goes (exec (.gGst w) s) (s.gSend va l 8).1 fun g => { g with phase := .store (s.cycle + (s.gSend va l 8).2) l (leBytes 8 (gOf s w.gb).toNat) })
      ∧ ∀ l, s.gAccess (w.mod.getLsbD 1) va 16 16 = .ok l → s.gAccess false va 16 16 = .ok l →
          let c : BitVec 128 := BitVec.ofNat 128 (leNat (s.committedLoc l 16))
          let v : W64 := if w.mod.getLsbD 0 then BitVec.ofInt 64 (max (-(2 : Int) ^ 63) (min ((2 : Int) ^ 63 - 1) (c.extractLsb' 0 112).toInt)) else cellRead c
          let x := s.touchL2 (pintleWho s.finst.part s.finst.tenant s.focus.die) va [(l, 16, none)]
          let zero := leBytes 16 (c.toNat / 2 ^ 112 % 2 ^ 13 * 2 ^ 112)
          (w.mod.getLsbD 1 = false → exec (.gGcell w) s = .next (x.1.onInst fun g => { g with phase := .mem (s.cycle + x.2) (some (w.gd, v)) }))
          ∧ (w.mod.getLsbD 1 = true →
              (s.changeHeld s.finst.part l zero = none → exec (.gGcell w) s = .next ((x.1.commitLoc s.finst.part l zero).onInst fun g =>
                { g with phase := .mem (s.cycle + x.2) (some (w.gd, v)) }))
              ∧ ∀ s1, s.changeHeld s.finst.part l zero = some s1 → exec (.gGcell w) s = .next s1))
  ∧ (∀ (s : State) (write : Bool) (va : W64) (n al : Nat),
      let g := s.finst
      let place := s.place (pintleWho g.part g.tenant s.focus.die) (if write then .write else .read) write va
      (va.toNat % al ≠ 0 → s.gAccess write va n al = .error 1)
      ∧ (va.toNat % al = 0 → spaceOf va ≠ .translated → s.gAccess write va n al = .error 2)
      ∧ (va.toNat % al = 0 → spaceOf va = .translated →
          (∀ e, place = .error e → s.gAccess write va n al = .error (if e.cls = 3 ∧ e.stage = 0 then 8 else 2))
          ∧ ∀ e pa x, place = .ok (.hbm e pa x) →
              (write = true → s.sealed g.part s.focus.die va n = true → s.gAccess write va n al = .error 8)
              ∧ (write = true → s.sealed g.part s.focus.die va n = false → s.gAccess write va n al = .ok (.hbm e pa))
              ∧ (write = false → s.gAccess write va n al = if s.badLoc (.hbm e pa) n then .error 2 else .ok (.hbm e pa))))
  ∧ (∀ (s : State) (d k due : Nat), s.focus.ev = .dataReturn (.graph d k) →
      (∀ gd, (s.inst d k).phase = .mem due gd → s.cycle < due → exec .vDataReturn s = .next s)
      ∧ (∀ r v, (s.inst d k).phase = .mem due (some (r, v)) → due ≤ s.cycle → exec .vDataReturn s = .next (s.modInst d k fun g => gResult g r v))
      ∧ ∀ l bs, (s.inst d k).phase = .store due l bs →
          (s.cycle < due → exec .vDataReturn s = .next s)
          ∧ (due ≤ s.cycle →
              (∀ s1, s.changeHeld (s.inst d k).part l bs = some s1 → exec .vDataReturn s = .next s1)
              ∧ (s.changeHeld (s.inst d k).part l bs = none → exec .vDataReturn s =
                  .next ((s.commitLoc (s.inst d k).part l bs).modInst d k fun g => { g with phase := .ready, pc := g.pc + 1 }))
              ∧ ∀ x pa, l = .hbm x pa → s.changeHeld (s.inst d k).part l bs = none → s.wellKept = true →
                  (∀ r ∈ (s.die x).cmprange, fld r 257 256 = 0) → s.slotImg = [] → (s.part (s.inst d k).part).lm.getLsbD 176 = false →
                  Answers (exec .vDataReturn s) fun u =>
                    (∀ i < bs.length, cellGet u.hbm (hbmKey x (pa + i)) = bs.getD i 0)
                    ∧ KeepsBytesBut s u (fun a => ∃ e b i, a = .hbm e b ∧ i < bs.length ∧ hbmKey e b = hbmKey x (pa + i))
                    ∧ (u.inst d k).g = (s.inst d k).g ∧ (u.inst d k).pc = (s.inst d k).pc + 1 ∧ (u.inst d k).phase = .ready))

namespace Sys2Proof.Claims

/-- A launch recorded in its instance: its handle (number from bit 16, status in the low byte) goes to gd (R256). -/
def recorded (gd : BitVec 4) (l : Launch) (g : GInst) : GInst :=
  { gResult g gd (BitVec.ofNat 64 (l.shown % 256 + l.num % 2 ^ 32 * 2 ^ 16)) with nlaunch := l.num, launches := g.launches ++ [l] }

/-- The instance in focus as a launcher. -/
def launcher (s : State) : InstRef := { die := s.focus.die, slot := s.focus.inst, gen := s.finst.gen }

/-- The record of a launch word with its replaced trip counts: TASK has none (R256). -/
def launchWords : List ((GWord → Instr) × (GWord → State → Option W64)) := [(.gTask, fun _ _ => none), (.gTaskd, fun w s => some (gOf s w.gb))]

/-- A record with its trips field replaced. -/
def withTrips (bs : List Byte) (t : Option W64) : List Byte := (t.map fun v => bs.take 56 ++ leBytes 8 v.toNat ++ bs.drop 64).getD bs

/-- Is one of four trip counts zero? -/
def zeroTrip (t : Option W64) : Prop := ∃ v, t = some v ∧ ∃ j < 4, v.extractLsb' (16 * j) 16 = 0

end Sys2Proof.Claims

/-- R232, R256, R258: TASK and TASKD fault on a misaligned or unreadable record, record a refused launch with its status, launch nothing for a zero count of TASKD,
and else queue every instance in index order, or keep the launch in the open step; STEP opens a step, ENDSTEP queues it whole or refuses it with its first status, 0x33
when its members find too few pages on a die. Model's choices it rests on: notes/assumptions 4, 55, 72 (launch reads; launch numbers; which status is reported). -/
def Obligations.GraphLaunches : Prop :=
  (∀ x ∈ launchWords, ∀ (w : GWord) (s : State),
      let g := s.finst
      let va := gOf s w.ga + w.imm.setWidth 64
      let who : Who := pintleWho g.part g.tenant s.focus.die
      let num := g.nlaunch + 1
      (va.toNat % 64 ≠ 0 → Faults (exec (x.1 w) s) s 1)
      ∧ (va.toNat % 64 = 0 → ∀ e, s.ctxRead who .record va 256 = .error e → Faults (exec (x.1 w) s) s (gcode e))
      ∧ (va.toNat % 64 = 0 → ∀ bs, s.ctxRead who .record va 256 = .ok bs →
          let s1 := s.ctxTouch who .record va 256
          (zeroTrip (x.2 w s) → Goes (exec (x.1 w) s) s1 (recorded w.gd { num := num, inStep := g.stepOpen }))
          ∧ (¬ zeroTrip (x.2 w s) →
              let s2 := s1.launchTouch who (withTrips bs (x.2 w s))
              (∀ st, s2.launchCheck g.part g.tenant s.focus.die g.evbase g.evcount (withTrips bs (x.2 w s)) = .error st →
                Goes (exec (x.1 w) s) s2 (recorded w.gd { num := num, shown := st, status := st, inStep := g.stepOpen }))
              ∧ ∀ l, s2.launchCheck g.part g.tenant s.focus.die g.evbase g.evcount (withTrips bs (x.2 w s)) = .ok l →
                  let s3 := s2.modInst s.focus.die s.focus.inst (recorded w.gd { num := num, inStep := g.stepOpen, left := l.rcd.instances })
                  exec (x.1 w) s = .next (
                    if g.stepOpen then s3.modInst s.focus.die s.focus.inst fun g =>
                      { g with step := g.step ++ [{ num := num, rcd := l.rcd, wins := l.wins, pages := l.pages }] }
                    else if l.rcd.bg.getLsbD 7 then
                      ({ s3 with nextSet := s3.nextSet + 1 } : State).enqueue l g.part g.tenant (launcher s) num (some (s3.nextSet, 0, l.rcd.instances))
                    else s3.enqueue l g.part g.tenant (launcher s) num none))))
  ∧ (∀ (w : GWord) (s : State),
      (s.finst.stepOpen = true → Faults (exec (.gStep w) s) s 4)
      ∧ (s.finst.stepOpen = false → Goes (exec (.gStep w) s) s fun g => { g with phase := .ready, pc := g.pc + 1, stepOpen := true, step := [] })
      ∧ (s.finst.stepOpen = false → Faults (exec (.gEndstep w) s) s 4)
      ∧ (s.finst.stepOpen = true →
          let g := s.finst
          let own := g.launches.find? fun l => l.inStep && decide (l.status ≠ 0)
          let demand := fun (x : Nat) => ((g.step.filter fun l => l.rcd.bg.getLsbD 7).map fun l =>
            s.demand g.part s.focus.die x l.rcd.instances l.rcd l.pages).sum
          let crowded := ∃ x < 4, 4 * (s.clustersOf g.part x).length < demand x
          let closed := fun (st : Nat) (g : GInst) =>
            { gResult g w.gd (BitVec.ofNat 64 st) with
              stepOpen := false, step := []
              launches := g.launches.map fun l =>
                if l.inStep then (if st = 0 then { l with inStep := false } else { l with inStep := false, status := st, left := 0 }) else l }
          (∀ l, own = some l → Goes (exec (.gEndstep w) s) s (closed l.status))
          ∧ (own = none → crowded → Goes (exec (.gEndstep w) s) s (closed 0x33))
          ∧ (own = none → ¬ crowded → exec (.gEndstep w) s = .next ((s.modInst s.focus.die s.focus.inst (closed 0)).queueStep g (launcher s)))))
  ∧ ∀ (s : State) (l : Launched) (part tenant : Nat) (me : InstRef) (num : Nat) (set : Option (Nat × Nat × Nat)), l.rcd.flags.getLsbD 2 = false →
      let u := s.enqueue l part tenant me num set
      u.nextTid = s.nextTid + l.rcd.instances
      ∧ ∀ k < l.rcd.instances, ∃ t, u.task (s.nextTid + k) = some t ∧ t.tid = s.nextTid + k ∧ t.state = .queued ∧ t.rcd = l.rcd ∧ t.tco = l.rcd.tcoAt k
          ∧ (t.part, t.tenant, t.inst, t.launch) = (part, tenant, me, num) ∧ t.mset = set.map (·.1) ∧ t.midx = (set.map fun x => x.2.1 + k).getD 0

/-- R249, R250, R259, R263, R268: an event WAIT joins its event's queue and a launch WAIT holds until its launch has ended and writes how many of its instances
trapped; SIG signals; CALLG starts the object in the lowest free slot with its registers and holds for its end code; END closes the instance, which gives its code to
its caller or sends the completion packet when every task has ended. Model's choices it rests on: notes/assumptions 9 (slot generations). -/
def Obligations.GraphInstancesWaitAndCall : Prop :=
  (∀ (w : GWord) (s : State), s.finst.phase = .ready →
      let g := s.finst
      let n := fld w.imm 7 0
      let need := if w.mod.getLsbD 1 then (gOf s w.ga).toNat % 2 ^ 32 else fld w.imm 31 16
      let granted := g.evbase ≤ n ∧ n < g.evbase + g.evcount
      (¬ granted → Faults (exec (.gWaitEvent w) s) s 3 ∧ Faults (exec (.gSig w) s) s 3)
      ∧ (granted → need = 0 → exec (.gWaitEvent w) s = .next ((s.modInst s.focus.die s.focus.inst fun g =>
          { g with phase := .ready, pc := g.pc + 1 }).graphNonIdem s.focus.die s.focus.inst g.gen))
      ∧ (granted → need ≠ 0 → exec (.gWaitEvent w) s = .next ((s.modInst s.focus.die s.focus.inst fun g => { g with phase := .queued }).queueWait
          g.part n (.graph s.focus.die s.focus.inst) need))
      ∧ (granted → exec (.gSig w) s = .next ((s.modInst s.focus.die s.focus.inst fun g => { g with phase := .ready, pc := g.pc + 1 }).signal
          g.part n (fld w.imm 31 16))))
  ∧ (∀ (w : GWord) (s : State),
      let found := s.finst.launches.find? fun l => decide (BitVec.ofNat 64 (l.shown % 256 + l.num % 2 ^ 32 * 2 ^ 16) = gOf s w.ga)
      (found = none → Faults (exec (.gWaitLaunch w) s) s 6)
      ∧ ∀ l, found = some l →
          (l.inStep = true → Faults (exec (.gWaitLaunch w) s) s 4)
          ∧ (l.inStep = false → l.status ≠ 0 → Goes (exec (.gWaitLaunch w) s) s fun g => gResult g w.gd (failCode l.status))
          ∧ (l.inStep = false → l.status = 0 → l.left ≠ 0 → Goes (exec (.gWaitLaunch w) s) s fun g => { g with phase := .hold })
          ∧ (l.inStep = false → l.status = 0 → l.left = 0 → Goes (exec (.gWaitLaunch w) s) s fun g => gResult g w.gd (BitVec.ofNat 64 l.bad)))
  ∧ (∀ (w : GWord) (s : State), s.finst.phase = .ready →
      let g := s.finst
      let x : Start := { part := g.part, tenant := g.tenant, chan := g.chan, die := s.focus.die, obj := fld w.imm 7 0, evbase := g.evbase
                         evcount := g.evcount, cookie := g.cookie, depth := g.depth + 1, parent := some s.focus.inst }
      (4 ≤ g.depth → Faults (exec (.gCallg w) s) s 5)
      ∧ (g.depth < 4 → ∀ st, s.startInst x = .error st → Goes (exec (.gCallg w) s) s fun g => gResult g w.gd (failCode st))
      ∧ (g.depth < 4 → ∀ k s1, s.startInst x = .ok (k, s1) →
          Goes (exec (.gCallg w) s) (s1.modInst s.focus.die k fun c => { c with g := c.g.take 2 ++ g.g.drop 2 }) fun g => { g with phase := .child k }))
  ∧ (∀ (s : State) (x : Start),
      ((∀ o, s.obj x.part x.die x.obj = some o → o.words = []) → s.startInst x = .error 0x40)
      ∧ ((∃ o, s.obj x.part x.die x.obj = some o ∧ o.words ≠ []) → (∀ k < 64, (s.inst x.die k).live = true) → s.startInst x = .error 0x41)
      ∧ ∀ k s1 o, s.startInst x = .ok (k, s1) → s.obj x.part x.die x.obj = some o →
          k < 64 ∧ (s.inst x.die k).live = false ∧ (∀ j < k, (s.inst x.die j).live = true)
          ∧ (k < (s1.die x.die).insts.length → x.die < s1.dies.length →
              let g := s1.inst x.die k
              g.live = true ∧ g.gen = ((s.inst x.die k).gen + 1) % 2 ^ 24 ∧ g.code = o.words ∧ g.pc = 0 ∧ g.phase = .ready ∧ g.idx < 8
                ∧ (g.part, g.tenant, g.chan, g.obj, g.depth, g.parent) = (x.part, x.tenant, x.chan, x.obj, x.depth, x.parent)
                ∧ g.g = [g.block, BitVec.ofNat 64 (x.die + 4 * k + 256 * g.gen)] ++ List.replicate 14 0))
  ∧ (∀ (w : GWord) (s : State),
      let g := s.finst
      (g.phase = .ready → exec (.gEnd w) s = .next ((g.faults.foldl State.endTask (s.modInst s.focus.die s.focus.inst fun g =>
        { g with stepOpen := false, step := [], phase := .closing (fld w.imm 15 0) 0
                 launches := g.launches.map fun l => if l.inStep then { l with inStep := false, left := 0 } else l })).closeInst s.focus.die s.focus.inst))
      ∧ (g.phase ≠ .ready → exec (.gEnd w) s = .next (s.closeInst s.focus.die s.focus.inst)))
  ∧ ∀ (s : State) (d k code fault : Nat), (s.inst d k).live = true → (s.inst d k).phase = .closing code fault →
      let g := s.inst d k
      ((∃ l ∈ g.launches, l.left ≠ 0) → s.closeInst d k = s)
      ∧ ((∀ l ∈ g.launches, l.left = 0) → ∃ keys, (g.leases = [] → keys = []) ∧
          let s1 := (s.modInst d k fun g => { gen := g.gen }).dropPins keys 0
          (∀ p, g.parent = some p → ∀ j, (s1.inst d p).phase = .child j → s.closeInst d k = s1.modInst d p fun x =>
            gResult x (graphFields (x.code.getD x.pc 0)).gd (BitVec.ofNat 64 code))
          ∧ (g.parent = none → (s.chan g.part g.chan).on = true → (s.chan g.part g.chan).full = false → (s.chan g.part g.chan).pending = [] →
              s.closeInst d k = s1.chanSend g.part g.chan 0x82 (leBytes 4 g.cookie.toNat ++ leBytes 4 (d + 4 * k + 256 * g.gen) ++ leBytes 2 code
                ++ leBytes 1 fault ++ leBytes 1 0 ++ leBytes 2 (g.patches.map fun x => x.2.length).sum)))

/-- R264 to R267, R376, R377: PATCH applies the messages queued before its cycle, unless a write waits for a snapshot (R315); MSG sends g8 to g12 when the ring has room; RCV takes the oldest data packet; LEASE
pins a resident range in its lowest free slot, FREE gives one up; RECEIPT writes the tenant's receipt; FAULTRD writes the oldest unread trap record; FAULTACK and
RETRY apply a choice that the cause admits and answer 0, and else answer 0x48 or 0x49. Model's choices it rests on: notes/assumptions 53, 57 (receipts; leases named by handle). -/
def Obligations.GraphServices : Prop :=
  (∀ (w : GWord) (s : State),
      let g := s.finst
      let ready := g.patches.filter fun x => decide (x.1 < s.cycle)
      let took := if w.mod.getLsbD 0 then ready.take 1 else ready
      let es := took.flatMap (·.2)
      let who := packetWho g.part g.tenant s.focus.die
      let held := es.findSome? fun e => s.ctxHeld who (g.block + BitVec.ofNat 64 e.1) (leBytes 8 e.2.toNat)
      let write := es.foldlM (fun (s : State) e => s.ctxWrite who (g.block + BitVec.ofNat 64 e.1) (leBytes 8 e.2.toNat)) s
      (∀ s1, held = some s1 → exec (.gPatch w) s = .next s1)
      ∧ (held = none → write = none → Faults (exec (.gPatch w) s) s 8)
      ∧ ∀ s1, held = none → write = some s1 → exec (.gPatch w) s = .next ((s1.onInst fun g => { g with patches := g.patches.drop took.length }).onInst fun g =>
          gResult g w.gd (BitVec.ofNat 64 es.length)))
  ∧ (∀ (w : GWord) (s : State),
      let g := s.finst
      let c := s.chan g.part g.chan
      let held := c.on = true ∧ (c.full = true ∨ c.pending ≠ [])
      (held → Goes (exec (.gMsg w) s) s fun g => { g with phase := .hold })
      ∧ (¬ held → exec (.gMsg w) s = .next ((s.modInst s.focus.die s.focus.inst fun g => { g with phase := .ready, pc := g.pc + 1 }).chanSend g.part g.chan 0x83
          (leBytes 4 (handleOf s.focus.die s.focus.inst g.gen) ++ leBytes 2 (fld w.imm 15 0) ++ leBytes 2 0
            ++ (List.range 5).flatMap fun i => leBytes 8 (g.g.getD (8 + i) 0).toNat))))
  ∧ (∀ (w : GWord) (s : State),
      (s.finst.data = [] → Goes (exec (.gRcv w) s) s fun g => { g with phase := .hold })
      ∧ ∀ tag x r, s.finst.data = (tag, x) :: r → Goes (exec (.gRcv w) s) s fun g =>
          gResult { g with data := r, g := g.g.take 8 ++ ((List.range 5).map fun i => x.extractLsb' (64 * i) 64) ++ g.g.drop 13 } w.gd (tag.setWidth 64))
  ∧ (∀ (w : GWord) (s : State),
      let g := s.finst
      let base := gOf s w.ga
      let size := gOf s w.gb
      let good := base.toNat % 65536 = 0 ∧ size.toNat % 65536 = 0 ∧ size ≠ 0
      (¬ good → Faults (exec (.gLease w) s) s 1)
      ∧ (good → s.outside s.focus.die base size.toNat = true → Goes (exec (.gLease w) s) s fun g => gResult g w.gd (failCode 0x31))
      ∧ (good → s.outside s.focus.die base size.toNat = false →
          (8 ≤ g.leases.length → Goes (exec (.gLease w) s) s fun g => gResult g w.gd (failCode 0x4A))
          ∧ (g.leases.length < 8 → g.refused = true →
              Faults (exec (.gLease w) s) (s.modInst s.focus.die s.focus.inst fun g => { g with refused := false, leaseFault := none }) 2)
          ∧ (g.leases.length < 8 → g.refused = false → g.leaseFault.isSome = true → exec (.gLease w) s = .next s)
          ∧ (g.leases.length < 8 → g.refused = false → g.leaseFault = none →
              (∀ st, s.residence g.part g.tenant s.focus.die base size.toNat = .error st → exec (.gLease w) s = .next
                ((s.modInst s.focus.die s.focus.inst fun g => { g with phase := .hold, leaseFault := some st }).leaseReport g.part g.tenant
                  (handleOf s.focus.die s.focus.inst g.gen) st))
              ∧ ∀ es, s.residence g.part g.tenant s.focus.die base size.toNat = .ok es → ∃ slot < 8, (∀ x ∈ g.leases, x.1 ≠ slot)
                  ∧ (∀ j < slot, ∃ x ∈ g.leases, x.1 = j)
                  ∧ exec (.gLease w) s = .next (((s.pin es).onInst fun g => { g with leases := g.leases ++ [(slot, base, size)] }).onInst fun g =>
                      gResult g w.gd (BitVec.ofNat 64 slot)))))
  ∧ (∀ (w : GWord) (s : State),
      let g := s.finst
      let i := (gOf s w.ga).toNat % 8
      ((∀ x ∈ g.leases, x.1 ≠ i) → Faults (exec (.gFree w) s) s 6)
      ∧ ∀ x, g.leases.find? (fun y => decide (y.1 = i)) = some x → ∃ keys, exec (.gFree w) s = .next
          (((s.modInst s.focus.die s.focus.inst fun g => { g with phase := .ready, pc := g.pc + 1 }).onInst fun g =>
            { g with leases := g.leases.filter fun y => decide (y.1 ≠ i) }).dropPins keys 0))
  ∧ (∀ (w : GWord) (s : State), s.finst.phase = .ready →
      let g := s.finst
      let va := gOf s w.ga + w.imm.signExtend 64
      let who : Who := pintleWho g.part g.tenant s.focus.die
      let r := s.tenantReceipt g.part g.tenant
      let fits := ∀ x ∈ pieces (r.length / 65536 + 2) va r.length, spaceOf x.1 = .translated ∧ s.sealed g.part s.focus.die x.1 x.2 = false
        ∧ ∃ d pa e, s.place who .write true x.1 = .ok (.hbm d pa e) ∧ e.cls = 0
      (va.toNat % 64 ≠ 0 → Faults (exec (.gReceipt w) s) s 1)
      ∧ (va.toNat % 64 = 0 → ¬ fits → Goes (exec (.gReceipt w) s) s fun g => gResult g w.gd (failCode 0x31))
      ∧ (va.toNat % 64 = 0 → fits → ∀ s1, s.ctxWrite who va r = some s1 → exec (.gReceipt w) s = .next (s1.receiptDone.onInst fun g =>
          { g with phase := .mem (s.cycle + Config.latL2Far) (some (w.gd, BitVec.ofNat 64 r.length)) })))
  ∧ (∀ (w : GWord) (s : State),
      let s0 := s.modInst s.focus.die s.focus.inst fun g => { g with frdSeen := true }
      (s0.unread s0.finst = none → w.mod.getLsbD 0 = true → Goes (exec (.gFaultrd w) s) s0 fun g => gResult g w.gd (BitVec.ofNat 64 (2 ^ 63)))
      ∧ (s0.unread s0.finst = none → w.mod.getLsbD 0 = false → Goes (exec (.gFaultrd w) s) s0 fun g => { g with phase := .hold })
      ∧ ∀ t r, s0.unread s0.finst = some (t, r) →
          let va := gOf s0 w.ga + w.imm.signExtend 64
          (∀ c, s0.gAccess true va 64 64 = .error c → Faults (exec (.gFaultrd w) s) s0 c)
          ∧ ∀ a b, s0.gAccess true va 64 64 = .ok a → s0.gAccess true (va + 64) 64 64 = .ok b →
              let part := (s0.inst s.focus.die s.focus.inst).part
              exec (.gFaultrd w) s = .next ((((s0.commitLoc part a (r.bytes.take 64)).commitLoc part b (r.bytes.drop 64)).modTask t.tid fun t =>
                { t with trapRead := true }).onInst fun g => gResult g w.gd (BitVec.ofNat 64 t.tid)))
  ∧ ∀ (w : GWord) (s : State),
      let found := s.waitingFor s.focus.die s.focus.inst (gOf s w.ga)
      let answer := fun v => s.modInst s.focus.die s.focus.inst fun g => gResult g w.gd v
      (found = none → exec (.gFaultackEnd w) s = .next (answer (failCode 0x49)) ∧ exec (.gFaultackResume w) s = .next (answer (failCode 0x49))
        ∧ exec (.gRetry w) s = .next (answer (failCode 0x49)))
      ∧ ∀ t c, found = some (t, c) →
          exec (.gFaultackEnd w) s = .next ((answer 0).endTask t.tid)
          ∧ exec (.gFaultackResume w) s = .next (if c.admitsResume = true ∧ t.state ≠ .loading then (answer 0).resumeTask t else answer (failCode 0x48))
          ∧ exec (.gRetry w) s = .next (if s.admitsRestart t c then (answer 0).retryTask t else answer (failCode 0x48))

namespace Sys2Proof.Claims

/-! ## Commands and packets -/

/-- The address that the mailbox of a function names (R431). -/
def mailAt (s : State) (fn : Nat) : W64 := BitVec.ofNat 64 (fld (s.tmbx fn) 63 12 * 4096)

/-- The mailbox of a function names these input bytes, readable behind their length. -/
def inputIs (s : State) (fn : Nat) (x : List Byte) : Prop :=
  x.length ≤ 2 ^ 32 ∧ (∃ h, s.tumRead fn (mailAt s fn) 8 = .ok h ∧ leNat h = x.length) ∧ s.tumRead fn (mailAt s fn + 8) x.length = .ok x

/-- The command completes with a status in its mailbox. -/
def Ends (o : Res) (s : State) (fn st : Nat) : Prop := o = .next (s.mailDone fn st)

/-- The command takes effect: its outputs stand behind its inputs, and it completes with status 0. -/
def Succeeds (o : Res) (s : State) (fn : Nat) (x : List Byte) (s1 : State) (out : List Byte) : Prop :=
  ∀ s2, s1.tumWrite fn (mailAt s fn + 8 + BitVec.ofNat 64 x.length) out = .ok s2 → o = .next (s2.mailDone fn 0)

/-- The commands: constructor, whether the operator and whether a lessee may issue it, its least input and whether that is its length (R431, log 13). -/
def commands : List ((Nat → Instr) × Bool × Bool × Nat × Bool) :=
  [(.cIdent, true, true, 0, false), (.cAttest, true, true, 65, true), (.cFwstage, true, false, 16608, false), (.cFwswitch, true, false, 0, false),
   (.cLibadd, false, true, 17044, false), (.cLibrevoke, false, true, 48, true), (.cPageset, true, true, 19, true),
   (.cModelopen, false, true, 19216, false), (.cModelfill, false, true, 33, true), (.cModelclose, false, true, 1, true),
   (.cSessopen, false, true, 1665, true), (.cSessclose, false, true, 2, true), (.cReplyclose, false, true, 34, true),
   (.cOwnreceipt, false, true, 9, true), (.cLinkup, true, false, 1, true), (.cExport, false, true, 5, true)]

/-- Field of the firmware status register set (R436). -/
def withFwst (s : State) (hi lo v : Nat) : State := { s with dev := { s.dev with fwst := setFld s.dev.fwst hi lo v } }

/-- A change of the security processor alone. -/
def onTum (s : State) (f : Tumbler → Tumbler) : State := { s with tum := f s.tum }

end Sys2Proof.Claims

/-- R431, R435 to R439, R441, R444: a command of a caller that may not issue it ends with 0x01, one of a wrong length with 0x07; IDENT and ATTEST write their
records, FWSTAGE checks and stages a firmware, FWSWITCH switches to it and holds the Pintles, LIBADD and LIBREVOKE change the library, PAGESET changes its whole range or nothing. Model's choices it rests on: notes/assumptions 4, 8, 13, 52 (how long the Pintles hold; cryptography; layout of request blocks; statuses). -/
def Obligations.TumblerServesTheDevice : Prop :=
  (∀ c ∈ commands, ∀ (fn : Nat) (s : State),
      let may := if fn = 0 then c.2.1 else c.2.2.1
      (may = false → Ends (exec (c.1 fn) s) s fn 0x01)
      ∧ (may = true → ∀ e, s.tumRead fn (mailAt s fn) 8 = .error e → Ends (exec (c.1 fn) s) s fn e)
      ∧ (may = true → ∀ h, s.tumRead fn (mailAt s fn) 8 = .ok h → (leNat h < c.2.2.2.1 ∨ (c.2.2.2.2 = true ∧ leNat h ≠ c.2.2.2.1)) →
          Ends (exec (c.1 fn) s) s fn 0x07))
  ∧ (∀ (s : State) (fn st : Nat), fn ≤ 16 → s.parts.length = 16 → st < 256 →
      fld ((s.mailDone fn st).tmbx fn) 72 72 = 0 ∧ fld ((s.mailDone fn st).tmbx fn) 87 80 = st ∧ (s.mailDone fn st).irqs = s.irqs ++ [(fn, 1)]
        ∧ (s.mailDone fn st).tum.queue = s.tum.queue.erase fn)
  ∧ (∀ (fn : Nat) (s : State) (x : List Byte), inputIs s fn x →
      Succeeds (exec (.cIdent fn) s) s fn x s (Config.identityChains ++ Config.encapsKey s.tum.boots)
      ∧ (x.length = 65 →
          let part := leAt x 64 1
          (15 < part → part ≠ 0xFF → Ends (exec (.cAttest fn) s) s fn 0x07)
          ∧ (part ≤ 15 ∨ part = 0xFF →
              let body := s.reportBody (x.take 64) part
              Succeeds (exec (.cAttest fn) s) s fn x { s with free := s.free + 1, tum := { s.tum with reports := assocSet s.tum.reports fn (x.take 64) } }
                (body ++ Config.signature body s.tum.boots s.free))))
  ∧ (∀ (s : State) (x : List Byte), inputIs s 0 x →
      let i := 1 - fld s.dev.fwst 0 0
      (16608 ≤ x.length →
        let v := (Config.fwVersion x).toNat
        (slotSigned x = false → Ends (exec (.cFwstage 0) s) s 0 0x02)
        ∧ (slotSigned x = true → v < fld s.dev.fwst 31 16 → Ends (exec (.cFwstage 0) s) s 0 0x06)
        ∧ (slotSigned x = true → fld s.dev.fwst 31 16 ≤ v →
            Succeeds (exec (.cFwstage 0) s) s 0 x
              (withFwst (withFwst (onTum s fun t => { t with slots := t.slots.set i x }) 1 1 1) (39 + 8 * i) (32 + 8 * i) v) []))
      ∧ (fld s.dev.fwst 1 1 = 0 → Ends (exec (.cFwswitch 0) s) s 0 0x07)
      ∧ (fld s.dev.fwst 1 1 ≠ 0 → Succeeds (exec (.cFwswitch 0) s) s 0 x
          (onTum (withFwst (withFwst (onTum s fun t =>
            { t with mreg := t.mreg.set 1 (mregExtend (List.replicate 48 0) (Config.fwDigest 2 (t.slots.getD i []))) }) 2 2 1) 3 3 0)
              fun t => { t with fwDue := some (s.cycle + 2 ^ 29), hold := s.cycle + Config.latSwitch }) []))
  ∧ (∀ (fn : Nat) (s : State) (x : List Byte), fn ≠ 0 → inputIs s fn x →
      (17044 ≤ x.length →
        let k := leAt x 432 4
        let n := 436 + 49 * k
        let es := (List.range k).map fun i => (x.drop (436 + 49 * i)).take 49
        let shaped := x.length = n + 16608 ∧ ∀ e ∈ es, leAt e 0 1 ≤ 1
        let signed := Config.dualVerify (x.take 432) (x.take n) (x.drop n)
        let lib := es.foldl (fun l e => (l.filter fun (y : LibE) => decide (y.hash ≠ e.drop 1)) ++
          [{ kind := e.headD 0, hash := e.drop 1, signer := sha384 (x.take 432) }]) (s.part (fn - 1)).lib
        (¬ shaped → Ends (exec (.cLibadd fn) s) s fn 0x07)
        ∧ (shaped → signed = false → Ends (exec (.cLibadd fn) s) s fn 0x02)
        ∧ (shaped → signed = true → 256 < lib.length → Ends (exec (.cLibadd fn) s) s fn 0x04)
        ∧ (shaped → signed = true → lib.length ≤ 256 →
            Succeeds (exec (.cLibadd fn) s) s fn x (s.modPart (fn - 1) fun p => { p with lib := lib }) []))
      ∧ (x.length = 48 → Succeeds (exec (.cLibrevoke fn) s) s fn x
          (s.modPart (fn - 1) fun p => { p with lib := p.lib.filter fun e => decide (e.hash ≠ x) }) []))
  ∧ ∀ (fn : Nat) (s : State) (x : List Byte), inputIs s fn x → x.length = 19 →
      let first : W64 := BitVec.ofNat 64 (leAt x 0 8)
      let count := leAt x 8 8
      let good := first.toNat % 65536 = 0 ∧ count ≤ 2 ^ 24
      let changes := fun (ps : List (Nat × Nat)) => ps.mapM fun y => (s.transition fn (s.potAt y.1 (y.2 * 65536)) (leAt x 16 1) (leAt x 17 2)).map fun r => (y, r)
      (¬ good → Ends (exec (.cPageset fn) s) s fn 0x07)
      ∧ (good → s.fnRange fn first count = none → Ends (exec (.cPageset fn) s) s fn 0x05)
      ∧ (good → ∀ ps, s.fnRange fn first count = some ps →
          (changes ps = none → Ends (exec (.cPageset fn) s) s fn 0x05)
          ∧ ∀ rs, changes ps = some rs →
              let bars := ∃ r ∈ rs, (r.2.2 = true ∧ s.leased r.1.1 r.1.2 none = true)
                ∨ ((∃ e, r.2.1 = some e ∧ (e.cls = 1 ∨ e.cls = 2)) ∧ s.inCmp r.1.1 r.1.2 = true)
              (bars → Ends (exec (.cPageset fn) s) s fn 0x05)
              ∧ (¬ bars → Succeeds (exec (.cPageset fn) s) s fn x (rs.foldl (fun s r => s.setPot r.1.1 r.1.2 r.2.1 r.2.2) s) []))

/-- The secret of R430 with the 32 bytes of the KEM and the 48 of the x coordinate: label "K4 model" (0) or "K4 session" (1), the hash of the ciphertext, both
shares and the nonce of the function's last report (log 98). -/
def agreement (s : State) (fn kind : Nat) (ct other : List Byte) : Option (List Byte) :=
  let label : List Byte := [0x4B, 0x34, 0x20] ++ (if kind = 0 then [0x6D, 0x6F, 0x64, 0x65, 0x6C] else [0x73, 0x65, 0x73, 0x73, 0x69, 0x6F, 0x6E])
  let nonce := match assocGet s.tum.reports fn with
    | some n => n
    | none => Config.sized 64 (Config.noReport s.tum.boots fn)
  match Config.ecdhX s.tum.boots other with
  | none => none
  | some x => some (hkdf384 (List.replicate 48 0) (Config.sized 32 (Config.kemSecret s.tum.boots ct) ++ Config.sized 48 x)
      (label ++ sha384 (ct ++ other ++ Config.share s.tum.boots other ++ nonce)) 48)

/-- R430, R446 to R462: MODELOPEN checks and opens an image, MODELFILL fills chunks until one fails, MODELCLOSE gives its pages back; SESSOPEN, SESSCLOSE and REPLYCLOSE
open a session, close it, and close one reply into a record with the next counter; OWNRECEIPT writes a receipt; LINKUP secures a link; EXPORT sends a
session's enc direction or an image's key to the peer. Model's choices it rests on: notes/assumptions 8, 13, 52, 53, 98 (cryptography; layout of request blocks;
statuses; receipts; key agreement). -/
def Obligations.TumblerServesLessees : Prop :=
  (∀ (fn : Nat) (s : State) (x : List Byte), fn ≠ 0 → inputIs s fn x →
      let part := fn - 1
      (19216 ≤ x.length →
        let h := x.take 512
        let share := (x.drop 19120).take 96
        let shaped := h.take 4 = [0x4B, 0x34, 0x4D, 0x44] ∧ leAt h 4 2 = 1 ∧ ∀ b ∈ h.drop 0x148, b = 0
        let signed := Config.dualVerify ((x.drop 17120).take 432) h ((x.drop 512).take 16608)
        let allowed := digestOk ((h.drop 0x18).take 48) (s.tum.mreg.getD 0 []) = true ∧ digestOk ((h.drop 0x48).take 48) (s.tum.mreg.getD 1 []) = true
          ∧ s.tum.debug = false
        (¬ shaped → Ends (exec (.cModelopen fn) s) s fn 0x07)
        ∧ (shaped → signed = false → Ends (exec (.cModelopen fn) s) s fn 0x02)
        ∧ (shaped → signed = true → ¬ allowed → Ends (exec (.cModelopen fn) s) s fn 0x03)
        ∧ (shaped → signed = true → allowed → 64 ≤ s.tum.models.length → Ends (exec (.cModelopen fn) s) s fn 0x04)
        ∧ (shaped → signed = true → allowed → s.tum.models.length < 64 → ∃ i < 64, s.model part i = none ∧ (∀ j < i, s.model part j ≠ none)
            ∧ ∀ key, (agreement s fn 0 ((x.drop 17552).take 1568) share).bind (fun z => Config.unwrapKey z (x.drop 19216)) = some key →
                Succeeds (exec (.cModelopen fn) s) s fn x
                  (onTum s fun t => { t with models := t.models ++ [{ part := part, idx := i, header := h, key := key }]
                                             modelIds := assocSet t.modelIds (64 * part + i) ((h.drop 8).take 16) })
                  (leBytes 1 i ++ Config.share s.tum.boots share)))
      ∧ (x.length = 1 →
          (s.model part (leAt x 0 1) = none → Ends (exec (.cModelclose fn) s) s fn 0x07)
          ∧ ∀ m, s.model part (leAt x 0 1) = some m →
              let used := (∃ t ∈ s.tasks, t.2.inStep = true ∧ t.2.part = m.part ∧ t.2.images.contains m.idx = true) ∨ ∃ p ∈ m.pages, s.leased p.1 p.2 none = true
              (used → Ends (exec (.cModelclose fn) s) s fn 0x05) ∧ (¬ used → Succeeds (exec (.cModelclose fn) s) s fn x (s.closeModel m) []))
      ∧ (x.length = 1665 →
          let tenant := leAt x 0 1
          let share := (x.drop 1569).take 96
          (15 < tenant → Ends (exec (.cSessopen fn) s) s fn 0x07)
          ∧ (tenant ≤ 15 → s.tum.debug = true → Ends (exec (.cSessopen fn) s) s fn 0x03)
          ∧ (tenant ≤ 15 → s.tum.debug = false → ∀ i z, i < 4096 → (∀ y ∈ s.tum.sessions, y.id ≠ i) → (∀ j < i, ∃ y ∈ s.tum.sessions, y.id = j) →
              agreement s fn 1 ((x.drop 1).take 1568) share = some z →
              let k := hkdf384 [] z [] 72
              Succeeds (exec (.cSessopen fn) s) s fn x
                (onTum s fun t => { t with
                  sessions := t.sessions ++ [{ id := i, part := part, tenant := tenant, krx := k.take 32, ktx := (k.drop 32).take 32
                                               srx := (k.drop 64).take 4, stx := (k.drop 68).take 4 }]
                  tenants := addTenant t.tenants (16 * part + tenant) 1 0 0 }) (leBytes 2 i ++ Config.share s.tum.boots share)))
      ∧ (x.length = 2 →
          (s.openSess part (leAt x 0 2) = none → Ends (exec (.cSessclose fn) s) s fn 0x07)
          ∧ ∀ y, s.openSess part (leAt x 0 2) = some y →
              let used := ∃ p ∈ s.sessPages y, s.leased p.1 p.2 (some (16 * y.part + y.tenant)) = true
              (used → Ends (exec (.cSessclose fn) s) s fn 0x05) ∧ (¬ used → Succeeds (exec (.cSessclose fn) s) s fn x (s.closeSess y) []))
      ∧ (x.length = 34 →
          let n := leAt x 10 8
          let len := leAt x 18 8
          (s.openSess part (leAt x 0 2) = none → Ends (exec (.cReplyclose fn) s) s fn 0x07)
          ∧ ∀ y, s.openSess part (leAt x 0 2) = some y →
              (y.enc = false → Ends (exec (.cReplyclose fn) s) s fn 0x03)
              ∧ (y.enc = true → leAt x 2 8 % 65536 = 0 → n ≤ 2 ^ 24 → len ≤ 65536 * n → ∀ ps, s.fnRange fn (BitVec.ofNat 64 (leAt x 2 8)) n = some ps →
                  (∀ p ∈ ps, ∃ e, s.potAt p.1 (p.2 * 65536) = some e ∧ e.cls = 2 ∧ e.owner = y.part ∧ e.sess = y.id ∧ s.leased p.1 p.2 none = false) →
                  s.placesBad (ps.map fun p => (p.1, p.2 * 65536, 65536)) = false →
                  ∀ s1, s.tumWrite fn (BitVec.ofNat 64 (leAt x 26 8))
                      (replyRecord y ((ps.flatMap fun p => s.committedN p.1 (p.2 * 65536) 65536).take len)) = .ok s1 →
                    Succeeds (exec (.cReplyclose fn) s) s fn x
                      (onTum (ps.foldl (fun s p => (s.scrub y.part p.1 p.2).purge p.1 p.2) s1) fun t =>
                        { t with sessions := t.sessions.map fun z => if z.id = y.id then { z with ctx := z.ctx + 1 } else z
                                 tenants := addTenant t.tenants (16 * y.part + y.tenant) 0 0 len }) []))
      ∧ (x.length = 9 →
          let i := leAt x 0 1
          let us := s.tum.usage.filter fun u => decide (u.part = part ∧ u.image = i)
          let r := s.receipt true part 0xFF [receiptEntry s.tum part i (us.map fun u => u.beats.toNat).sum (us.map fun u => u.kcols.toNat).sum]
          (s.model part i = none → Ends (exec (.cOwnreceipt fn) s) s fn 0x07)
          ∧ (s.model part i ≠ none → ∀ s1, s.tumWrite fn (BitVec.ofNat 64 (leAt x 1 8)) r = .ok s1 →
              Succeeds (exec (.cOwnreceipt fn) s) s fn x { s1 with free := s1.free + 1, tum := { s1.tum with seq := s1.tum.seq + 1 } } []))
      ∧ (x.length = 5 →
          let id := leAt x 1 2
          let sess := s.openSess part id
          let image := s.model part id
          let sends := fun (u : State) (b : FlitBody) => ({ u with flitsOut := u.flitsOut ++ [(.die (4 * leAt x 3 2), b)] } : State)
          (1 < leAt x 0 1 ∨ (leAt x 0 1 = 0 ∧ sess = none) ∨ (leAt x 0 1 = 1 ∧ image = none) → Ends (exec (.cExport fn) s) s fn 0x07)
          ∧ (∀ y, leAt x 0 1 = 0 → sess = some y →
              (y.enc = false ∨ s.peerUp (leAt x 3 2) = false → Ends (exec (.cExport fn) s) s fn 0x03)
              ∧ (y.enc = true → s.peerUp (leAt x 3 2) = true → Config.peerAccepts (leAt x 3 2) id s.tum.boots = false →
                  Ends (exec (.cExport fn) s) s fn 0x04)
              ∧ (y.enc = true → s.peerUp (leAt x 3 2) = true → Config.peerAccepts (leAt x 3 2) id s.tum.boots = true →
                  Succeeds (exec (.cExport fn) s) s fn x (sends (onTum s fun t =>
                    { t with sessions := t.sessions.map fun z => if z.id = id then { z with enc := false, ktx := [], stx := [] } else z })
                    (.session y.part y.tenant id y.ktx y.stx y.ctx)) []))
          ∧ ∀ m, leAt x 0 1 = 1 → image = some m →
              (m.podOk = false ∨ s.peerUp (leAt x 3 2) = false → Ends (exec (.cExport fn) s) s fn 0x03)
              ∧ (m.podOk = true → s.peerUp (leAt x 3 2) = true → Config.peerAccepts (leAt x 3 2) id s.tum.boots = true →
                  Succeeds (exec (.cExport fn) s) s fn x (sends s (.image m.part m.header m.key)) [])))
  ∧ (∀ (fn : Nat) (s : State) (x staging : List Byte) (m : Model) (ps : List (Nat × Nat)), fn ≠ 0 → inputIs s fn x → x.length = 33 →
      let n := leAt x 25 8
      s.model (fn - 1) (leAt x 0 1) = some m → m.filled + n ≤ m.chunks → leAt x 9 8 = 65552 * n → leAt x 17 8 % 65536 = 0 →
      s.tumRead fn (BitVec.ofNat 64 (leAt x 1 8)) (65552 * n) = .ok staging → s.fnRange fn (BitVec.ofNat 64 (leAt x 17 8)) n = some ps →
      let owned := ∀ p ∈ ps, ∃ e, s.potAt p.1 (p.2 * 65536) = some e ∧ e.cls = 0 ∧ e.owner = fn - 1 ∧ s.inCmp p.1 p.2 = false
      let r := s.fillChunks (fn - 1) (leAt x 0 1) (ps.zipIdx.map fun p => ((staging.drop (65552 * p.2)).take 65552, p.1.1, p.1.2))
      (¬ owned → Ends (exec (.cModelfill fn) s) s fn 0x05) ∧ (owned → exec (.cModelfill fn) s = .next (r.1.mailDone fn (if r.2 then 0 else 0x02))))
  ∧ ∀ (s : State) (x : List Byte), inputIs s 0 x → x.length = 1 →
      let n := leNat x
      let put := fun (st peer : Nat) => ({ s with free := s.free + 1, dev := { s.dev with links := modAt s.dev.links n fun l => setFld (setFld l 1 0 st) 15 2 peer } } : State)
      (63 < n → Ends (exec (.cLinkup 0) s) s 0 0x07)
      ∧ (n ≤ 63 → Config.linkPeer n s.free = none → Ends (exec (.cLinkup 0) s) (put 3 0x3FFF) 0 0x02)
      ∧ (n ≤ 63 → ∀ devId dev pod m0 m1, Config.linkPeer n s.free = some (devId, dev, pod, m0, m1) →
          let same := pod = fld (s.dev.links.getD n 0) 31 16 ∧ m0 = s.tum.mreg.getD 0 [] ∧ m1 = s.tum.mreg.getD 1 []
          (¬ same → Ends (exec (.cLinkup 0) s) (put 3 0x3FFF) 0 0x03)
          ∧ (same → Ends (exec (.cLinkup 0) s) (onTum (put 2 dev) fun t =>
              { t with mreg := t.mreg.set 2 (mregExtend (t.mreg.getD 2 []) (devId ++ leBytes 2 pod)) }) 0 0))

namespace Sys2Proof.Claims

/-- The 64 bytes of a packet. -/
def packetBytes (p : HostPacket) : List Byte := leBytes 64 p.bits.toNat

/-- A packet of the right revision and expected seq (R272). -/
def inOrder (p : HostPacket) (s : State) : Prop :=
  leAt (packetBytes p) 0 2 = 1 ∧ leAt (packetBytes p) 4 4 = fld (s.chan p.part p.chan).reg 287 256

/-- A packet that acts on an open channel: one that the channel queued during a quiesce (R425), else one of the right revision and expected seq. -/
def expected (p : HostPacket) (s : State) : Prop :=
  (s.chan p.part p.chan).on = true ∧ ((s.chan p.part p.chan).queued = [] → inOrder p s)

/-- The state in which such a packet acts: it has left the queue, or the ring's head and the expected seq have moved on (R272). -/
def taken (p : HostPacket) (s : State) : State :=
  if (s.chan p.part p.chan).queued ≠ [] then s.modChan p.part p.chan fun c => { c with queued := (s.chan p.part p.chan).queued.tail } else
  (s.modChan p.part p.chan fun c => { c with hhead := (c.hhead + 1) % 65536 }).modChan p.part p.chan fun c =>
    { c with reg := setFld c.reg 287 256 (if fld (s.chan p.part p.chan).reg 287 256 = 0xFFFFFFFF then 1 else fld (s.chan p.part p.chan).reg 287 256 + 1)
             hlast := fld (s.chan p.part p.chan).reg 287 256, faulted := false }

/-- The packet ends with a status packet of type 0x81 (R274). -/
def AnswersWith (o : Res) (p : HostPacket) (s1 : State) (cookie status handle : Nat) (refusal : BitVec 128) : Prop :=
  o = .next (s1.chanSend p.part p.chan 0x81
    (leBytes 4 cookie ++ leBytes 1 status ++ leBytes 3 0 ++ leBytes 4 handle ++ leBytes 4 0 ++ leBytes 16 refusal.toNat))

/-- The packet types. -/
def packets : List (HostPacket → Instr) := [.hHostInstallPacket, .hHostLaunchPacket, .hHostPatchPacket, .hHostDataPacket, .hUnknownPacketType]

/-- Patch entries of a packet: up to 256 of 16 bytes, each an 8-aligned offset inside the block with a zero word and a value (R273). -/
def entriesAt (s : State) (w : Who) (a : W64) (n size : Nat) (es : List (Nat × W64)) : Prop :=
  a.toNat % 16 = 0 ∧ n ≤ 256 ∧ es.length = n ∧ ∃ bs, s.ctxRead w .read a (16 * n) = .ok bs ∧ ∀ i < n,
    leAt bs (16 * i) 4 % 8 = 0 ∧ leAt bs (16 * i) 4 < size ∧ leAt bs (16 * i + 4) 4 = 0
      ∧ es[i]? = some (leAt bs (16 * i) 4, BitVec.ofNat 64 (leAt bs (16 * i + 8) 8))

end Sys2Proof.Claims

/-- R272 to R274, R425: a packet of a wrong revision or seq leaves its ring and is answered once per expected seq; an expected one acts and is answered, and one that its
channel queued while its partition was quiesced (R425) acts in its turn: an install puts an
object or refuses it, a launch starts an instance, patch and data packets queue up to 16 for their instance, an unknown type answers 0x4C. Model's choices it rests on: notes/assumptions 56, 59, 63 (starts and installs; packets during a quiesce). -/
def Obligations.HostPacketsActOnce : Prop :=
  (∀ c ∈ packets, ∀ (p : HostPacket) (s : State),
      let ch := s.chan p.part p.chan
      let s0 := s.modChan p.part p.chan fun c => { c with hhead := (c.hhead + 1) % 65536 }
      (ch.on = false → exec (c p) s = .next s)
      ∧ (ch.on = true → ¬ expected p s → ch.faulted = true → exec (c p) s = .next s0)
      ∧ (ch.on = true → ¬ expected p s → ch.faulted = false →
          AnswersWith (exec (c p) s) p (s0.modChan p.part p.chan fun c => { c with faulted := true }) 0
            (if leAt (packetBytes p) 0 2 ≠ 1 then 0x43 else 0x44) (fld ch.reg 287 256) 0))
  ∧ (∀ (p : HostPacket) (s : State), expected p s →
      let bs := packetBytes p
      let s1 := taken p s
      let tenant := fld (s.chan p.part p.chan).reg 135 132
      let cookie := leAt bs 20 4
      let obj := leAt bs 16 2
      let die := leAt bs 18 1
      let usable := obj < 256 ∧ die < 4 ∧ s.dev.ident.getLsbD (24 + die) = true
      let who : Who := packetWho p.part tenant die
      let va := fun off => (BitVec.ofNat 64 (leAt bs off 8) : W64)
      let old := (s1.obj p.part die obj).getD {}
      let put := fun (o : GObj) => s1.modPart p.part fun q => { q with objs := assocSet q.objs (objKey die obj) o }
      AnswersWith (exec (.hUnknownPacketType p) s) p s1 cookie 0x4C 0 0
      ∧ (¬ usable → AnswersWith (exec (.hHostInstallPacket p) s) p s1 cookie 0x4B 0 0 ∧ AnswersWith (exec (.hHostLaunchPacket p) s) p s1 cookie 0x4B 0 0)
      ∧ (usable → va 24 = 0 → AnswersWith (exec (.hHostInstallPacket p) s) p (put { old with words := [] }) cookie 0 0 0)
      ∧ (usable → va 24 ≠ 0 →
          (∀ r, s1.graphImage who (va 24) = .error r → AnswersWith (exec (.hHostInstallPacket p) s) p s1 cookie 0x46 0 r.bits)
          ∧ ∀ ws, s1.graphImage who (va 24) = .ok ws →
              let size := leAt bs 40 4
              let placed := size % 64 = 0 ∧ size ≤ 65536 ∧ leAt bs 32 8 % 64 = 0 ∧ leAt bs 48 8 % 64 = 0 ∧ s1.inGeneric who (va 32) size = true
                ∧ s1.inGeneric who (va 48) (8 * size) = true
              let room := fun (ws : List W64) => (∀ g ∈ s1.liveOf p.part die obj, g.ver = old.ver) ∧ s1.graphWords die p.part obj + ws.length ≤ 65536
              (¬ placed → AnswersWith (exec (.hHostInstallPacket p) s) p s1 cookie 0x46 0 ({ reason := 0x22, plane := 2 } : Refuse).bits)
              ∧ (placed → (∀ x, ws = some x → ¬ room x) → AnswersWith (exec (.hHostInstallPacket p) s) p s1 cookie 0x47 0 0)
              ∧ (placed → ∀ x, ws = some x → room x → AnswersWith (exec (.hHostInstallPacket p) s) p
                  (put { words := x, block := va 32, bsize := size, area := va 48, ver := old.ver + 1 }) cookie 0 0 0))
      ∧ (usable → 
          let start := fun es => s1.startInst { part := p.part, tenant := tenant, chan := p.chan, die := die, obj := obj, evbase := leAt bs 34 1
                                                evcount := leAt bs 36 2, cookie := BitVec.ofNat 32 cookie, patch := es }
          ∀ es, (leAt bs 24 8 = 0 ∧ es = some []
              ∨ leAt bs 24 8 ≠ 0 ∧ ∃ l, es = some l ∧ entriesAt s1 who (va 24) (leAt bs 32 2) (((s1.obj p.part die obj).map (·.bsize)).getD 0) l
              ∨ leAt bs 24 8 ≠ 0 ∧ es = none ∧ ∀ l, ¬ entriesAt s1 who (va 24) (leAt bs 32 2) (((s1.obj p.part die obj).map (·.bsize)).getD 0) l) →
            (∀ st, start es = .error st → AnswersWith (exec (.hHostLaunchPacket p) s) p s1 cookie st 0 0)
            ∧ ∀ k s2, start es = .ok (k, s2) → AnswersWith (exec (.hHostLaunchPacket p) s) p s2 cookie 0 (die + 4 * k + 256 * (s2.inst die k).gen) 0)
      ∧ (let h := leAt bs 16 4
         let d := h % 4
         let k := h / 4 % 64
         let g := s1.inst d k
         let mine := g.live = true ∧ g.gen = h / 256 % 2 ^ 24 ∧ g.part = p.part ∧ g.tenant = tenant
         (¬ mine → AnswersWith (exec (.hHostPatchPacket p) s) p s1 cookie 0x45 0 0 ∧ AnswersWith (exec (.hHostDataPacket p) s) p s1 0 0x45 0 0)
         ∧ (mine → 16 ≤ g.data.length → AnswersWith (exec (.hHostDataPacket p) s) p s1 0 0x45 0 0)
         ∧ (mine → g.data.length < 16 → AnswersWith (exec (.hHostDataPacket p) s) p (s1.modInst d k fun g =>
              { g with data := g.data ++ [(BitVec.ofNat 16 (leAt bs 20 2), BitVec.ofNat 320 (leAt bs 24 40))] }) 0 0 0 0)
         ∧ (mine → (leAt bs 32 2 = 0 ∨ ∀ l, ¬ entriesAt s1 (packetWho p.part tenant d) (va 24) (leAt bs 32 2) g.bsize l) →
              AnswersWith (exec (.hHostPatchPacket p) s) p s1 cookie 0x42 0 0)
         ∧ (mine → leAt bs 32 2 ≠ 0 → ∀ l, entriesAt s1 (packetWho p.part tenant d) (va 24) (leAt bs 32 2) g.bsize l →
              (16 ≤ g.patches.length → AnswersWith (exec (.hHostPatchPacket p) s) p s1 cookie 0x45 0 0)
              ∧ (g.patches.length < 16 → AnswersWith (exec (.hHostPatchPacket p) s) p (s1.modInst d k fun g =>
                  { g with patches := g.patches ++ [(s.cycle, l)] }) cookie 0 0 0))))

namespace Sys2Proof.Claims

/-! ## Registers of the host -/

/-- The rows of a register write with the registers they act on. -/
def writeRows : List (Instr × (Reg → Prop)) :=
  [(.rRegisterWrite, fun _ => True), (.rChannelCreate, fun r => ∃ n k, r = .chan n k), (.rChannelClose, fun r => ∃ n k, r = .chan n k),
   (.rRsync, fun r => ∃ n k, r = .chan n k), (.rChannelDheadWrite, fun r => ∃ n k, r = .chan n k),
   (.rPartitionDisable, fun r => ∃ n d, r = .part n d), (.rClusterRevocation, fun r => ∃ n d, r = .part n d), (.rS1inv, fun r => ∃ n d, r = .s1inv n d),
   (.rS2inv, fun r => ∃ n d, r = .s2inv n d), (.rLfack, fun r => ∃ f, r = .lfack f), (.rMigrationStart, fun r => ∃ d i, r = .mig d i),
   (.rLmFlip, fun r => ∃ n, r = .lm n), (.rLmQuiesce, fun r => ∃ n, r = .lm n), (.rRetentionRegWrite, fun r => ∃ d j i, r = .retain d j i),
   (.rCompressionRangeWrite, fun r => ∃ d i, r = .cmprange d i), (.rVspillWrite, fun r => ∃ n, r = .vspill n), (.rSaveareaWrite, fun r => ∃ n, r = .savearea n)]

/-- Tasks asked to yield with a cause. -/
def asks (s : State) (cause : Nat) (ts : List (Nat × Task)) : State := ts.foldl (fun s t => s.later (.event (.preemptRequest t.1 cause))) s

end Sys2Proof.Claims

/-- R467 to R469: a write takes effect at the register its offset names, at once for registers of up to 8 bytes and with its highest 8 bytes for wider ones, whose
lower words wait; other accesses and accesses of a function whose partition is not enabled change nothing; fields that are not written keep their values. Model's choices it rests on: notes/assumptions 60 (waiting words). -/
def Obligations.RegisterWritesTakeEffect : Prop :=
  (∀ x ∈ writeRows, ∀ (s : State) (r : RegAt) (v : BitVec 512), s.hit s.focus.wr = .write [(r, v)] → x.2 r.reg →
      let kept := s.staged.filter fun y => decide (¬(y.1 = s.focus.wr.fn ∧ r.base ≤ y.2.1 ∧ y.2.1 < r.base + r.size))
      exec x.1 s = .next (({ s with staged := kept } : State).regSet s.focus.wr.fn r.reg v))
  ∧ (∀ x ∈ writeRows, ∀ s : State, s.hit s.focus.wr = .none → exec x.1 s = .next s)
  ∧ (∀ x ∈ writeRows, ∀ (s : State) (r : RegAt) (ws : List (Nat × W32)), s.hit s.focus.wr = .stage r ws → x.2 r.reg →
      let kept := s.staged.filter fun y => decide (¬(y.1 = s.focus.wr.fn ∧ (ws.map Prod.fst).contains y.2.1 = true))
      exec x.1 s = .next { s with staged := kept ++ ws.map fun y => (s.focus.wr.fn, y.1, y.2) })
  ∧ (∀ (s : State) (w : RegWr),
      (w.fn ≠ 0 → s.enabled (w.fn - 1) = false → s.hit w = .none) ∧ (¬ (w.size = 4 ∨ w.size = 8) → s.hit w = .none) ∧ (w.off % w.size ≠ 0 → s.hit w = .none)
      ∧ (w.fn = 0 ∨ s.enabled (w.fn - 1) = true → w.size = 8 → w.off % 8 = 0 → ∀ r, regAt w.fn w.off = some r →
          (r.size = 8 → ∃ v, s.hit w = .write [(r, v)] ∧ v = putWords r.base (s.regGet r.reg)
            (s.stagedIn w.fn r ++ [(w.off, w.val.extractLsb' 0 32), (w.off + 4, w.val.extractLsb' 32 32)]))
          ∧ (8 < r.size → w.off + 8 < r.base + r.size → s.hit w = .stage r [(w.off, w.val.extractLsb' 0 32), (w.off + 4, w.val.extractLsb' 32 32)])
          ∧ (8 < r.size → w.off + 8 = r.base + r.size → s.hit w = .write [(r, putWords r.base (s.regGet r.reg)
              (s.stagedIn w.fn r ++ [(w.off, w.val.extractLsb' 0 32), (w.off + 4, w.val.extractLsb' 32 32)]))])))
  ∧ (∀ (n : Nat) (old : BitVec n) (v : BitVec 512) (mask i : Nat), i < n → i < 512 →
      (take old v mask).getLsbD i = if mask.testBit i then v.getLsbD i else old.getLsbD i)
  ∧ ∀ (s : State) (fn n d : Nat) (v : BitVec 512), fn ≠ 0 →
      s.regSet fn (.vspill n) v = s ∧ s.regSet fn (.lm n) v = s ∧ s.regSet fn (.part n d) v = s ∧ s.regSet fn (.qos n d) v = s
        ∧ s.regSet fn (.s2root n d) v = s ∧ s.regSet fn (.s2inv n d) v = s ∧ s.regSet fn (.cxm n d) v = s ∧ s.regSet fn .ident v = s

/-- R293, R297, R316, R382, R404, R408, R412, R417, R418, R424, R425, R472, R473: what the writes of these registers do beside taking their fields: a channel is created
with seq 1 or closed, a resync packet is sent, a partition is disabled or loses clusters, an invalidation or a migration starts, a lease fault is answered, the dirty
log flips, with the final round's copies when the partition is at rest, or quiesces, and a write that its register's rule refuses changes nothing. Model's choices it rests on: notes/assumptions 30, 44, 57, 61, 99 (low bits of retention registers; resync packets;
lfack; refused writes; the final round). -/
def Obligations.RegisterWritesHaveTheirSideEffects : Prop :=
  (∀ (s : State) (fn n k : Nat) (v : BitVec 512), n < s.parts.length → k < (s.part n).chans.length →
      let c := s.chan n k
      let kept := s.modChan n k fun c => { c with reg := take c.reg v (bitMask 223 192) }
      (c.reg.getLsbD 152 = false → v.getLsbD 152 = true → v.getLsbD 224 = false → fld v 151 136 = 1 → s.enabled n = true →
        let u := s.regSet fn (.chan n k) v
        (u.chan n k).on = true ∧ (u.chan n k).hexp = 1 ∧ (u.chan n k).dlast = 0 ∧ (u.chan n k).hhead = 0 ∧ (u.chan n k).dtail = 0 ∧ (u.chan n k).pending = []
          ∧ (u.chan n k).tenant = fld v 135 132)
      ∧ (c.reg.getLsbD 152 = false → c.pending = [] → v.getLsbD 152 = true → v.getLsbD 224 = false → fld v 151 136 ≠ 1 ∨ s.enabled n = false →
          ((s.regSet fn (.chan n k) v).chan n k).on = false)
      ∧ (c.reg.getLsbD 152 = true → v.getLsbD 152 = false → v.getLsbD 224 = false →
          s.regSet fn (.chan n k) v = (kept.closeChan n k).flushChan n k (((kept.closeChan n k).chan n k).pending.length + 1))
      ∧ (c.reg.getLsbD 152 = true → v.getLsbD 152 = true → v.getLsbD 224 = true → c.pending = [] →
          s.regSet fn (.chan n k) v = kept.chanSend n k 0x84 (leBytes 4 c.hexp ++ leBytes 4 c.dlast))
      ∧ (c.reg.getLsbD 152 = true → v.getLsbD 152 = true → v.getLsbD 224 = false →
          s.regSet fn (.chan n k) v = kept.flushChan n k (c.pending.length + 1)))
  ∧ (∀ (s : State) (n d : Nat) (v : BitVec 512),
      let old := (s.partDie n d).part
      let new := take old v (bitMask 9 0 + bitMask 28 16 + bitMask 32 32)
      let refused := (∃ c < 10, v.getLsbD c = true ∧ ∃ m < 16, m ≠ n ∧ s.ownsCluster m d c = true) ∨ 64 < fld v 21 16 + fld v 28 22
      let s1 := s.modPartDie n d fun r => { r with part := new }
      (refused → s.regSet 0 (.part n d) v = s)
      ∧ (¬ refused → old.getLsbD 32 = true → v.getLsbD 32 = false → s.regSet 0 (.part n d) v = (s.flr n).modPartDie n d fun r => { r with part := new })
      ∧ (¬ refused → old.getLsbD 32 = false ∨ v.getLsbD 32 = true → s.regSet 0 (.part n d) v = asks s1 3 (s.tasks.filter fun t =>
          decide (t.2.part = n ∧ t.2.state = .running) && t.2.pages.any fun p =>
            decide (p / 40 = d) && old.getLsbD (p % 40 / 4) && !v.getLsbD (p % 40 / 4))))
  ∧ (∀ (s : State) (fn n d : Nat) (v : BitVec 512),
      let a := (s.partDie n d).s1inv
      let b := (s.partDie n d).s2inv
      let start := fun (u : State) stage => u.modDie d fun x => { x with invs := x.invs ++ [{ part := n, stage := stage, due := s.cycle + Config.latInvalidate }] }
      (fld a 127 112 ≠ fld a 143 128 → s.regSet fn (.s1inv n d) v = s) ∧ (fld b 127 112 ≠ fld b 143 128 → s.regSet 0 (.s2inv n d) v = s)
      ∧ (n < s.parts.length → d < (s.part n).dies.length → fld a 127 112 = fld a 143 128 → fld v 127 112 ≠ fld a 143 128 →
          s.regSet fn (.s1inv n d) v = start (s.modPartDie n d fun r =>
            { r with s1inv := take a v (bitMask 47 16 + bitMask 95 64 + bitMask 100 96 + bitMask 127 112) }) 1)
      ∧ (n < s.parts.length → d < (s.part n).dies.length → fld b 127 112 = fld b 143 128 → fld v 127 112 ≠ fld b 143 128 →
          s.regSet 0 (.s2inv n d) v = start (s.modPartDie n d fun r =>
            { r with s2inv := take b v (bitMask 47 16 + bitMask 95 64 + bitMask 127 112) }) 2))
  ∧ (∀ (s : State) (fn : Nat) (v : BitVec 512) (t : Task) (st : Nat), s.task (fld v 31 0) = some t → t.tid = fld v 31 0 → t.leaseFault = some st →
      t.state = .leaseWait →
      let mine := (fn = 0 ∧ (st = 2 ∨ st = 3)) ∨ (fn ≠ 0 ∧ st = 1 ∧ t.part = fn - 1)
      mine →
        let u := if v.getLsbD 32 then s.endTask t.tid else s.modTask t.tid fun t => { t with leaseFault := none }
        s.regSet fn (.lfack fn) v = if fn = 0 then { u with dev := { u.dev with lfack := take u.dev.lfack v (bitMask 32 0) } }
          else u.modPart (fn - 1) fun p => { p with lfack := take p.lfack v (bitMask 32 0) })
  ∧ (∀ (s : State) (n : Nat) (v : BitVec 512),
      let old := (s.part n).lm
      let new := take old v (bitMask 111 96 + bitMask 177 176 + bitMask 180 180 + (if old.getLsbD 176 then 0 else bitMask 63 7 + bitMask 79 64 + bitMask 175 118))
      let rest := old.getLsbD 180 = true ∧ (∀ t ∈ s.tasks, t.2.part = n → t.2.state ≠ .running) ∧ ∀ b ∈ s.bounds, b.part ≠ n
      (v.getLsbD 179 = true → v.getLsbD 180 = false ∨ old.getLsbD 180 = true →
        s.regSet 0 (.lm n) v = ({ s with moved := s.moved ++ if rest then s.finalRound n else [] } : State).modPart n fun p =>
          { p with lm := setFld (setFld new 178 178 (1 - fld old 178 178)) 177 177 0, logged := 0 })
      ∧ (v.getLsbD 179 = false → v.getLsbD 180 = true → old.getLsbD 180 = false →
          s.regSet 0 (.lm n) v = asks (s.modPart n fun p => { p with lm := new }) 2 (s.tasks.filter fun t => decide (t.2.part = n ∧ t.2.state = .running))))
  ∧ (∀ (s : State) (fn d j i : Nat) (v : BitVec 512),
      let r := take ((s.slice d j).retain.getD i 0) v (bitMask 63 9 + bitMask 127 73 + bitMask 136 128)
      (12 < (s.slice d j).total i + retOwns r → s.regSet fn (.retain d j i) v = s)
      ∧ (retWays r ≤ 12 → (s.slice d j).total i + retOwns r ≤ 12 → 
          let s1 := s.modDie d fun x => { x with slices := modAt x.slices j fun sl => sl.setRetain i r }
          let ts := s.tasks.map fun t => (t.1, { t.2 with claims := t.2.claims.filter fun c => decide (c ≠ (d, i)) })
          s.regSet fn (.retain d j i) v = { s1 with tasks := ts }))
  ∧ (∀ (s : State) (fn d i : Nat) (v : BitVec 512),
      let x := s.die d
      let old := x.cmprange.getD i 0
      let new := setFld (take old v (bitMask 63 16 + bitMask 127 80 + bitMask 191 144 + bitMask 255 201 + bitMask 259 256)) 260 260 0
      let resident := ∃ sl ∈ x.slices, ∃ l ∈ sl.lines, inRange old (l.line * 512) = true ∨ inRange new (l.line * 512) = true
      let pair := fld new 259 258 ≤ 2 ∧ (fld new 257 256 ≤ 1 ∨ (fld new 257 256 = 2 ∧ fld new 259 258 = 0))
      let keyed := fld new 257 256 ≠ 0 ∧ ∃ y ∈ s.tum.pot, y.1 / 2 ^ 32 = d ∧ 1 ≤ y.2.cls ∧ y.2.cls ≤ 3 ∧ fld new 63 0 < (y.1 % 2 ^ 32 + 1) * 65536
        ∧ y.1 % 2 ^ 32 * 65536 < fld new 63 0 + fld new 127 64
      (resident ∨ ¬ pair ∨ keyed → s.regSet fn (.cmprange d i) v = s.modDie d fun x => { x with cmprange := x.cmprange.set i (setFld old 260 260 1) })
      ∧ (¬ resident → pair → ¬ keyed → s.regSet fn (.cmprange d i) v = s.modDie d fun x => { x with cmprange := x.cmprange.set i new }))
  ∧ (∀ (s : State) (n : Nat) (v : BitVec 512),
      let refused := fld v 63 50 ≠ 0 ∨ (s.part n).vstat.getLsbD 63 = true ∨ s.spillOwned n v = false
      (refused → s.regSet 0 (.vspill n) v = s)
      ∧ (¬ refused → s.regSet 0 (.vspill n) v = s.modPart n fun p => { p with vspill := take p.vspill v (bitMask 95 16) }))
  ∧ (∀ (s : State) (fn n : Nat) (v : BitVec 512),
      let held := ∃ t ∈ s.tasks, t.2.part = n ∧ (t.2.state = .loading ∨ (t.2.saveSlot.isSome = true ∧ t.2.state ≠ .running ∧ t.2.state ≠ .ending))
      (held → s.regSet fn (.savearea n) v = s)
      ∧ (¬ held → s.regSet fn (.savearea n) v = s.modPart n fun p => { p with savearea := take p.savearea v (bitMask 95 16) }))
  ∧ ∀ (s : State) (fn d i : Nat) (v : BitVec 512),
      let m := (s.die d).mig.getD i {}
      let st := fld m.reg 206 204
      let r := take m.reg v (bitMask 63 16 + bitMask 127 80 + bitMask 191 131 + bitMask 199 192 + (if fld v 203 200 = 0 then 0 else bitMask 203 200))
      let put := fun (m : Mig) => s.modDie d fun x => { x with mig := x.mig.set i m }
      (st = 1 ∨ st = 2 → s.regSet fn (.mig d i) v = s)
      ∧ (st ≠ 1 → st ≠ 2 → fld v 206 204 ≠ 1 → s.regSet fn (.mig d i) v = put { m with reg := r })
      ∧ (st ≠ 1 → st ≠ 2 → fld v 206 204 = 1 → s.migOk d r = false → s.regSet fn (.mig d i) v = put { m with reg := setFld r 206 204 4 })
      ∧ (st ≠ 1 → st ≠ 2 → fld v 206 204 = 1 → s.migOk d r = true → s.regSet fn (.mig d i) v = put
          { reg := setFld (setFld (setFld r 206 204 1) 210 207 0) 220 211 0, mask := 0, todo := List.range 512, due := s.cycle + Config.latL2Die })

namespace Sys2Proof.Claims

/-! ## Events, translations, domain, resets -/

/-- A site of the device's memories holds no waiting error of a kind. -/
def without (l : List HwSite) (x : HwSite) : List HwSite := l.filter fun y => decide (y ≠ x)

/-- A field of the housekeeping status of a die counts one more, without passing its highest value (R479). -/
def counted (s : State) (d lo : Nat) : State := s.modDie d fun x =>
  { x with hkstat := setFld x.hkstat (lo + 31) lo (min (fld x.hkstat (lo + 31) lo + 1) 0xFFFFFFFF) }

/-- The requests of another device that end in one page, with tag, writing or not, address, and the same request at another address. -/
def flitAsks : FlitBody → List (FlitBody × (Nat × Bool × W64) × (W64 → FlitBody))
  | .read ctag va len => [(.read ctag va len, (ctag, false, va), fun a => .read ctag a len)]
  | .reduce ctag va cell ty x => [(.reduce ctag va cell ty x, (ctag, true, va), fun a => .reduce ctag a cell ty x)]
  | .atomic ctag va kind width x y => [(.atomic ctag va kind width x y, (ctag, true, va), fun a => .atomic ctag a kind width x y)]
  | .signal _ _ _ | .remoteBytes _ _ _ | .refusal _ _ _ _ _ | .forwarded _ _ | .session _ _ _ _ _ _ | .image _ _ _ | .write _ _ _ _ _ | .commit _ _ _ | .commitSet _ _ | .dropSet _ _ => []
end Sys2Proof.Claims

/-- R169, R396, R404 to R406, R418 to R420: EVENT_GRANT grants the oldest wait that its count covers and takes its need off the count; REMOTE_WALK_COMPLETE enters a
translation, an unpinned one making room in a full TLB; INVALIDATION_ACK drops the covered translations and acknowledges its ticket once no request that
they translated is on its way; MIGRATION_ROUND copies one sector after another and MIGRATION_FINAL_ROUND
switches the page to its destination. Model's choices it rests on: notes/assumptions 4, 22, 66 (latencies; TLB; pace of a migration). -/
def Obligations.MemoryEventsMoveTranslations : Prop :=
  (∀ (s : State) (part n : Nat) (x : Waiter) (need : Nat) (r : List (Waiter × Nat)), s.focus.ev = .eventGrant part n →
      ((s.part part).event n).queue = (x, need) :: r →
      let e := (s.part part).event n
      let s1 := s.modEvent part n fun e => { e with count := e.count - BitVec.ofNat 32 need, queue := r }
      (e.count.toNat < need → exec .vEventGrant s = .next s)
      ∧ (need ≤ e.count.toNat → ∀ tid rp, x = .page tid rp → (∀ t, s.task tid = some t → t.dual = none) → exec .vEventGrant s = .next (s1.grantPage tid rp))
      ∧ (need ≤ e.count.toNat → ∀ tid rp t u, x = .page tid rp → s.task tid = some t → t.dual = some u →
          exec .vEventGrant s = .next ((s1.grantPage tid rp).grantPage u rp))
      ∧ (need ≤ e.count.toNat → ∀ d k, x = .graph d k → (s.inst d k).phase = .queued → Answers (exec .vEventGrant s) fun u =>
          (u.inst d k).phase = .ready ∧ (u.inst d k).pc = (s.inst d k).pc + 1 ∧ (u.inst d k).g = (s.inst d k).g
            ∧ ((u.part part).event n).queue = ((s1.part part).event n).queue))
  ∧ (∀ (s : State) (d : Nat) (q : WalkReq), s.focus.ev = .remoteWalkComplete d q →
      ((∀ y ∈ (s.die d).walks, y.2 = q → s.cycle < y.1) → exec .vRemoteWalkComplete s = .next s)
      ∧ ((∃ y ∈ (s.die d).walks, y.2 = q ∧ y.1 ≤ s.cycle) →
          let s1 := s.modDie d fun x => { x with walks := x.walks.filter fun (y : Nat × WalkReq) => decide (y.2 ≠ q) }
          (∀ st, s1.walk d q.part q.tenant q.vpn = .error st → exec .vRemoteWalkComplete s = .next s1)
          ∧ ∀ e, s1.walk d q.part q.tenant q.vpn = .ok e →
              let known := ∃ y ∈ (s.die d).tlb, y.part = q.part ∧ y.tenant = q.tenant ∧ y.vpn = q.vpn
              (known → exec .vRemoteWalkComplete s = .next s1)
              ∧ (¬ known → (s.die d).tlb.length < 32768 → exec .vRemoteWalkComplete s = .next (s1.modDie d fun x => { x with tlb := x.tlb ++ [e] }))
              ∧ (¬ known → 32768 ≤ (s.die d).tlb.length → (∀ y ∈ (s.die d).tlb, y.pinned = true) → exec .vRemoteWalkComplete s = .next s1)
              ∧ (¬ known → 32768 ≤ (s.die d).tlb.length → d < s.dies.length → (∃ y ∈ (s.die d).tlb, y.pinned = false) →
                  Answers (exec .vRemoteWalkComplete s) fun u => e ∈ (u.die d).tlb ∧ (u.die d).tlb.length ≤ (s.die d).tlb.length
                    ∧ ∀ y ∈ (s.die d).tlb, y.pinned = true → y ∈ (u.die d).tlb)))
  ∧ (∀ (s : State) (d part stage : Nat), s.focus.ev = .invalidationAck d part stage → stage = 1 ∨ stage = 2 →
      ((∀ i ∈ (s.die d).invs, i.part = part → i.stage = stage → s.cycle < i.due) → exec .vInvalidationAck s = .next s)
      ∧ ∀ i, d < s.dies.length → part < s.parts.length → d < (s.part part).dies.length →
          (s.die d).invs.find? (fun i => decide (i.part = part ∧ i.stage = stage ∧ i.due ≤ s.cycle)) = some i →
          let reg := fun (u : State) => if stage = 1 then (u.partDie part d).s1inv else (u.partDie part d).s2inv
          let covered := fun (e : TlbE) => e.part = part ∧ invCovers stage (reg s) e = true
          let reaches := fun (name : Nat) => s.reaching part [name] = true
          (i.gone = none → Answers (exec .vInvalidationAck s) fun u =>
            (∀ e ∈ (u.die d).tlb, e.pinned = false → ¬ covered e) ∧ ∀ e ∈ (s.die d).tlb, ¬ covered e → e ∈ (u.die d).tlb)
          ∧ (let waits := (i.gone = none ∧ ∃ e ∈ (s.die d).tlb, covered e ∧ reaches e.out) ∨ ∃ l, i.gone = some l ∧ ∃ n ∈ l, reaches n
             (waits → Answers (exec .vInvalidationAck s) fun u => reg u = reg s ∧ ∃ j ∈ (u.die d).invs, j.part = part ∧ j.stage = stage ∧ j.gone ≠ none)
             ∧ (¬ waits → Answers (exec .vInvalidationAck s) fun u =>
                fld (reg u) 143 128 = fld (reg s) 127 112 ∧ ∀ j ∈ (u.die d).invs, j ≠ i)))
  ∧ (∀ (s : State) (d n : Nat) (src dst : Nat × Nat), s.focus.ev = .migrationRound d n → s.migPages (s.mig d n) = some (src, dst) →
      let m := s.mig d n
      (fld m.reg 206 204 ≠ 1 ∨ s.cycle < m.due → exec .vMigrationRound s = .next s)
      ∧ (fld m.reg 206 204 = 1 → m.due ≤ s.cycle → ∀ k rest, m.todo = k :: rest → rest ≠ [] →
          exec .vMigrationRound s = .next ((s.copySector src dst k).modMig d n fun m => { m with todo := rest, due := s.cycle + Config.latL2Die }))
      ∧ (fld m.reg 206 204 = 1 → m.due ≤ s.cycle → ∀ k, m.todo = [k] →
          let marked := (List.range 512).filter fun i => m.mask.getLsbD i
          let round := fld m.reg 210 207 + 1
          let last := marked.length ≤ fld m.reg 199 192 ∨ round = fld m.reg 203 200
          exec .vMigrationRound s = .next ((s.copySector src dst k).modMig d n fun _ =>
            { reg := setFld (setFld (setFld m.reg 210 207 round) 220 211 marked.length) 206 204 (if last then 2 else 1)
              todo := if last then [] else marked, mask := if last then m.mask else 0, due := s.cycle + Config.latL2Die })))
  ∧ ∀ (s : State) (d n : Nat) (src dst : Nat × Nat), s.focus.ev = .migrationFinalRound d n → s.migPages (s.mig d n) = some (src, dst) →
      let m := s.mig d n
      (fld m.reg 206 204 ≠ 2 ∨ s.cycle < m.due → exec .vMigrationFinalRound s = .next s)
      ∧ (fld m.reg 206 204 = 2 → m.due ≤ s.cycle →
          let e := (s.localDie (fld m.reg 191 176)).getD d
          let at_ := fld m.reg 175 128
          let s1 := ((List.range 512).filter fun i => m.mask.getLsbD i).foldl (fun s k => s.copySector src dst k) s
          let leaf := leNat (s1.committedN e at_ 8) % 65536 + dst.2 * 65536 + s.dieField dst.1 * 2 ^ 48
          let s2 := (s1.store e ((leBytes 8 leaf).zipIdx.map fun x => (at_ + x.2, x.1))).modDie e fun x =>
            { x with tlb := x.tlb.map fun t => if t.out = s.dieField src.1 * 2 ^ 32 + src.2 then { t with out := s.dieField dst.1 * 2 ^ 32 + dst.2 } else t }
          let s3 := (s2.renamePage src dst).setPot dst.1 dst.2 (s2.potAt src.1 (src.2 * 65536)) false
          let s4 : State := { s3 with tum := { s3.tum with pot := assocDel s3.tum.pot (src.1 * 2 ^ 32 + src.2) } }
          exec .vMigrationFinalRound s = .next (((s4.scrub 16 src.1 src.2).purge src.1 src.2).modMig d n fun m =>
            { m with reg := setFld m.reg 206 204 3, mask := 0, todo := [] }))

/-- R393 to R395, R398 to R401, R438, R439, R443, R447, R458, R460, R462, R477 to R479: links fail and routes come back; a held request traps after the domain's limit, at the element that
made it; a good flit on a secured link is counted and, in a domain, acts once: a request is served where its page lies, forwarded by its owning die, or refused to its
sender, and a member set's writes wait for its commit; a pod peer's session or image opens here when it has a place; a bad one changes nothing; a datagram in order stores its bytes; errors are counted, scrubbed and never change a value; the clock changes
only durations; the debug port answers when unlocked; a heartbeat completes a firmware switch and its deadline takes the switch back; while the Pintles hold, no packet, selection, placement or graph word
starts. Model's choices it rests on: notes/assumptions 4, 6, 67, 68, 69, 89, 101
(other devices; held requests; counters; refused writes; graph words that time out; what a firmware switch holds). -/
def Obligations.DeviceEventsHaveTheirEffect : Prop :=
  (∀ (s : State) (n : Nat) (lost : List Nat), s.focus.ev = .linkFail n lost →
      exec .vLinkFail s = .next { s with
        dev := { s.dev with links := modAt s.dev.links n fun l => setFld (setFld l 1 0 0) 15 2 0x3FFF }, noRoute := (s.noRoute ++ lost).eraseDups })
  ∧ (∀ (s : State) (dev : Nat), s.focus.ev = .routeComesBack dev →
      exec .vRouteComesBack s = .next { s with noRoute := s.noRoute.filter fun x => decide (x ≠ dev) })
  ∧ (∀ (s : State) (dev : Nat), s.focus.ev = .domainLinkTimeout dev →
      let limit := fld s.dev.domlto 31 0
      let late := fun (c : Nat) => limit ≠ 0 ∧ c + limit * 1024 ≤ s.cycle
      let noWord := ∀ d < 4, ∀ k < 64, ∀ c va, (s.inst d k).heldSince = some c → s.graphHeld d k = some (dev, va) → ¬ late c
      ((∀ t ∈ s.tasks, ∀ h ∈ t.2.held, ∀ va, s.heldFor t.2 h.1 = some (dev, va) → ¬ late h.2) → noWord → exec .vDomainLinkTimeout s = .next s)
      ∧ (∀ tid t u c va, s.tasks = [(tid, t)] → t.held = [(u, c)] → s.heldFor t u = some (dev, va) → late c → noWord →
          exec .vDomainLinkTimeout s = .next ((s.timeOut t va u).modTask t.tid fun t => { t with held := t.held.filter fun y => decide (y.1 ≠ u) }))
      ∧ (∀ d < 4, ∀ k < 64, ∀ c va, s.tasks = [] → (s.inst d k).heldSince = some c → s.graphHeld d k = some (dev, va) → late c →
          (∀ e < 4, ∀ j < 64, (e, j) ≠ (d, k) → (s.inst e j).heldSince = none) → exec .vDomainLinkTimeout s = .next (s.gfault d k 2)))
  ∧ (∀ (s : State) (t : Task) (va0 : W64),
      let va := s.resolve (t.home.getD t.die) va0
      let r : Cause := { cls := 2, code := 7, core := 0xFF, flags := 8, addr := va }
      (∀ p, s.timeOut t va0 (.seq p) = s.seqTrap p 2 7 (some va)) ∧ (∀ p c, s.timeOut t va0 (.tile p c) = s.macroTrap p c 2 7 (some va))
        ∧ (∀ p n, s.timeOut t va0 (.engine p n) = s.engineTrap p n 2 7 (some va)) ∧ (∀ p n, s.timeOut t va0 (.port p n) = s.portTrap p n 2 7 (some va))
        ∧ s.timeOut t va0 .bound = s.raise t.tid r ∧ s.timeOut t va0 .image = s.postTrap t { cause := r, tid := t.tid, ctag := t.ctag, tco := t.tco, cycle := s.cycle })
  ∧ (∀ (s : State) (n : Nat), s.focus.ev = .linkKeyUpdate n →
      exec .vLinkKeyUpdate s = .next (if (assocGet s.rxFlits n).getD 0 < 2 ^ 32 then s else { s with rxFlits := assocSet s.rxFlits n 0 }))
  ∧ (∀ (s : State) (n : Nat) (f : Flit), s.focus.ev = .flitReceive n f →
      let s1 : State := { s with rxFlits := assocSet s.rxFlits n ((assocGet s.rxFlits n).getD 0 + 1) }
      let up := fld (s.dev.links.getD n 0) 1 0 = 2 ∧ f.good = true
      let asks : List (FlitBody × (Nat × Bool × W64) × (W64 → FlitBody)) := flitAsks f.body
      (¬ up → exec .vFlitReceive s = .next s)
      ∧ (up → fld s.dev.domid 13 0 = 0x3FFF → exec .vFlitReceive s = .next s1)
      ∧ (up → fld s.dev.domid 13 0 ≠ 0x3FFF →
          (∀ part ev inc, f.body = .signal part ev inc → exec .vFlitReceive s = .next (s1.signal part ev inc))
          ∧ (∀ ctag va data, f.body = .remoteBytes ctag va data →
              let left := s1.refused.filter fun (x : Refused) => decide (¬(x.ctag = ctag ∧ x.page = va.toNat / 65536 ∧ x.write = false))
              exec .vFlitReceive s = .next (({ s1 with refused := left } : State).peerCommit ctag va.toNat data))
          ∧ (∀ ctag va write cls code, f.body = .refusal ctag va write cls code → exec .vFlitReceive s = .next
              { s1 with refused := { ctag := ctag, page := va.toNat / 65536, write := write, cls := cls, code := code } :: s1.refused })
          ∧ (∀ part tenant id ktx stx ctx, f.body = .session part tenant id ktx stx ctx →
              ((∃ y ∈ s.tum.sessions, y.id = id) → exec .vFlitReceive s = .next s1)
              ∧ ((∀ y ∈ s.tum.sessions, y.id ≠ id) → exec .vFlitReceive s = .next { s1 with tum := { s1.tum with
                  sessions := s1.tum.sessions ++ [{ id := id, part := part, tenant := tenant, ktx := ktx, stx := stx, ctx := ctx, enc := true, dec := false }] } }))
          ∧ (∀ part header key, f.body = .image part header key →
              let pod := leAt header 0x138 4 % 2 = 1
              (¬ pod ∨ 64 ≤ s.tum.models.length → exec .vFlitReceive s = .next s1)
              ∧ (pod → s.tum.models.length < 64 → ∀ i < 64, s.model part i = none → (∀ j < i, s.model part j ≠ none) →
                  exec .vFlitReceive s = .next { s1 with tum := { s1.tum with
                    models := s1.tum.models ++ [{ part := part, idx := i, header := header, key := key }]
                    modelIds := assocSet s1.tum.modelIds (64 * part + i) ((header.drop 8).take 16) } }))
          ∧ (∀ wr b, f.body = .forwarded wr b → exec .vFlitReceive s = .next (s1.flitBody n (some wr) b))
          ∧ (∀ b ∈ asks, f.body = b.1 →
              let ctag := b.2.1.1
              let write := b.2.1.2.1
              let va := b.2.1.2.2
              (∀ e, s1.inbound ctag write none va = .error e →
                exec .vFlitReceive s = .next (s1.emit (.link n) (.refusal ctag va write e.cls e.code)))
              ∧ ∀ ga wr, s1.inbound ctag write none va = .ok (.onward ga wr) →
                exec .vFlitReceive s = .next (s1.emit (.die (ga.toNat / 2 ^ 48)) (.forwarded wr (b.2.2 ga))))
          ∧ (∀ ctag va len d pa, f.body = .read ctag va len → s1.inbound ctag false none va = .ok (.here d pa) →
              let s2 := (s1.noteWalk (inWho ctag d) va).1
              exec .vFlitReceive s = .next ((s2.touchL2 (inWho ctag d) va [(Loc.hbm d pa, len, none)]).1.emit (.link n)
                (.remoteBytes ctag va (s2.committedN d pa len))))
          ∧ (∀ ctag va cell ty x d pa, f.body = .reduce ctag va cell ty x → s1.inbound ctag true none va = .ok (.here d pa) →
              let s2 := (s1.noteWalk (inWho ctag d) va).1
              exec .vFlitReceive s = .next (({ s2 with free := s2.free + 1 } : State).commitBytes (ctag / 16) d
                (wonOn (s2.reduceOn (Config.freeNat s2.free) [] { loc := .hbm d pa, cell := cell, ty := ty, addends := [x] }) d)))
          ∧ (∀ ctag va kind width x y d pa, f.body = .atomic ctag va kind width x y → s1.inbound ctag true none va = .ok (.here d pa) →
              let s2 := (s1.noteWalk (inWho ctag d) va).1
              let old := leNat (s2.committedN d pa width)
              let new := if kind = 0 then old + x.toNat else if kind = 1 then (if old = x.toNat % 2 ^ (8 * width) then y.toNat else old) else x.toNat
              exec .vFlitReceive s = .next ((s2.commitBytes (ctag / 16) d ((leBytes width (new % 2 ^ (8 * width))).zipIdx.map fun b => (pa + b.2, b.1))).emit
                (.link n) (.remoteBytes ctag va (leBytes width old))))
          ∧ (∀ ctag va data d pa, data ≠ [] → va.toNat % 65536 + data.length ≤ 65536 → s1.inbound ctag true none va = .ok (.here d pa) →
              let s2 := (s1.noteWalk (inWho ctag d) va).1
              (f.body = .commit ctag va data → exec .vFlitReceive s = .next (s2.commitBytes (ctag / 16) d (data.zipIdx.map fun b => (pa + b.2, b.1))))
              ∧ ∀ set w, f.body = .write ctag set w va data → exec .vFlitReceive s = .next (s2.guestWrite n ctag set w va d pa data))
          ∧ (∀ ctag set, f.body = .commitSet ctag set → exec .vFlitReceive s = .next
              (((List.range 4).foldl (fun u d => if (wonOn (winners (s1.guest ctag set).cells) d).isEmpty then u
                else u.commitBytes (ctag / 16) d (wonOn (winners (s1.guest ctag set).cells) d)) s1).dropGuest ctag set))
          ∧ ∀ ctag set, f.body = .dropSet ctag set → exec .vFlitReceive s = .next (s1.dropGuest ctag set)))
  ∧ (∀ (s : State) (ctag die pa : Nat) (write wr : Bool) (va : W64), s.localDie (va.toNat / 2 ^ 48) = some die → pa = va.toNat % 2 ^ 48 →
      let kind := if write then Access.write else Access.read
      (∀ e, s.potCheck (ctag / 16) ctag kind write wr die pa = .error e → s.inbound ctag write (some wr) va = .error e)
      ∧ ∀ e, s.potCheck (ctag / 16) ctag kind write wr die pa = .ok e → s.inbound ctag write (some wr) va = .ok (.here die pa))
  ∧ (∀ (s : State) (port : Nat) (x : Datagram), s.focus.ev = .ethernetDatagram port x →
      let next := (assocGet s.dgrams x.qp).getD 0
      let s1 : State := { s with dgrams := assocSet s.dgrams x.qp (next + 1) }
      (fld (s.dev.links.getD (48 + port) 0) 1 0 ≠ 2 ∨ x.good = false ∨ x.seq ≠ next → exec .vEthernetDatagram s = .next s)
      ∧ (fld (s.dev.links.getD (48 + port) 0) 1 0 = 2 → x.good = true → x.seq = next →
          exec .vEthernetDatagram s = .next ((s1.fnWrite (x.part + 1) x.addr x.data).getD s1)))
  ∧ (∀ (s : State) (x : HwSite) (ok : Bool), s.focus.ev = .softError x ok →
      exec .vSoftError s = .next (if ok then { s with soft := s.soft ++ [x] } else counted { s with errs := s.errs ++ [x] } (siteDie x) 96))
  ∧ (∀ (s : State) (x : HwSite), s.focus.ev = .patrolScrub x →
      exec .vPatrolScrub s = .next (if x ∈ s.soft then counted { s with soft := without s.soft x } (siteDie x) 64 else s))
  ∧ (∀ (s : State) (d : Nat) (c : ClockSet), s.focus.ev = .clockChange d c →
      let s1 := s.modDie d fun x => { x with khz := c.khz, hkstat := setFld (setFld x.hkstat 15 0 c.pwr.toNat) 23 16 c.temp.toNat }
      exec .vClockChange s = .next (if c.reduced then counted s1 d 32 else s1))
  ∧ (∀ (s : State) (x : HwSite), s.focus.ev = .debugPortRead x →
      (s.tum.debug = false → exec .vDebugPortRead s = .next s)
      ∧ (s.tum.debug = true → exec .vDebugPortRead s = .next { s with debugOut := s.debugOut ++ [s.siteByte x] }))
  ∧ (∀ (s : State) (fn : Nat) (a : W64) (data : List Byte), s.focus.ev = .pcieSectorEntry fn a data →
      (128 < a.toNat % 128 + data.length ∨ s.fnPlace fn a true = none → exec .vPcieSectorEntry s = .next s)
      ∧ ∀ d pa, a.toNat % 128 + data.length ≤ 128 → s.fnPlace fn a true = some (d, pa) →
          exec .vPcieSectorEntry s = .next (s.commitBytes (if fn = 0 then 16 else fn - 1) d (data.zipIdx.map fun b => (pa + b.2, b.1))))
  ∧ (∀ (s : State) (due : Nat), s.focus.ev = .fwHeartbeat → s.tum.fwDue = some due →
      let i := 1 - fld s.dev.fwst 0 0
      let svn := fld s.dev.fwst (39 + 8 * i) (32 + 8 * i)
      (due ≤ s.cycle → exec .vFwHeartbeat s = .next s)
      ∧ (s.cycle < due → Answers (exec .vFwHeartbeat s) fun u =>
          fld u.dev.fwst 0 0 = i ∧ fld u.dev.fwst 1 1 = 0 ∧ fld u.dev.fwst 2 2 = 0 ∧ fld u.dev.fwst 3 3 = 1
            ∧ fld u.dev.fwst 31 16 = max (fld s.dev.fwst 31 16) svn ∧ u.tum = { s.tum with fwDue := none } ∧ u.pages = s.pages ∧ u.hbm = s.hbm))
  ∧ (∀ s : State, s.cycle < s.tum.hold → s.hostTurns = (s.tum.queue.take 1).map Turn.command ∧ s.selectTurns = [] ∧ s.placeOrder = []
      ∧ ∀ d, (s.die d).nextInst s.cycle (s.heldInst d) = none)
  ∧ ∀ (s : State) (due : Nat), s.focus.ev = .fwSwitchDeadline → s.tum.fwDue = some due →
      (s.cycle < due → exec .vFwSwitchDeadline s = .next s)
      ∧ (due ≤ s.cycle → Answers (exec .vFwSwitchDeadline s) fun u =>
          fld u.dev.fwst 0 0 = fld s.dev.fwst 0 0 ∧ fld u.dev.fwst 4 4 = 1 ∧ fld u.dev.fwst 2 2 = 0 ∧ u.tum.fwDue = none
            ∧ u.tum.hold = s.cycle + Config.latSwitch
            ∧ u.tum.mreg = s.tum.mreg.set 1 (mregExtend (List.replicate 48 0) (Config.fwDigest 2 (s.tum.slots.getD (fld s.dev.fwst 0 0) []))))

/-- R426, R427, R475, R476: a function-level reset ends the partition's tasks, closes its channels and returns its registers to their values after reset; PF0's reset
does so for every partition and keeps domid and the links; a cold reset leaves the module at its reset state with the firmware slots, the floor and the active slot as
they are; after reset nothing is enabled, no page is owned, memory lists nothing. Model's choices it rests on: notes/assumptions 1, 2, 58 (values that the spec states no reset for; registers that no reset rule names). -/
def Obligations.ResetsLeaveTheStatedValues : Prop :=
  (∀ (s : State) (n : Nat), s.focus.ev = .vfFlr n → n < s.parts.length → Answers (exec .vVfFlr s) fun u =>
      (∀ t ∈ u.tasks, t.2.part ≠ n)
      ∧ (let p := u.part n
         p.schw = List.replicate 16 1 ∧ p.schq = 20 ∧ p.vspill = 0 ∧ p.vstat = 0 ∧ p.savearea = 0 ∧ p.colltmo = 0x4000 ∧ p.lm = 0 ∧ p.events = []
           ∧ p.lib = [] ∧ p.objs = [] ∧ ∀ c ∈ p.chans, c.on = false))
  ∧ (∀ s : State, s.focus.ev = .pf0Flr → Answers (exec .vPf0Flr s) fun u =>
      u.parts = List.replicate 16 {} ∧ u.dev.domid = s.dev.domid ∧ u.dev.links = s.dev.links ∧ u.dev.ident = s.dev.ident ∧ u.dev.domlto = 0x4000
        ∧ u.staged = [] ∧ u.tum.queue = [])
  ∧ (∀ s : State, s.focus.ev = .coldReset → Answers (exec .vColdReset s) fun u =>
      let c := State.cold (s.tum.boots + 1) (decide (fld s.dev.fwst 0 0 = 1)) (BitVec.ofNat 16 (fld s.dev.fwst 31 16)) s.tum.slots
      u = { c with inputs := u.inputs, peer := s.peer, free := s.free, irqs := s.irqs, debugOut := s.debugOut, moved := s.moved }
        ∧ u.inputs.map (·.2) = s.inputs.map (·.2) ∧ u.hbm = [] ∧ u.pages = [] ∧ u.tasks = [])
  ∧ (State.reset.cycle = 0 ∧ State.reset.pages = [] ∧ State.reset.tasks = [] ∧ State.reset.hbm = [] ∧ State.reset.agenda = [] ∧ State.reset.tum.pot = []
      ∧ State.reset.tum.sessions = [] ∧ State.reset.tum.models = [] ∧ State.reset.parts = List.replicate 16 {} ∧ State.reset.dev.domid = 0x3FFF
      ∧ State.reset.dev.domlto = 0x4000 ∧ State.reset.dev.links = List.replicate 64 0xFFFC ∧ State.reset.dies = List.replicate 4 {}
      ∧ fld State.reset.dev.ident 15 0 = 0x4B34 ∧ State.reset.tum.mreg.getD 2 [] = List.replicate 48 0 ∧ State.reset.tum.mreg.getD 3 [] = List.replicate 48 0)
  ∧ ∀ n < 16, State.reset.enabled n = false ∧ (State.reset.part n).schw = List.replicate 16 1 ∧ (State.reset.part n).schq = 20
      ∧ (State.reset.part n).colltmo = 0x4000

/-! ## The machine as a whole -/

/-- R67, R74, R76: words worked out bit by bit from the encodings: an element FMA and an ADD of bytes, `XADD x3, x4, 12`, an XLI, `TASK g3, 0x40` and a FAULTRD, an
IDENT command; and an opcode of each plane that stands for nothing, which no decoder accepts. -/
def Obligations.WordsDecodeToTheirInstruction : Prop :=
  decode (.elem (0b0110011#7 ++ 0b000010#6 ++ 0b101011#6 ++ 0b111100#6 ++ 0b000010#6 ++ 0b0100#4 ++ 0b10#2 ++ 0b001#3))
    = .ok (.eFma { d := 2, a := 43, b := 60, c := 2, fwd := 4, vm := 2, ty := 1 })
  ∧ decode (.elem 0x04287E8056#40) = .ok (.eAdd { d := 5, a := 3, b := 61, c := 0, fwd := 2, vm := 2, ty := 6 })
  ∧ decode (.seq (0b00000010#8 ++ 0b00011#5 ++ 0b00100#5 ++ 0b00000#5 ++ 0b000000001#9 ++ 12#32)) = .ok (.sXadd { xd := 3, xa := 4, mod := 1, imm := 12 })
  ∧ decode (.seq 0x0008000100000000#64) = .ok (.sXli { xd := 1, mod := 1 })
  ∧ decode (.graph (0b000001#6 ++ 0b0011#4 ++ 0b0000#4 ++ 0b0000#4 ++ 0b00000000000000#14 ++ 0x40#32)) = .ok (.gTask { gd := 3, imm := 0x40 })
  ∧ decode (.graph 0x8280000000000100#64) = .ok (.gFaultrd { gd := 10, imm := 0x100 })
  ∧ decode (.command 0x01 3) = .ok (.cIdent 3)
  ∧ (∀ i, decode (.elem 0xFFFFFFFFFF#40) ≠ .ok i) ∧ (∀ i, decode (.seq 0xFF00000000000000#64) ≠ .ok i)
  ∧ ∀ i, decode (.graph 0xFC00000000000000#64) ≠ .ok i

/-- R67, R74, R76, R272: for every well-formed instruction decoding its encoding gives it back with every operand, and a code that decodes is the one encoding of its
instruction. -/
def Obligations.DecodeOfEncodeIsTheInstruction : Prop :=
  (∀ (i : Instr) (c : Code), i.wf = true → encode i = some c → decode c = .ok i) ∧ ∀ (c : Code) (i : Instr), decode c = .ok i → encode i = some c

/-- R12, R16, R252, R272, R425, R431, R467: a step with turns left takes the first one off the agenda and runs the instruction that its bytes decode to, with the unit in
focus: the sequencer word at pc, the element word of the wave, the graph word at the instance's pc, the command of the mailbox, the packet that the channel queued or that
stands at its ring's head, the row of a write or an event; a quiesced channel's packet joins its queue; with no turn left the cycle ends. Model's choices it rests
on: notes/assumptions 3, 63 (order of turns; packets during a quiesce). -/
def Obligations.StepRunsTheDecodedInstruction : Prop :=
  (∀ s : State, s.agenda = [] → step s = .next s.tick ∧ s.tick.cycle = s.cycle + 1)
  ∧ ∀ (s : State) (t : Turn) (rest : List Turn) (i : Instr), s.agenda = t :: rest →
      let s0 : State := { s with agenda := rest }
      (∀ p, t = .seq p → s0.seqRuns p = true → (s.page p).pc.toNat < (s.page p).nwords →
          decode (.seq ((s.page p).seqMem.getD (s.page p).pc.toNat 0)) = .ok i → step s = exec i { s0 with focus := { s.focus with page := p } })
      ∧ (∀ p, t = .seq p → s0.seqRuns p = true → (s.page p).nwords ≤ (s.page p).pc.toNat → step s = .next (s0.seqTrap p 1 3))
      ∧ (∀ p c side f, t = .word p c side → s0.wordFocus p c side = some f →
          decode (.elem (((s.core f.page f.core).ctab.getD (32 * f.sched.toNat + f.slot) 0).extractLsb' 0 40)) = .ok i →
          step s = exec i { s0 with focus := f })
      ∧ (∀ d k, t = .graph d k → (s.inst d k).runs = true → (s.inst d k).pc < (s.inst d k).code.length →
          decode (.graph ((s.inst d k).code.getD (s.inst d k).pc 0)) = .ok i → step s = exec i { s0 with focus := { s.focus with die := d, inst := k } })
      ∧ (∀ fn, t = .command fn → s.tum.queue.head? = some fn → decode (.command (BitVec.ofNat 8 (fld (s.tmbx fn) 71 64)) fn) = .ok i → step s = exec i s0)
      ∧ (∀ fn, t = .command fn → s.tum.queue.head? = some fn → (∀ j, decode (.command (BitVec.ofNat 8 (fld (s.tmbx fn) 71 64)) fn) ≠ .ok j) →
          step s = .next (s0.mailDone fn 0x01))
      ∧ (∀ n k bs, t = .packet n k → (s.chan n k).takes = true →
          s0.fnRead (n + 1) (BitVec.ofNat 64 (fld (s.chan n k).reg 63 0 + 64 * ((s.chan n k).hhead % (s.chan n k).size))) 64 = some bs →
          (s.quiesced n = true → step s = .next (s0.queuePacket n k bs))
          ∧ (s.quiesced n = false → (s.chan n k).queued = [] →
              decode (.packet { part := n, chan := k, bits := BitVec.ofNat 512 (leNat bs) }) = .ok i → step s = exec i s0))
      ∧ (∀ n k x rest, t = .packet n k → (s.chan n k).acts = true → (s.chan n k).queued = x :: rest → s.quiesced n = false →
          decode (.packet { part := n, chan := k, bits := x }) = .ok i → step s = exec i s0)
      ∧ (∀ w, t = .write w → s0.regRow w = i → step s = exec i { s0 with focus := { s.focus with wr := w } })
      ∧ (∀ e, t = .event e → e.instr = i → step s = exec i { s0 with focus := { s.focus with ev := e } })
      ∧ (∀ p c, t = .land p c → step s = .next (s0.land p c))

/-- Every instruction answers a next state in every state; a step stops only at bits of a plane that are no instruction of it, with the fault reservedWord. Model's choices it rests on: notes/assumptions 5, 47 (free values; no meaning stops). -/
def Obligations.NoInstructionStops : Prop :=
  (∀ (i : Instr) (s : State), ∃ t, exec i s = .next t)
  ∧ (∀ (s : State) (r : Refusal), step s ≠ .refused r)
  ∧ ∀ (s : State) (f : Fault), step s = .fault f → ∃ t rest c s1 e plane, s.agenda = t :: rest ∧ ({ s with agenda := rest } : State).fetch t = .code c s1
      ∧ decode c = .error e ∧ f = .reservedWord plane

/-- The byte memory: a byte reads as it was last written, other bytes read as before, and two memories in canonical form that
read alike are equal. Model's choices it rests on: notes/assumptions 2 (an unlisted byte reads 0). -/
def Obligations.MemoryReadsWhatWasWritten : Prop :=
  (∀ (m : List Host.Cell) (a x : Nat) (b : Byte), Memory.wf m = true → cellGet (cellSet m a b) x = if x = a then b else cellGet m x)
  ∧ (∀ (m : List Host.Cell) (a x : Nat) (bs : List Byte), Memory.wf m = true → cellGet (cellsWrite m a bs) x =
      if a ≤ x ∧ x < a + bs.length then bs.getD (x - a) 0 else cellGet m x)
  ∧ (∀ m n : List Host.Cell, Memory.wf m = true → Memory.wf n = true → (∀ x, cellGet m x = cellGet n x) → m = n)
  ∧ ∀ (s : State) (part d pa : Nat) (bs : List Byte), Memory.wf s.hbm = true → (∀ r ∈ (s.die d).cmprange, fld r 257 256 = 0) →
      (s.part part).lm.getLsbD 176 = false →
      let u := s.commitLoc part (.hbm d pa) bs
      ∀ k, cellGet u.hbm k = if hbmKey d pa ≤ k ∧ k < hbmKey d pa + bs.length then bs.getD (k - hbmKey d pa) 0 else cellGet s.hbm k

/-- Every step keeps HBM and the memory of other devices in canonical form (log 2). Model's choices it rests on: notes/assumptions 2, 6 (memory contents; memory of other devices). -/
def Obligations.StepKeepsMemoryCanonical : Prop :=
  ∀ s t : State, s.wellKept = true → step s = .next t → t.wellKept = true

/-- The state after reset has its memories in canonical form (log 2). Model's choices it rests on: notes/assumptions 2, 6. -/
def Obligations.ResetMemoryIsCanonical : Prop := State.reset.wellKept = true

/-- R75, R12: the scalar words of a sequencer change their xd, the repeat stack and the pc of their own page alone: no byte of memory, no other x register, no core, no
port, no other page, no task. -/
def Obligations.ScalarWordsKeepEverythingElse : Prop :=
  ∀ x ∈ scalarWords, ∀ (w : SWord) (s t : State), exec (x.1 w) s = .next t →
    t.offPages = s.offPages ∧ KeepsBytes s t
    ∧ (∀ q, q ≠ s.focus.page → t.page q = s.page q)
    ∧ ∃ (xs : List W64) (pc : BitVec 11) (rep : List RepE) (ph : Phase),
        t.page s.focus.page = { s.page s.focus.page with x := xs, pc := pc, rep := rep, phase := ph } ∧ ∀ r : BitVec 5, r ≠ w.xd → xs.getD r.toNat 0 = (s.page s.focus.page).x.getD r.toNat 0
end

