-- ==== Sys2Proof/Laws/State.lean ====
section
/-! SUPPORT. What each update of the state leaves alone, one lemma for each field, and what the accessors read after an update. -/
namespace Sys2Proof.Machine

/-! setPage changes pages alone. -/
@[simp] theorem State.setPage_cycle (s : State) (p : Nat) (x : Page) : (s.setPage p x).cycle = s.cycle := rfl
@[simp] theorem State.setPage_agenda (s : State) (p : Nat) (x : Page) : (s.setPage p x).agenda = s.agenda := rfl
@[simp] theorem State.setPage_inputs (s : State) (p : Nat) (x : Page) : (s.setPage p x).inputs = s.inputs := rfl
@[simp] theorem State.setPage_focus (s : State) (p : Nat) (x : Page) : (s.setPage p x).focus = s.focus := rfl
@[simp] theorem State.setPage_free (s : State) (p : Nat) (x : Page) : (s.setPage p x).free = s.free := rfl
@[simp] theorem State.setPage_tasks (s : State) (p : Nat) (x : Page) : (s.setPage p x).tasks = s.tasks := rfl
@[simp] theorem State.setPage_nextTid (s : State) (p : Nat) (x : Page) : (s.setPage p x).nextTid = s.nextTid := rfl
@[simp] theorem State.setPage_nextSet (s : State) (p : Nat) (x : Page) : (s.setPage p x).nextSet = s.nextSet := rfl
@[simp] theorem State.setPage_nextStart (s : State) (p : Nat) (x : Page) : (s.setPage p x).nextStart = s.nextStart := rfl
@[simp] theorem State.setPage_parts (s : State) (p : Nat) (x : Page) : (s.setPage p x).parts = s.parts := rfl
@[simp] theorem State.setPage_dies (s : State) (p : Nat) (x : Page) : (s.setPage p x).dies = s.dies := rfl
@[simp] theorem State.setPage_dev (s : State) (p : Nat) (x : Page) : (s.setPage p x).dev = s.dev := rfl
@[simp] theorem State.setPage_tum (s : State) (p : Nat) (x : Page) : (s.setPage p x).tum = s.tum := rfl
@[simp] theorem State.setPage_hbm (s : State) (p : Nat) (x : Page) : (s.setPage p x).hbm = s.hbm := rfl
@[simp] theorem State.setPage_peer (s : State) (p : Nat) (x : Page) : (s.setPage p x).peer = s.peer := rfl
@[simp] theorem State.setPage_vsects (s : State) (p : Nat) (x : Page) : (s.setPage p x).vsects = s.vsects := rfl
@[simp] theorem State.setPage_bounds (s : State) (p : Nat) (x : Page) : (s.setPage p x).bounds = s.bounds := rfl
@[simp] theorem State.setPage_noRoute (s : State) (p : Nat) (x : Page) : (s.setPage p x).noRoute = s.noRoute := rfl
@[simp] theorem State.setPage_slotImg (s : State) (p : Nat) (x : Page) : (s.setPage p x).slotImg = s.slotImg := rfl
@[simp] theorem State.setPage_refused (s : State) (p : Nat) (x : Page) : (s.setPage p x).refused = s.refused := rfl
@[simp] theorem State.setPage_guests (s : State) (p : Nat) (x : Page) : (s.setPage p x).guests = s.guests := rfl
@[simp] theorem State.setPage_flitsOut (s : State) (p : Nat) (x : Page) : (s.setPage p x).flitsOut = s.flitsOut := rfl
@[simp] theorem State.setPage_sent (s : State) (p : Nat) (x : Page) : (s.setPage p x).sent = s.sent := rfl
@[simp] theorem State.setPage_rxFlits (s : State) (p : Nat) (x : Page) : (s.setPage p x).rxFlits = s.rxFlits := rfl
@[simp] theorem State.setPage_dgrams (s : State) (p : Nat) (x : Page) : (s.setPage p x).dgrams = s.dgrams := rfl
@[simp] theorem State.setPage_errs (s : State) (p : Nat) (x : Page) : (s.setPage p x).errs = s.errs := rfl
@[simp] theorem State.setPage_soft (s : State) (p : Nat) (x : Page) : (s.setPage p x).soft = s.soft := rfl
@[simp] theorem State.setPage_staged (s : State) (p : Nat) (x : Page) : (s.setPage p x).staged = s.staged := rfl
@[simp] theorem State.setPage_irqs (s : State) (p : Nat) (x : Page) : (s.setPage p x).irqs = s.irqs := rfl
@[simp] theorem State.setPage_moved (s : State) (p : Nat) (x : Page) : (s.setPage p x).moved = s.moved := rfl
@[simp] theorem State.setPage_debugOut (s : State) (p : Nat) (x : Page) : (s.setPage p x).debugOut = s.debugOut := rfl

/-! modPage changes pages alone. -/
@[simp] theorem State.modPage_cycle (s : State) (p : Nat) (f : Page → Page) : (s.modPage p f).cycle = s.cycle := rfl
@[simp] theorem State.modPage_agenda (s : State) (p : Nat) (f : Page → Page) : (s.modPage p f).agenda = s.agenda := rfl
@[simp] theorem State.modPage_inputs (s : State) (p : Nat) (f : Page → Page) : (s.modPage p f).inputs = s.inputs := rfl
@[simp] theorem State.modPage_focus (s : State) (p : Nat) (f : Page → Page) : (s.modPage p f).focus = s.focus := rfl
@[simp] theorem State.modPage_free (s : State) (p : Nat) (f : Page → Page) : (s.modPage p f).free = s.free := rfl
@[simp] theorem State.modPage_tasks (s : State) (p : Nat) (f : Page → Page) : (s.modPage p f).tasks = s.tasks := rfl
@[simp] theorem State.modPage_nextTid (s : State) (p : Nat) (f : Page → Page) : (s.modPage p f).nextTid = s.nextTid := rfl
@[simp] theorem State.modPage_nextSet (s : State) (p : Nat) (f : Page → Page) : (s.modPage p f).nextSet = s.nextSet := rfl
@[simp] theorem State.modPage_nextStart (s : State) (p : Nat) (f : Page → Page) : (s.modPage p f).nextStart = s.nextStart := rfl
@[simp] theorem State.modPage_parts (s : State) (p : Nat) (f : Page → Page) : (s.modPage p f).parts = s.parts := rfl
@[simp] theorem State.modPage_dies (s : State) (p : Nat) (f : Page → Page) : (s.modPage p f).dies = s.dies := rfl
@[simp] theorem State.modPage_dev (s : State) (p : Nat) (f : Page → Page) : (s.modPage p f).dev = s.dev := rfl
@[simp] theorem State.modPage_tum (s : State) (p : Nat) (f : Page → Page) : (s.modPage p f).tum = s.tum := rfl
@[simp] theorem State.modPage_hbm (s : State) (p : Nat) (f : Page → Page) : (s.modPage p f).hbm = s.hbm := rfl
@[simp] theorem State.modPage_peer (s : State) (p : Nat) (f : Page → Page) : (s.modPage p f).peer = s.peer := rfl
@[simp] theorem State.modPage_vsects (s : State) (p : Nat) (f : Page → Page) : (s.modPage p f).vsects = s.vsects := rfl
@[simp] theorem State.modPage_bounds (s : State) (p : Nat) (f : Page → Page) : (s.modPage p f).bounds = s.bounds := rfl
@[simp] theorem State.modPage_noRoute (s : State) (p : Nat) (f : Page → Page) : (s.modPage p f).noRoute = s.noRoute := rfl
@[simp] theorem State.modPage_slotImg (s : State) (p : Nat) (f : Page → Page) : (s.modPage p f).slotImg = s.slotImg := rfl
@[simp] theorem State.modPage_refused (s : State) (p : Nat) (f : Page → Page) : (s.modPage p f).refused = s.refused := rfl
@[simp] theorem State.modPage_guests (s : State) (p : Nat) (f : Page → Page) : (s.modPage p f).guests = s.guests := rfl
@[simp] theorem State.modPage_flitsOut (s : State) (p : Nat) (f : Page → Page) : (s.modPage p f).flitsOut = s.flitsOut := rfl
@[simp] theorem State.modPage_sent (s : State) (p : Nat) (f : Page → Page) : (s.modPage p f).sent = s.sent := rfl
@[simp] theorem State.modPage_rxFlits (s : State) (p : Nat) (f : Page → Page) : (s.modPage p f).rxFlits = s.rxFlits := rfl
@[simp] theorem State.modPage_dgrams (s : State) (p : Nat) (f : Page → Page) : (s.modPage p f).dgrams = s.dgrams := rfl
@[simp] theorem State.modPage_errs (s : State) (p : Nat) (f : Page → Page) : (s.modPage p f).errs = s.errs := rfl
@[simp] theorem State.modPage_soft (s : State) (p : Nat) (f : Page → Page) : (s.modPage p f).soft = s.soft := rfl
@[simp] theorem State.modPage_staged (s : State) (p : Nat) (f : Page → Page) : (s.modPage p f).staged = s.staged := rfl
@[simp] theorem State.modPage_irqs (s : State) (p : Nat) (f : Page → Page) : (s.modPage p f).irqs = s.irqs := rfl
@[simp] theorem State.modPage_moved (s : State) (p : Nat) (f : Page → Page) : (s.modPage p f).moved = s.moved := rfl
@[simp] theorem State.modPage_debugOut (s : State) (p : Nat) (f : Page → Page) : (s.modPage p f).debugOut = s.debugOut := rfl

/-! setCore changes pages alone. -/
@[simp] theorem State.setCore_cycle (s : State) (p c : Nat) (k : Core) : (s.setCore p c k).cycle = s.cycle := rfl
@[simp] theorem State.setCore_agenda (s : State) (p c : Nat) (k : Core) : (s.setCore p c k).agenda = s.agenda := rfl
@[simp] theorem State.setCore_inputs (s : State) (p c : Nat) (k : Core) : (s.setCore p c k).inputs = s.inputs := rfl
@[simp] theorem State.setCore_focus (s : State) (p c : Nat) (k : Core) : (s.setCore p c k).focus = s.focus := rfl
@[simp] theorem State.setCore_free (s : State) (p c : Nat) (k : Core) : (s.setCore p c k).free = s.free := rfl
@[simp] theorem State.setCore_tasks (s : State) (p c : Nat) (k : Core) : (s.setCore p c k).tasks = s.tasks := rfl
@[simp] theorem State.setCore_nextTid (s : State) (p c : Nat) (k : Core) : (s.setCore p c k).nextTid = s.nextTid := rfl
@[simp] theorem State.setCore_nextSet (s : State) (p c : Nat) (k : Core) : (s.setCore p c k).nextSet = s.nextSet := rfl
@[simp] theorem State.setCore_nextStart (s : State) (p c : Nat) (k : Core) : (s.setCore p c k).nextStart = s.nextStart := rfl
@[simp] theorem State.setCore_parts (s : State) (p c : Nat) (k : Core) : (s.setCore p c k).parts = s.parts := rfl
@[simp] theorem State.setCore_dies (s : State) (p c : Nat) (k : Core) : (s.setCore p c k).dies = s.dies := rfl
@[simp] theorem State.setCore_dev (s : State) (p c : Nat) (k : Core) : (s.setCore p c k).dev = s.dev := rfl
@[simp] theorem State.setCore_tum (s : State) (p c : Nat) (k : Core) : (s.setCore p c k).tum = s.tum := rfl
@[simp] theorem State.setCore_hbm (s : State) (p c : Nat) (k : Core) : (s.setCore p c k).hbm = s.hbm := rfl
@[simp] theorem State.setCore_peer (s : State) (p c : Nat) (k : Core) : (s.setCore p c k).peer = s.peer := rfl
@[simp] theorem State.setCore_vsects (s : State) (p c : Nat) (k : Core) : (s.setCore p c k).vsects = s.vsects := rfl
@[simp] theorem State.setCore_bounds (s : State) (p c : Nat) (k : Core) : (s.setCore p c k).bounds = s.bounds := rfl
@[simp] theorem State.setCore_noRoute (s : State) (p c : Nat) (k : Core) : (s.setCore p c k).noRoute = s.noRoute := rfl
@[simp] theorem State.setCore_slotImg (s : State) (p c : Nat) (k : Core) : (s.setCore p c k).slotImg = s.slotImg := rfl
@[simp] theorem State.setCore_refused (s : State) (p c : Nat) (k : Core) : (s.setCore p c k).refused = s.refused := rfl
@[simp] theorem State.setCore_guests (s : State) (p c : Nat) (k : Core) : (s.setCore p c k).guests = s.guests := rfl
@[simp] theorem State.setCore_flitsOut (s : State) (p c : Nat) (k : Core) : (s.setCore p c k).flitsOut = s.flitsOut := rfl
@[simp] theorem State.setCore_sent (s : State) (p c : Nat) (k : Core) : (s.setCore p c k).sent = s.sent := rfl
@[simp] theorem State.setCore_rxFlits (s : State) (p c : Nat) (k : Core) : (s.setCore p c k).rxFlits = s.rxFlits := rfl
@[simp] theorem State.setCore_dgrams (s : State) (p c : Nat) (k : Core) : (s.setCore p c k).dgrams = s.dgrams := rfl
@[simp] theorem State.setCore_errs (s : State) (p c : Nat) (k : Core) : (s.setCore p c k).errs = s.errs := rfl
@[simp] theorem State.setCore_soft (s : State) (p c : Nat) (k : Core) : (s.setCore p c k).soft = s.soft := rfl
@[simp] theorem State.setCore_staged (s : State) (p c : Nat) (k : Core) : (s.setCore p c k).staged = s.staged := rfl
@[simp] theorem State.setCore_irqs (s : State) (p c : Nat) (k : Core) : (s.setCore p c k).irqs = s.irqs := rfl
@[simp] theorem State.setCore_moved (s : State) (p c : Nat) (k : Core) : (s.setCore p c k).moved = s.moved := rfl
@[simp] theorem State.setCore_debugOut (s : State) (p c : Nat) (k : Core) : (s.setCore p c k).debugOut = s.debugOut := rfl

/-! modCore changes pages alone. -/
@[simp] theorem State.modCore_cycle (s : State) (p c : Nat) (f : Core → Core) : (s.modCore p c f).cycle = s.cycle := rfl
@[simp] theorem State.modCore_agenda (s : State) (p c : Nat) (f : Core → Core) : (s.modCore p c f).agenda = s.agenda := rfl
@[simp] theorem State.modCore_inputs (s : State) (p c : Nat) (f : Core → Core) : (s.modCore p c f).inputs = s.inputs := rfl
@[simp] theorem State.modCore_focus (s : State) (p c : Nat) (f : Core → Core) : (s.modCore p c f).focus = s.focus := rfl
@[simp] theorem State.modCore_free (s : State) (p c : Nat) (f : Core → Core) : (s.modCore p c f).free = s.free := rfl
@[simp] theorem State.modCore_tasks (s : State) (p c : Nat) (f : Core → Core) : (s.modCore p c f).tasks = s.tasks := rfl
@[simp] theorem State.modCore_nextTid (s : State) (p c : Nat) (f : Core → Core) : (s.modCore p c f).nextTid = s.nextTid := rfl
@[simp] theorem State.modCore_nextSet (s : State) (p c : Nat) (f : Core → Core) : (s.modCore p c f).nextSet = s.nextSet := rfl
@[simp] theorem State.modCore_nextStart (s : State) (p c : Nat) (f : Core → Core) : (s.modCore p c f).nextStart = s.nextStart := rfl
@[simp] theorem State.modCore_parts (s : State) (p c : Nat) (f : Core → Core) : (s.modCore p c f).parts = s.parts := rfl
@[simp] theorem State.modCore_dies (s : State) (p c : Nat) (f : Core → Core) : (s.modCore p c f).dies = s.dies := rfl
@[simp] theorem State.modCore_dev (s : State) (p c : Nat) (f : Core → Core) : (s.modCore p c f).dev = s.dev := rfl
@[simp] theorem State.modCore_tum (s : State) (p c : Nat) (f : Core → Core) : (s.modCore p c f).tum = s.tum := rfl
@[simp] theorem State.modCore_hbm (s : State) (p c : Nat) (f : Core → Core) : (s.modCore p c f).hbm = s.hbm := rfl
@[simp] theorem State.modCore_peer (s : State) (p c : Nat) (f : Core → Core) : (s.modCore p c f).peer = s.peer := rfl
@[simp] theorem State.modCore_vsects (s : State) (p c : Nat) (f : Core → Core) : (s.modCore p c f).vsects = s.vsects := rfl
@[simp] theorem State.modCore_bounds (s : State) (p c : Nat) (f : Core → Core) : (s.modCore p c f).bounds = s.bounds := rfl
@[simp] theorem State.modCore_noRoute (s : State) (p c : Nat) (f : Core → Core) : (s.modCore p c f).noRoute = s.noRoute := rfl
@[simp] theorem State.modCore_slotImg (s : State) (p c : Nat) (f : Core → Core) : (s.modCore p c f).slotImg = s.slotImg := rfl
@[simp] theorem State.modCore_refused (s : State) (p c : Nat) (f : Core → Core) : (s.modCore p c f).refused = s.refused := rfl
@[simp] theorem State.modCore_guests (s : State) (p c : Nat) (f : Core → Core) : (s.modCore p c f).guests = s.guests := rfl
@[simp] theorem State.modCore_flitsOut (s : State) (p c : Nat) (f : Core → Core) : (s.modCore p c f).flitsOut = s.flitsOut := rfl
@[simp] theorem State.modCore_sent (s : State) (p c : Nat) (f : Core → Core) : (s.modCore p c f).sent = s.sent := rfl
@[simp] theorem State.modCore_rxFlits (s : State) (p c : Nat) (f : Core → Core) : (s.modCore p c f).rxFlits = s.rxFlits := rfl
@[simp] theorem State.modCore_dgrams (s : State) (p c : Nat) (f : Core → Core) : (s.modCore p c f).dgrams = s.dgrams := rfl
@[simp] theorem State.modCore_errs (s : State) (p c : Nat) (f : Core → Core) : (s.modCore p c f).errs = s.errs := rfl
@[simp] theorem State.modCore_soft (s : State) (p c : Nat) (f : Core → Core) : (s.modCore p c f).soft = s.soft := rfl
@[simp] theorem State.modCore_staged (s : State) (p c : Nat) (f : Core → Core) : (s.modCore p c f).staged = s.staged := rfl
@[simp] theorem State.modCore_irqs (s : State) (p c : Nat) (f : Core → Core) : (s.modCore p c f).irqs = s.irqs := rfl
@[simp] theorem State.modCore_moved (s : State) (p c : Nat) (f : Core → Core) : (s.modCore p c f).moved = s.moved := rfl
@[simp] theorem State.modCore_debugOut (s : State) (p c : Nat) (f : Core → Core) : (s.modCore p c f).debugOut = s.debugOut := rfl

/-! setTask changes tasks alone. -/
@[simp] theorem State.setTask_cycle (s : State) (t : Task) : (s.setTask t).cycle = s.cycle := rfl
@[simp] theorem State.setTask_agenda (s : State) (t : Task) : (s.setTask t).agenda = s.agenda := rfl
@[simp] theorem State.setTask_inputs (s : State) (t : Task) : (s.setTask t).inputs = s.inputs := rfl
@[simp] theorem State.setTask_focus (s : State) (t : Task) : (s.setTask t).focus = s.focus := rfl
@[simp] theorem State.setTask_free (s : State) (t : Task) : (s.setTask t).free = s.free := rfl
@[simp] theorem State.setTask_pages (s : State) (t : Task) : (s.setTask t).pages = s.pages := rfl
@[simp] theorem State.setTask_nextTid (s : State) (t : Task) : (s.setTask t).nextTid = s.nextTid := rfl
@[simp] theorem State.setTask_nextSet (s : State) (t : Task) : (s.setTask t).nextSet = s.nextSet := rfl
@[simp] theorem State.setTask_nextStart (s : State) (t : Task) : (s.setTask t).nextStart = s.nextStart := rfl
@[simp] theorem State.setTask_parts (s : State) (t : Task) : (s.setTask t).parts = s.parts := rfl
@[simp] theorem State.setTask_dies (s : State) (t : Task) : (s.setTask t).dies = s.dies := rfl
@[simp] theorem State.setTask_dev (s : State) (t : Task) : (s.setTask t).dev = s.dev := rfl
@[simp] theorem State.setTask_tum (s : State) (t : Task) : (s.setTask t).tum = s.tum := rfl
@[simp] theorem State.setTask_hbm (s : State) (t : Task) : (s.setTask t).hbm = s.hbm := rfl
@[simp] theorem State.setTask_peer (s : State) (t : Task) : (s.setTask t).peer = s.peer := rfl
@[simp] theorem State.setTask_vsects (s : State) (t : Task) : (s.setTask t).vsects = s.vsects := rfl
@[simp] theorem State.setTask_bounds (s : State) (t : Task) : (s.setTask t).bounds = s.bounds := rfl
@[simp] theorem State.setTask_noRoute (s : State) (t : Task) : (s.setTask t).noRoute = s.noRoute := rfl
@[simp] theorem State.setTask_slotImg (s : State) (t : Task) : (s.setTask t).slotImg = s.slotImg := rfl
@[simp] theorem State.setTask_refused (s : State) (t : Task) : (s.setTask t).refused = s.refused := rfl
@[simp] theorem State.setTask_guests (s : State) (t : Task) : (s.setTask t).guests = s.guests := rfl
@[simp] theorem State.setTask_flitsOut (s : State) (t : Task) : (s.setTask t).flitsOut = s.flitsOut := rfl
@[simp] theorem State.setTask_sent (s : State) (t : Task) : (s.setTask t).sent = s.sent := rfl
@[simp] theorem State.setTask_rxFlits (s : State) (t : Task) : (s.setTask t).rxFlits = s.rxFlits := rfl
@[simp] theorem State.setTask_dgrams (s : State) (t : Task) : (s.setTask t).dgrams = s.dgrams := rfl
@[simp] theorem State.setTask_errs (s : State) (t : Task) : (s.setTask t).errs = s.errs := rfl
@[simp] theorem State.setTask_soft (s : State) (t : Task) : (s.setTask t).soft = s.soft := rfl
@[simp] theorem State.setTask_staged (s : State) (t : Task) : (s.setTask t).staged = s.staged := rfl
@[simp] theorem State.setTask_irqs (s : State) (t : Task) : (s.setTask t).irqs = s.irqs := rfl
@[simp] theorem State.setTask_moved (s : State) (t : Task) : (s.setTask t).moved = s.moved := rfl
@[simp] theorem State.setTask_debugOut (s : State) (t : Task) : (s.setTask t).debugOut = s.debugOut := rfl

/-! modPart changes parts alone. -/
@[simp] theorem State.modPart_cycle (s : State) (n : Nat) (f : Part → Part) : (s.modPart n f).cycle = s.cycle := rfl
@[simp] theorem State.modPart_agenda (s : State) (n : Nat) (f : Part → Part) : (s.modPart n f).agenda = s.agenda := rfl
@[simp] theorem State.modPart_inputs (s : State) (n : Nat) (f : Part → Part) : (s.modPart n f).inputs = s.inputs := rfl
@[simp] theorem State.modPart_focus (s : State) (n : Nat) (f : Part → Part) : (s.modPart n f).focus = s.focus := rfl
@[simp] theorem State.modPart_free (s : State) (n : Nat) (f : Part → Part) : (s.modPart n f).free = s.free := rfl
@[simp] theorem State.modPart_pages (s : State) (n : Nat) (f : Part → Part) : (s.modPart n f).pages = s.pages := rfl
@[simp] theorem State.modPart_tasks (s : State) (n : Nat) (f : Part → Part) : (s.modPart n f).tasks = s.tasks := rfl
@[simp] theorem State.modPart_nextTid (s : State) (n : Nat) (f : Part → Part) : (s.modPart n f).nextTid = s.nextTid := rfl
@[simp] theorem State.modPart_nextSet (s : State) (n : Nat) (f : Part → Part) : (s.modPart n f).nextSet = s.nextSet := rfl
@[simp] theorem State.modPart_nextStart (s : State) (n : Nat) (f : Part → Part) : (s.modPart n f).nextStart = s.nextStart := rfl
@[simp] theorem State.modPart_dies (s : State) (n : Nat) (f : Part → Part) : (s.modPart n f).dies = s.dies := rfl
@[simp] theorem State.modPart_dev (s : State) (n : Nat) (f : Part → Part) : (s.modPart n f).dev = s.dev := rfl
@[simp] theorem State.modPart_tum (s : State) (n : Nat) (f : Part → Part) : (s.modPart n f).tum = s.tum := rfl
@[simp] theorem State.modPart_hbm (s : State) (n : Nat) (f : Part → Part) : (s.modPart n f).hbm = s.hbm := rfl
@[simp] theorem State.modPart_peer (s : State) (n : Nat) (f : Part → Part) : (s.modPart n f).peer = s.peer := rfl
@[simp] theorem State.modPart_vsects (s : State) (n : Nat) (f : Part → Part) : (s.modPart n f).vsects = s.vsects := rfl
@[simp] theorem State.modPart_bounds (s : State) (n : Nat) (f : Part → Part) : (s.modPart n f).bounds = s.bounds := rfl
@[simp] theorem State.modPart_noRoute (s : State) (n : Nat) (f : Part → Part) : (s.modPart n f).noRoute = s.noRoute := rfl
@[simp] theorem State.modPart_slotImg (s : State) (n : Nat) (f : Part → Part) : (s.modPart n f).slotImg = s.slotImg := rfl
@[simp] theorem State.modPart_refused (s : State) (n : Nat) (f : Part → Part) : (s.modPart n f).refused = s.refused := rfl
@[simp] theorem State.modPart_guests (s : State) (n : Nat) (f : Part → Part) : (s.modPart n f).guests = s.guests := rfl
@[simp] theorem State.modPart_flitsOut (s : State) (n : Nat) (f : Part → Part) : (s.modPart n f).flitsOut = s.flitsOut := rfl
@[simp] theorem State.modPart_sent (s : State) (n : Nat) (f : Part → Part) : (s.modPart n f).sent = s.sent := rfl
@[simp] theorem State.modPart_rxFlits (s : State) (n : Nat) (f : Part → Part) : (s.modPart n f).rxFlits = s.rxFlits := rfl
@[simp] theorem State.modPart_dgrams (s : State) (n : Nat) (f : Part → Part) : (s.modPart n f).dgrams = s.dgrams := rfl
@[simp] theorem State.modPart_errs (s : State) (n : Nat) (f : Part → Part) : (s.modPart n f).errs = s.errs := rfl
@[simp] theorem State.modPart_soft (s : State) (n : Nat) (f : Part → Part) : (s.modPart n f).soft = s.soft := rfl
@[simp] theorem State.modPart_staged (s : State) (n : Nat) (f : Part → Part) : (s.modPart n f).staged = s.staged := rfl
@[simp] theorem State.modPart_irqs (s : State) (n : Nat) (f : Part → Part) : (s.modPart n f).irqs = s.irqs := rfl
@[simp] theorem State.modPart_moved (s : State) (n : Nat) (f : Part → Part) : (s.modPart n f).moved = s.moved := rfl
@[simp] theorem State.modPart_debugOut (s : State) (n : Nat) (f : Part → Part) : (s.modPart n f).debugOut = s.debugOut := rfl

/-! modPartDie changes parts alone. -/
@[simp] theorem State.modPartDie_cycle (s : State) (n d : Nat) (f : PartDie → PartDie) : (s.modPartDie n d f).cycle = s.cycle := rfl
@[simp] theorem State.modPartDie_agenda (s : State) (n d : Nat) (f : PartDie → PartDie) : (s.modPartDie n d f).agenda = s.agenda := rfl
@[simp] theorem State.modPartDie_inputs (s : State) (n d : Nat) (f : PartDie → PartDie) : (s.modPartDie n d f).inputs = s.inputs := rfl
@[simp] theorem State.modPartDie_focus (s : State) (n d : Nat) (f : PartDie → PartDie) : (s.modPartDie n d f).focus = s.focus := rfl
@[simp] theorem State.modPartDie_free (s : State) (n d : Nat) (f : PartDie → PartDie) : (s.modPartDie n d f).free = s.free := rfl
@[simp] theorem State.modPartDie_pages (s : State) (n d : Nat) (f : PartDie → PartDie) : (s.modPartDie n d f).pages = s.pages := rfl
@[simp] theorem State.modPartDie_tasks (s : State) (n d : Nat) (f : PartDie → PartDie) : (s.modPartDie n d f).tasks = s.tasks := rfl
@[simp] theorem State.modPartDie_nextTid (s : State) (n d : Nat) (f : PartDie → PartDie) : (s.modPartDie n d f).nextTid = s.nextTid := rfl
@[simp] theorem State.modPartDie_nextSet (s : State) (n d : Nat) (f : PartDie → PartDie) : (s.modPartDie n d f).nextSet = s.nextSet := rfl
@[simp] theorem State.modPartDie_nextStart (s : State) (n d : Nat) (f : PartDie → PartDie) : (s.modPartDie n d f).nextStart = s.nextStart := rfl
@[simp] theorem State.modPartDie_dies (s : State) (n d : Nat) (f : PartDie → PartDie) : (s.modPartDie n d f).dies = s.dies := rfl
@[simp] theorem State.modPartDie_dev (s : State) (n d : Nat) (f : PartDie → PartDie) : (s.modPartDie n d f).dev = s.dev := rfl
@[simp] theorem State.modPartDie_tum (s : State) (n d : Nat) (f : PartDie → PartDie) : (s.modPartDie n d f).tum = s.tum := rfl
@[simp] theorem State.modPartDie_hbm (s : State) (n d : Nat) (f : PartDie → PartDie) : (s.modPartDie n d f).hbm = s.hbm := rfl
@[simp] theorem State.modPartDie_peer (s : State) (n d : Nat) (f : PartDie → PartDie) : (s.modPartDie n d f).peer = s.peer := rfl
@[simp] theorem State.modPartDie_vsects (s : State) (n d : Nat) (f : PartDie → PartDie) : (s.modPartDie n d f).vsects = s.vsects := rfl
@[simp] theorem State.modPartDie_bounds (s : State) (n d : Nat) (f : PartDie → PartDie) : (s.modPartDie n d f).bounds = s.bounds := rfl
@[simp] theorem State.modPartDie_noRoute (s : State) (n d : Nat) (f : PartDie → PartDie) : (s.modPartDie n d f).noRoute = s.noRoute := rfl
@[simp] theorem State.modPartDie_slotImg (s : State) (n d : Nat) (f : PartDie → PartDie) : (s.modPartDie n d f).slotImg = s.slotImg := rfl
@[simp] theorem State.modPartDie_refused (s : State) (n d : Nat) (f : PartDie → PartDie) : (s.modPartDie n d f).refused = s.refused := rfl
@[simp] theorem State.modPartDie_guests (s : State) (n d : Nat) (f : PartDie → PartDie) : (s.modPartDie n d f).guests = s.guests := rfl
@[simp] theorem State.modPartDie_flitsOut (s : State) (n d : Nat) (f : PartDie → PartDie) : (s.modPartDie n d f).flitsOut = s.flitsOut := rfl
@[simp] theorem State.modPartDie_sent (s : State) (n d : Nat) (f : PartDie → PartDie) : (s.modPartDie n d f).sent = s.sent := rfl
@[simp] theorem State.modPartDie_rxFlits (s : State) (n d : Nat) (f : PartDie → PartDie) : (s.modPartDie n d f).rxFlits = s.rxFlits := rfl
@[simp] theorem State.modPartDie_dgrams (s : State) (n d : Nat) (f : PartDie → PartDie) : (s.modPartDie n d f).dgrams = s.dgrams := rfl
@[simp] theorem State.modPartDie_errs (s : State) (n d : Nat) (f : PartDie → PartDie) : (s.modPartDie n d f).errs = s.errs := rfl
@[simp] theorem State.modPartDie_soft (s : State) (n d : Nat) (f : PartDie → PartDie) : (s.modPartDie n d f).soft = s.soft := rfl
@[simp] theorem State.modPartDie_staged (s : State) (n d : Nat) (f : PartDie → PartDie) : (s.modPartDie n d f).staged = s.staged := rfl
@[simp] theorem State.modPartDie_irqs (s : State) (n d : Nat) (f : PartDie → PartDie) : (s.modPartDie n d f).irqs = s.irqs := rfl
@[simp] theorem State.modPartDie_moved (s : State) (n d : Nat) (f : PartDie → PartDie) : (s.modPartDie n d f).moved = s.moved := rfl
@[simp] theorem State.modPartDie_debugOut (s : State) (n d : Nat) (f : PartDie → PartDie) : (s.modPartDie n d f).debugOut = s.debugOut := rfl

/-! modDie changes dies alone. -/
@[simp] theorem State.modDie_cycle (s : State) (d : Nat) (f : Die → Die) : (s.modDie d f).cycle = s.cycle := rfl
@[simp] theorem State.modDie_agenda (s : State) (d : Nat) (f : Die → Die) : (s.modDie d f).agenda = s.agenda := rfl
@[simp] theorem State.modDie_inputs (s : State) (d : Nat) (f : Die → Die) : (s.modDie d f).inputs = s.inputs := rfl
@[simp] theorem State.modDie_focus (s : State) (d : Nat) (f : Die → Die) : (s.modDie d f).focus = s.focus := rfl
@[simp] theorem State.modDie_free (s : State) (d : Nat) (f : Die → Die) : (s.modDie d f).free = s.free := rfl
@[simp] theorem State.modDie_pages (s : State) (d : Nat) (f : Die → Die) : (s.modDie d f).pages = s.pages := rfl
@[simp] theorem State.modDie_tasks (s : State) (d : Nat) (f : Die → Die) : (s.modDie d f).tasks = s.tasks := rfl
@[simp] theorem State.modDie_nextTid (s : State) (d : Nat) (f : Die → Die) : (s.modDie d f).nextTid = s.nextTid := rfl
@[simp] theorem State.modDie_nextSet (s : State) (d : Nat) (f : Die → Die) : (s.modDie d f).nextSet = s.nextSet := rfl
@[simp] theorem State.modDie_nextStart (s : State) (d : Nat) (f : Die → Die) : (s.modDie d f).nextStart = s.nextStart := rfl
@[simp] theorem State.modDie_parts (s : State) (d : Nat) (f : Die → Die) : (s.modDie d f).parts = s.parts := rfl
@[simp] theorem State.modDie_dev (s : State) (d : Nat) (f : Die → Die) : (s.modDie d f).dev = s.dev := rfl
@[simp] theorem State.modDie_tum (s : State) (d : Nat) (f : Die → Die) : (s.modDie d f).tum = s.tum := rfl
@[simp] theorem State.modDie_hbm (s : State) (d : Nat) (f : Die → Die) : (s.modDie d f).hbm = s.hbm := rfl
@[simp] theorem State.modDie_peer (s : State) (d : Nat) (f : Die → Die) : (s.modDie d f).peer = s.peer := rfl
@[simp] theorem State.modDie_vsects (s : State) (d : Nat) (f : Die → Die) : (s.modDie d f).vsects = s.vsects := rfl
@[simp] theorem State.modDie_bounds (s : State) (d : Nat) (f : Die → Die) : (s.modDie d f).bounds = s.bounds := rfl
@[simp] theorem State.modDie_noRoute (s : State) (d : Nat) (f : Die → Die) : (s.modDie d f).noRoute = s.noRoute := rfl
@[simp] theorem State.modDie_slotImg (s : State) (d : Nat) (f : Die → Die) : (s.modDie d f).slotImg = s.slotImg := rfl
@[simp] theorem State.modDie_refused (s : State) (d : Nat) (f : Die → Die) : (s.modDie d f).refused = s.refused := rfl
@[simp] theorem State.modDie_guests (s : State) (d : Nat) (f : Die → Die) : (s.modDie d f).guests = s.guests := rfl
@[simp] theorem State.modDie_flitsOut (s : State) (d : Nat) (f : Die → Die) : (s.modDie d f).flitsOut = s.flitsOut := rfl
@[simp] theorem State.modDie_sent (s : State) (d : Nat) (f : Die → Die) : (s.modDie d f).sent = s.sent := rfl
@[simp] theorem State.modDie_rxFlits (s : State) (d : Nat) (f : Die → Die) : (s.modDie d f).rxFlits = s.rxFlits := rfl
@[simp] theorem State.modDie_dgrams (s : State) (d : Nat) (f : Die → Die) : (s.modDie d f).dgrams = s.dgrams := rfl
@[simp] theorem State.modDie_errs (s : State) (d : Nat) (f : Die → Die) : (s.modDie d f).errs = s.errs := rfl
@[simp] theorem State.modDie_soft (s : State) (d : Nat) (f : Die → Die) : (s.modDie d f).soft = s.soft := rfl
@[simp] theorem State.modDie_staged (s : State) (d : Nat) (f : Die → Die) : (s.modDie d f).staged = s.staged := rfl
@[simp] theorem State.modDie_irqs (s : State) (d : Nat) (f : Die → Die) : (s.modDie d f).irqs = s.irqs := rfl
@[simp] theorem State.modDie_moved (s : State) (d : Nat) (f : Die → Die) : (s.modDie d f).moved = s.moved := rfl
@[simp] theorem State.modDie_debugOut (s : State) (d : Nat) (f : Die → Die) : (s.modDie d f).debugOut = s.debugOut := rfl

/-! modInst changes dies alone. -/
@[simp] theorem State.modInst_cycle (s : State) (d k : Nat) (f : GInst → GInst) : (s.modInst d k f).cycle = s.cycle := rfl
@[simp] theorem State.modInst_agenda (s : State) (d k : Nat) (f : GInst → GInst) : (s.modInst d k f).agenda = s.agenda := rfl
@[simp] theorem State.modInst_inputs (s : State) (d k : Nat) (f : GInst → GInst) : (s.modInst d k f).inputs = s.inputs := rfl
@[simp] theorem State.modInst_focus (s : State) (d k : Nat) (f : GInst → GInst) : (s.modInst d k f).focus = s.focus := rfl
@[simp] theorem State.modInst_free (s : State) (d k : Nat) (f : GInst → GInst) : (s.modInst d k f).free = s.free := rfl
@[simp] theorem State.modInst_pages (s : State) (d k : Nat) (f : GInst → GInst) : (s.modInst d k f).pages = s.pages := rfl
@[simp] theorem State.modInst_tasks (s : State) (d k : Nat) (f : GInst → GInst) : (s.modInst d k f).tasks = s.tasks := rfl
@[simp] theorem State.modInst_nextTid (s : State) (d k : Nat) (f : GInst → GInst) : (s.modInst d k f).nextTid = s.nextTid := rfl
@[simp] theorem State.modInst_nextSet (s : State) (d k : Nat) (f : GInst → GInst) : (s.modInst d k f).nextSet = s.nextSet := rfl
@[simp] theorem State.modInst_nextStart (s : State) (d k : Nat) (f : GInst → GInst) : (s.modInst d k f).nextStart = s.nextStart := rfl
@[simp] theorem State.modInst_parts (s : State) (d k : Nat) (f : GInst → GInst) : (s.modInst d k f).parts = s.parts := rfl
@[simp] theorem State.modInst_dev (s : State) (d k : Nat) (f : GInst → GInst) : (s.modInst d k f).dev = s.dev := rfl
@[simp] theorem State.modInst_tum (s : State) (d k : Nat) (f : GInst → GInst) : (s.modInst d k f).tum = s.tum := rfl
@[simp] theorem State.modInst_hbm (s : State) (d k : Nat) (f : GInst → GInst) : (s.modInst d k f).hbm = s.hbm := rfl
@[simp] theorem State.modInst_peer (s : State) (d k : Nat) (f : GInst → GInst) : (s.modInst d k f).peer = s.peer := rfl
@[simp] theorem State.modInst_vsects (s : State) (d k : Nat) (f : GInst → GInst) : (s.modInst d k f).vsects = s.vsects := rfl
@[simp] theorem State.modInst_bounds (s : State) (d k : Nat) (f : GInst → GInst) : (s.modInst d k f).bounds = s.bounds := rfl
@[simp] theorem State.modInst_noRoute (s : State) (d k : Nat) (f : GInst → GInst) : (s.modInst d k f).noRoute = s.noRoute := rfl
@[simp] theorem State.modInst_slotImg (s : State) (d k : Nat) (f : GInst → GInst) : (s.modInst d k f).slotImg = s.slotImg := rfl
@[simp] theorem State.modInst_refused (s : State) (d k : Nat) (f : GInst → GInst) : (s.modInst d k f).refused = s.refused := rfl
@[simp] theorem State.modInst_guests (s : State) (d k : Nat) (f : GInst → GInst) : (s.modInst d k f).guests = s.guests := rfl
@[simp] theorem State.modInst_flitsOut (s : State) (d k : Nat) (f : GInst → GInst) : (s.modInst d k f).flitsOut = s.flitsOut := rfl
@[simp] theorem State.modInst_sent (s : State) (d k : Nat) (f : GInst → GInst) : (s.modInst d k f).sent = s.sent := rfl
@[simp] theorem State.modInst_rxFlits (s : State) (d k : Nat) (f : GInst → GInst) : (s.modInst d k f).rxFlits = s.rxFlits := rfl
@[simp] theorem State.modInst_dgrams (s : State) (d k : Nat) (f : GInst → GInst) : (s.modInst d k f).dgrams = s.dgrams := rfl
@[simp] theorem State.modInst_errs (s : State) (d k : Nat) (f : GInst → GInst) : (s.modInst d k f).errs = s.errs := rfl
@[simp] theorem State.modInst_soft (s : State) (d k : Nat) (f : GInst → GInst) : (s.modInst d k f).soft = s.soft := rfl
@[simp] theorem State.modInst_staged (s : State) (d k : Nat) (f : GInst → GInst) : (s.modInst d k f).staged = s.staged := rfl
@[simp] theorem State.modInst_irqs (s : State) (d k : Nat) (f : GInst → GInst) : (s.modInst d k f).irqs = s.irqs := rfl
@[simp] theorem State.modInst_moved (s : State) (d k : Nat) (f : GInst → GInst) : (s.modInst d k f).moved = s.moved := rfl
@[simp] theorem State.modInst_debugOut (s : State) (d k : Nat) (f : GInst → GInst) : (s.modInst d k f).debugOut = s.debugOut := rfl

/-! modTask changes tasks alone. -/
@[simp] theorem State.modTask_cycle (s : State) (n : Nat) (f : Task → Task) : (s.modTask n f).cycle = s.cycle := by
  unfold State.modTask; split <;> rfl
@[simp] theorem State.modTask_agenda (s : State) (n : Nat) (f : Task → Task) : (s.modTask n f).agenda = s.agenda := by
  unfold State.modTask; split <;> rfl
@[simp] theorem State.modTask_inputs (s : State) (n : Nat) (f : Task → Task) : (s.modTask n f).inputs = s.inputs := by
  unfold State.modTask; split <;> rfl
@[simp] theorem State.modTask_focus (s : State) (n : Nat) (f : Task → Task) : (s.modTask n f).focus = s.focus := by
  unfold State.modTask; split <;> rfl
@[simp] theorem State.modTask_free (s : State) (n : Nat) (f : Task → Task) : (s.modTask n f).free = s.free := by
  unfold State.modTask; split <;> rfl
@[simp] theorem State.modTask_pages (s : State) (n : Nat) (f : Task → Task) : (s.modTask n f).pages = s.pages := by
  unfold State.modTask; split <;> rfl
@[simp] theorem State.modTask_nextTid (s : State) (n : Nat) (f : Task → Task) : (s.modTask n f).nextTid = s.nextTid := by
  unfold State.modTask; split <;> rfl
@[simp] theorem State.modTask_nextSet (s : State) (n : Nat) (f : Task → Task) : (s.modTask n f).nextSet = s.nextSet := by
  unfold State.modTask; split <;> rfl
@[simp] theorem State.modTask_nextStart (s : State) (n : Nat) (f : Task → Task) : (s.modTask n f).nextStart = s.nextStart := by
  unfold State.modTask; split <;> rfl
@[simp] theorem State.modTask_parts (s : State) (n : Nat) (f : Task → Task) : (s.modTask n f).parts = s.parts := by
  unfold State.modTask; split <;> rfl
@[simp] theorem State.modTask_dies (s : State) (n : Nat) (f : Task → Task) : (s.modTask n f).dies = s.dies := by
  unfold State.modTask; split <;> rfl
@[simp] theorem State.modTask_dev (s : State) (n : Nat) (f : Task → Task) : (s.modTask n f).dev = s.dev := by
  unfold State.modTask; split <;> rfl
@[simp] theorem State.modTask_tum (s : State) (n : Nat) (f : Task → Task) : (s.modTask n f).tum = s.tum := by
  unfold State.modTask; split <;> rfl
@[simp] theorem State.modTask_hbm (s : State) (n : Nat) (f : Task → Task) : (s.modTask n f).hbm = s.hbm := by
  unfold State.modTask; split <;> rfl
@[simp] theorem State.modTask_peer (s : State) (n : Nat) (f : Task → Task) : (s.modTask n f).peer = s.peer := by
  unfold State.modTask; split <;> rfl
@[simp] theorem State.modTask_vsects (s : State) (n : Nat) (f : Task → Task) : (s.modTask n f).vsects = s.vsects := by
  unfold State.modTask; split <;> rfl
@[simp] theorem State.modTask_bounds (s : State) (n : Nat) (f : Task → Task) : (s.modTask n f).bounds = s.bounds := by
  unfold State.modTask; split <;> rfl
@[simp] theorem State.modTask_noRoute (s : State) (n : Nat) (f : Task → Task) : (s.modTask n f).noRoute = s.noRoute := by
  unfold State.modTask; split <;> rfl
@[simp] theorem State.modTask_slotImg (s : State) (n : Nat) (f : Task → Task) : (s.modTask n f).slotImg = s.slotImg := by
  unfold State.modTask; split <;> rfl
@[simp] theorem State.modTask_refused (s : State) (n : Nat) (f : Task → Task) : (s.modTask n f).refused = s.refused := by
  unfold State.modTask; split <;> rfl
@[simp] theorem State.modTask_guests (s : State) (n : Nat) (f : Task → Task) : (s.modTask n f).guests = s.guests := by
  unfold State.modTask; split <;> rfl
@[simp] theorem State.modTask_flitsOut (s : State) (n : Nat) (f : Task → Task) : (s.modTask n f).flitsOut = s.flitsOut := by
  unfold State.modTask; split <;> rfl
@[simp] theorem State.modTask_sent (s : State) (n : Nat) (f : Task → Task) : (s.modTask n f).sent = s.sent := by
  unfold State.modTask; split <;> rfl
@[simp] theorem State.modTask_rxFlits (s : State) (n : Nat) (f : Task → Task) : (s.modTask n f).rxFlits = s.rxFlits := by
  unfold State.modTask; split <;> rfl
@[simp] theorem State.modTask_dgrams (s : State) (n : Nat) (f : Task → Task) : (s.modTask n f).dgrams = s.dgrams := by
  unfold State.modTask; split <;> rfl
@[simp] theorem State.modTask_errs (s : State) (n : Nat) (f : Task → Task) : (s.modTask n f).errs = s.errs := by
  unfold State.modTask; split <;> rfl
@[simp] theorem State.modTask_soft (s : State) (n : Nat) (f : Task → Task) : (s.modTask n f).soft = s.soft := by
  unfold State.modTask; split <;> rfl
@[simp] theorem State.modTask_staged (s : State) (n : Nat) (f : Task → Task) : (s.modTask n f).staged = s.staged := by
  unfold State.modTask; split <;> rfl
@[simp] theorem State.modTask_irqs (s : State) (n : Nat) (f : Task → Task) : (s.modTask n f).irqs = s.irqs := by
  unfold State.modTask; split <;> rfl
@[simp] theorem State.modTask_moved (s : State) (n : Nat) (f : Task → Task) : (s.modTask n f).moved = s.moved := by
  unfold State.modTask; split <;> rfl
@[simp] theorem State.modTask_debugOut (s : State) (n : Nat) (f : Task → Task) : (s.modTask n f).debugOut = s.debugOut := by
  unfold State.modTask; split <;> rfl

/-! later changes the agenda alone. -/
@[simp] theorem State.later_cycle (s : State) (t : Turn) : (s.later t).cycle = s.cycle := by
  unfold State.later; split <;> rfl
@[simp] theorem State.later_inputs (s : State) (t : Turn) : (s.later t).inputs = s.inputs := by
  unfold State.later; split <;> rfl
@[simp] theorem State.later_focus (s : State) (t : Turn) : (s.later t).focus = s.focus := by
  unfold State.later; split <;> rfl
@[simp] theorem State.later_free (s : State) (t : Turn) : (s.later t).free = s.free := by
  unfold State.later; split <;> rfl
@[simp] theorem State.later_pages (s : State) (t : Turn) : (s.later t).pages = s.pages := by
  unfold State.later; split <;> rfl
@[simp] theorem State.later_tasks (s : State) (t : Turn) : (s.later t).tasks = s.tasks := by
  unfold State.later; split <;> rfl
@[simp] theorem State.later_nextTid (s : State) (t : Turn) : (s.later t).nextTid = s.nextTid := by
  unfold State.later; split <;> rfl
@[simp] theorem State.later_nextSet (s : State) (t : Turn) : (s.later t).nextSet = s.nextSet := by
  unfold State.later; split <;> rfl
@[simp] theorem State.later_nextStart (s : State) (t : Turn) : (s.later t).nextStart = s.nextStart := by
  unfold State.later; split <;> rfl
@[simp] theorem State.later_parts (s : State) (t : Turn) : (s.later t).parts = s.parts := by
  unfold State.later; split <;> rfl
@[simp] theorem State.later_dies (s : State) (t : Turn) : (s.later t).dies = s.dies := by
  unfold State.later; split <;> rfl
@[simp] theorem State.later_dev (s : State) (t : Turn) : (s.later t).dev = s.dev := by
  unfold State.later; split <;> rfl
@[simp] theorem State.later_tum (s : State) (t : Turn) : (s.later t).tum = s.tum := by
  unfold State.later; split <;> rfl
@[simp] theorem State.later_hbm (s : State) (t : Turn) : (s.later t).hbm = s.hbm := by
  unfold State.later; split <;> rfl
@[simp] theorem State.later_peer (s : State) (t : Turn) : (s.later t).peer = s.peer := by
  unfold State.later; split <;> rfl
@[simp] theorem State.later_vsects (s : State) (t : Turn) : (s.later t).vsects = s.vsects := by
  unfold State.later; split <;> rfl
@[simp] theorem State.later_bounds (s : State) (t : Turn) : (s.later t).bounds = s.bounds := by
  unfold State.later; split <;> rfl
@[simp] theorem State.later_noRoute (s : State) (t : Turn) : (s.later t).noRoute = s.noRoute := by
  unfold State.later; split <;> rfl
@[simp] theorem State.later_slotImg (s : State) (t : Turn) : (s.later t).slotImg = s.slotImg := by
  unfold State.later; split <;> rfl
@[simp] theorem State.later_refused (s : State) (t : Turn) : (s.later t).refused = s.refused := by
  unfold State.later; split <;> rfl
@[simp] theorem State.later_guests (s : State) (t : Turn) : (s.later t).guests = s.guests := by
  unfold State.later; split <;> rfl
@[simp] theorem State.later_flitsOut (s : State) (t : Turn) : (s.later t).flitsOut = s.flitsOut := by
  unfold State.later; split <;> rfl
@[simp] theorem State.later_sent (s : State) (t : Turn) : (s.later t).sent = s.sent := by
  unfold State.later; split <;> rfl
@[simp] theorem State.later_rxFlits (s : State) (t : Turn) : (s.later t).rxFlits = s.rxFlits := by
  unfold State.later; split <;> rfl
@[simp] theorem State.later_dgrams (s : State) (t : Turn) : (s.later t).dgrams = s.dgrams := by
  unfold State.later; split <;> rfl
@[simp] theorem State.later_errs (s : State) (t : Turn) : (s.later t).errs = s.errs := by
  unfold State.later; split <;> rfl
@[simp] theorem State.later_soft (s : State) (t : Turn) : (s.later t).soft = s.soft := by
  unfold State.later; split <;> rfl
@[simp] theorem State.later_staged (s : State) (t : Turn) : (s.later t).staged = s.staged := by
  unfold State.later; split <;> rfl
@[simp] theorem State.later_irqs (s : State) (t : Turn) : (s.later t).irqs = s.irqs := by
  unfold State.later; split <;> rfl
@[simp] theorem State.later_moved (s : State) (t : Turn) : (s.later t).moved = s.moved := by
  unfold State.later; split <;> rfl
@[simp] theorem State.later_debugOut (s : State) (t : Turn) : (s.later t).debugOut = s.debugOut := by
  unfold State.later; split <;> rfl

/-! A trap joins its task and the agenda (R371); nothing else changes. -/
@[simp] theorem State.raise_cycle (s : State) (n : Nat) (c : Cause) : (s.raise n c).cycle = s.cycle := by simp [State.raise]
@[simp] theorem State.raise_inputs (s : State) (n : Nat) (c : Cause) : (s.raise n c).inputs = s.inputs := by simp [State.raise]
@[simp] theorem State.raise_focus (s : State) (n : Nat) (c : Cause) : (s.raise n c).focus = s.focus := by simp [State.raise]
@[simp] theorem State.raise_free (s : State) (n : Nat) (c : Cause) : (s.raise n c).free = s.free := by simp [State.raise]
@[simp] theorem State.raise_pages (s : State) (n : Nat) (c : Cause) : (s.raise n c).pages = s.pages := by simp [State.raise]
@[simp] theorem State.raise_nextTid (s : State) (n : Nat) (c : Cause) : (s.raise n c).nextTid = s.nextTid := by simp [State.raise]
@[simp] theorem State.raise_nextSet (s : State) (n : Nat) (c : Cause) : (s.raise n c).nextSet = s.nextSet := by simp [State.raise]
@[simp] theorem State.raise_nextStart (s : State) (n : Nat) (c : Cause) : (s.raise n c).nextStart = s.nextStart := by simp [State.raise]
@[simp] theorem State.raise_parts (s : State) (n : Nat) (c : Cause) : (s.raise n c).parts = s.parts := by simp [State.raise]
@[simp] theorem State.raise_dies (s : State) (n : Nat) (c : Cause) : (s.raise n c).dies = s.dies := by simp [State.raise]
@[simp] theorem State.raise_dev (s : State) (n : Nat) (c : Cause) : (s.raise n c).dev = s.dev := by simp [State.raise]
@[simp] theorem State.raise_tum (s : State) (n : Nat) (c : Cause) : (s.raise n c).tum = s.tum := by simp [State.raise]
@[simp] theorem State.raise_hbm (s : State) (n : Nat) (c : Cause) : (s.raise n c).hbm = s.hbm := by simp [State.raise]
@[simp] theorem State.raise_peer (s : State) (n : Nat) (c : Cause) : (s.raise n c).peer = s.peer := by simp [State.raise]
@[simp] theorem State.raise_vsects (s : State) (n : Nat) (c : Cause) : (s.raise n c).vsects = s.vsects := by simp [State.raise]
@[simp] theorem State.raise_bounds (s : State) (n : Nat) (c : Cause) : (s.raise n c).bounds = s.bounds := by simp [State.raise]
@[simp] theorem State.raise_noRoute (s : State) (n : Nat) (c : Cause) : (s.raise n c).noRoute = s.noRoute := by simp [State.raise]
@[simp] theorem State.raise_slotImg (s : State) (n : Nat) (c : Cause) : (s.raise n c).slotImg = s.slotImg := by simp [State.raise]
@[simp] theorem State.raise_refused (s : State) (n : Nat) (c : Cause) : (s.raise n c).refused = s.refused := by simp [State.raise]
@[simp] theorem State.raise_guests (s : State) (n : Nat) (c : Cause) : (s.raise n c).guests = s.guests := by simp [State.raise]
@[simp] theorem State.raise_flitsOut (s : State) (n : Nat) (c : Cause) : (s.raise n c).flitsOut = s.flitsOut := by simp [State.raise]
@[simp] theorem State.raise_sent (s : State) (n : Nat) (c : Cause) : (s.raise n c).sent = s.sent := by simp [State.raise]
@[simp] theorem State.raise_rxFlits (s : State) (n : Nat) (c : Cause) : (s.raise n c).rxFlits = s.rxFlits := by simp [State.raise]
@[simp] theorem State.raise_dgrams (s : State) (n : Nat) (c : Cause) : (s.raise n c).dgrams = s.dgrams := by simp [State.raise]
@[simp] theorem State.raise_errs (s : State) (n : Nat) (c : Cause) : (s.raise n c).errs = s.errs := by simp [State.raise]
@[simp] theorem State.raise_soft (s : State) (n : Nat) (c : Cause) : (s.raise n c).soft = s.soft := by simp [State.raise]
@[simp] theorem State.raise_staged (s : State) (n : Nat) (c : Cause) : (s.raise n c).staged = s.staged := by simp [State.raise]
@[simp] theorem State.raise_irqs (s : State) (n : Nat) (c : Cause) : (s.raise n c).irqs = s.irqs := by simp [State.raise]
@[simp] theorem State.raise_moved (s : State) (n : Nat) (c : Cause) : (s.raise n c).moved = s.moved := by simp [State.raise]
@[simp] theorem State.raise_debugOut (s : State) (n : Nat) (c : Cause) : (s.raise n c).debugOut = s.debugOut := by simp [State.raise]
@[simp] theorem State.raiseOn_cycle (s : State) (p : Nat) (c : Cause) : (s.raiseOn p c).cycle = s.cycle := by
  unfold State.raiseOn; split <;> simp
@[simp] theorem State.raiseOn_inputs (s : State) (p : Nat) (c : Cause) : (s.raiseOn p c).inputs = s.inputs := by
  unfold State.raiseOn; split <;> simp
@[simp] theorem State.raiseOn_focus (s : State) (p : Nat) (c : Cause) : (s.raiseOn p c).focus = s.focus := by
  unfold State.raiseOn; split <;> simp
@[simp] theorem State.raiseOn_free (s : State) (p : Nat) (c : Cause) : (s.raiseOn p c).free = s.free := by
  unfold State.raiseOn; split <;> simp
@[simp] theorem State.raiseOn_pages (s : State) (p : Nat) (c : Cause) : (s.raiseOn p c).pages = s.pages := by
  unfold State.raiseOn; split <;> simp
@[simp] theorem State.raiseOn_nextTid (s : State) (p : Nat) (c : Cause) : (s.raiseOn p c).nextTid = s.nextTid := by
  unfold State.raiseOn; split <;> simp
@[simp] theorem State.raiseOn_nextSet (s : State) (p : Nat) (c : Cause) : (s.raiseOn p c).nextSet = s.nextSet := by
  unfold State.raiseOn; split <;> simp
@[simp] theorem State.raiseOn_nextStart (s : State) (p : Nat) (c : Cause) : (s.raiseOn p c).nextStart = s.nextStart := by
  unfold State.raiseOn; split <;> simp
@[simp] theorem State.raiseOn_parts (s : State) (p : Nat) (c : Cause) : (s.raiseOn p c).parts = s.parts := by
  unfold State.raiseOn; split <;> simp
@[simp] theorem State.raiseOn_dies (s : State) (p : Nat) (c : Cause) : (s.raiseOn p c).dies = s.dies := by
  unfold State.raiseOn; split <;> simp
@[simp] theorem State.raiseOn_dev (s : State) (p : Nat) (c : Cause) : (s.raiseOn p c).dev = s.dev := by
  unfold State.raiseOn; split <;> simp
@[simp] theorem State.raiseOn_tum (s : State) (p : Nat) (c : Cause) : (s.raiseOn p c).tum = s.tum := by
  unfold State.raiseOn; split <;> simp
@[simp] theorem State.raiseOn_hbm (s : State) (p : Nat) (c : Cause) : (s.raiseOn p c).hbm = s.hbm := by
  unfold State.raiseOn; split <;> simp
@[simp] theorem State.raiseOn_peer (s : State) (p : Nat) (c : Cause) : (s.raiseOn p c).peer = s.peer := by
  unfold State.raiseOn; split <;> simp
@[simp] theorem State.raiseOn_vsects (s : State) (p : Nat) (c : Cause) : (s.raiseOn p c).vsects = s.vsects := by
  unfold State.raiseOn; split <;> simp
@[simp] theorem State.raiseOn_bounds (s : State) (p : Nat) (c : Cause) : (s.raiseOn p c).bounds = s.bounds := by
  unfold State.raiseOn; split <;> simp
@[simp] theorem State.raiseOn_noRoute (s : State) (p : Nat) (c : Cause) : (s.raiseOn p c).noRoute = s.noRoute := by
  unfold State.raiseOn; split <;> simp
@[simp] theorem State.raiseOn_slotImg (s : State) (p : Nat) (c : Cause) : (s.raiseOn p c).slotImg = s.slotImg := by
  unfold State.raiseOn; split <;> simp
@[simp] theorem State.raiseOn_refused (s : State) (p : Nat) (c : Cause) : (s.raiseOn p c).refused = s.refused := by
  unfold State.raiseOn; split <;> simp
@[simp] theorem State.raiseOn_guests (s : State) (p : Nat) (c : Cause) : (s.raiseOn p c).guests = s.guests := by
  unfold State.raiseOn; split <;> simp
@[simp] theorem State.raiseOn_flitsOut (s : State) (p : Nat) (c : Cause) : (s.raiseOn p c).flitsOut = s.flitsOut := by
  unfold State.raiseOn; split <;> simp
@[simp] theorem State.raiseOn_sent (s : State) (p : Nat) (c : Cause) : (s.raiseOn p c).sent = s.sent := by
  unfold State.raiseOn; split <;> simp
@[simp] theorem State.raiseOn_rxFlits (s : State) (p : Nat) (c : Cause) : (s.raiseOn p c).rxFlits = s.rxFlits := by
  unfold State.raiseOn; split <;> simp
@[simp] theorem State.raiseOn_dgrams (s : State) (p : Nat) (c : Cause) : (s.raiseOn p c).dgrams = s.dgrams := by
  unfold State.raiseOn; split <;> simp
@[simp] theorem State.raiseOn_errs (s : State) (p : Nat) (c : Cause) : (s.raiseOn p c).errs = s.errs := by
  unfold State.raiseOn; split <;> simp
@[simp] theorem State.raiseOn_soft (s : State) (p : Nat) (c : Cause) : (s.raiseOn p c).soft = s.soft := by
  unfold State.raiseOn; split <;> simp
@[simp] theorem State.raiseOn_staged (s : State) (p : Nat) (c : Cause) : (s.raiseOn p c).staged = s.staged := by
  unfold State.raiseOn; split <;> simp
@[simp] theorem State.raiseOn_irqs (s : State) (p : Nat) (c : Cause) : (s.raiseOn p c).irqs = s.irqs := by
  unfold State.raiseOn; split <;> simp
@[simp] theorem State.raiseOn_moved (s : State) (p : Nat) (c : Cause) : (s.raiseOn p c).moved = s.moved := by
  unfold State.raiseOn; split <;> simp
@[simp] theorem State.raiseOn_debugOut (s : State) (p : Nat) (c : Cause) : (s.raiseOn p c).debugOut = s.debugOut := by
  unfold State.raiseOn; split <;> simp

/-! setCore of a page changes cores alone. -/
@[simp] theorem Page.setCore_owner (pg : Page) (n : Nat) (k : Core) : (pg.setCore n k).owner = pg.owner := rfl
@[simp] theorem Page.setCore_rp (pg : Page) (n : Nat) (k : Core) : (pg.setCore n k).rp = pg.rp := rfl
@[simp] theorem Page.setCore_mode (pg : Page) (n : Nat) (k : Core) : (pg.setCore n k).mode = pg.mode := rfl
@[simp] theorem Page.setCore_ring (pg : Page) (n : Nat) (k : Core) : (pg.setCore n k).ring = pg.ring := rfl
@[simp] theorem Page.setCore_ii (pg : Page) (n : Nat) (k : Core) : (pg.setCore n k).ii = pg.ii := rfl
@[simp] theorem Page.setCore_stages (pg : Page) (n : Nat) (k : Core) : (pg.setCore n k).stages = pg.stages := rfl
@[simp] theorem Page.setCore_nwords (pg : Page) (n : Nat) (k : Core) : (pg.setCore n k).nwords = pg.nwords := rfl
@[simp] theorem Page.setCore_seqMem (pg : Page) (n : Nat) (k : Core) : (pg.setCore n k).seqMem = pg.seqMem := rfl
@[simp] theorem Page.setCore_pc (pg : Page) (n : Nat) (k : Core) : (pg.setCore n k).pc = pg.pc := rfl
@[simp] theorem Page.setCore_x (pg : Page) (n : Nat) (k : Core) : (pg.setCore n k).x = pg.x := rfl
@[simp] theorem Page.setCore_tid (pg : Page) (n : Nat) (k : Core) : (pg.setCore n k).tid = pg.tid := rfl
@[simp] theorem Page.setCore_tco (pg : Page) (n : Nat) (k : Core) : (pg.setCore n k).tco = pg.tco := rfl
@[simp] theorem Page.setCore_preq (pg : Page) (n : Nat) (k : Core) : (pg.setCore n k).preq = pg.preq := rfl
@[simp] theorem Page.setCore_pdl (pg : Page) (n : Nat) (k : Core) : (pg.setCore n k).pdl = pg.pdl := rfl
@[simp] theorem Page.setCore_sstep (pg : Page) (n : Nat) (k : Core) : (pg.setCore n k).sstep = pg.sstep := rfl
@[simp] theorem Page.setCore_kend (pg : Page) (n : Nat) (k : Core) : (pg.setCore n k).kend = pg.kend := rfl
@[simp] theorem Page.setCore_kport (pg : Page) (n : Nat) (k : Core) : (pg.setCore n k).kport = pg.kport := rfl
@[simp] theorem Page.setCore_user (pg : Page) (n : Nat) (k : Core) : (pg.setCore n k).user = pg.user := rfl
@[simp] theorem Page.setCore_rep (pg : Page) (n : Nat) (k : Core) : (pg.setCore n k).rep = pg.rep := rfl
@[simp] theorem Page.setCore_wimm (pg : Page) (n : Nat) (k : Core) : (pg.setCore n k).wimm = pg.wimm := rfl
@[simp] theorem Page.setCore_wload (pg : Page) (n : Nat) (k : Core) : (pg.setCore n k).wload = pg.wload := rfl
@[simp] theorem Page.setCore_latch (pg : Page) (n : Nat) (k : Core) : (pg.setCore n k).latch = pg.latch := rfl
@[simp] theorem Page.setCore_kprog (pg : Page) (n : Nat) (k : Core) : (pg.setCore n k).kprog = pg.kprog := rfl
@[simp] theorem Page.setCore_phase (pg : Page) (n : Nat) (k : Core) : (pg.setCore n k).phase = pg.phase := rfl
@[simp] theorem Page.setCore_since (pg : Page) (n : Nat) (k : Core) : (pg.setCore n k).since = pg.since := rfl
@[simp] theorem Page.setCore_halted (pg : Page) (n : Nat) (k : Core) : (pg.setCore n k).halted = pg.halted := rfl
@[simp] theorem Page.setCore_yielded (pg : Page) (n : Nat) (k : Core) : (pg.setCore n k).yielded = pg.yielded := rfl
@[simp] theorem Page.setCore_frozen (pg : Page) (n : Nat) (k : Core) : (pg.setCore n k).frozen = pg.frozen := rfl
@[simp] theorem Page.setCore_running (pg : Page) (n : Nat) (k : Core) : (pg.setCore n k).running = pg.running := rfl
@[simp] theorem Page.setCore_wave (pg : Page) (n : Nat) (k : Core) : (pg.setCore n k).wave = pg.wave := rfl
@[simp] theorem Page.setCore_spillPos (pg : Page) (n : Nat) (k : Core) : (pg.setCore n k).spillPos = pg.spillPos := rfl
@[simp] theorem Page.setCore_ports (pg : Page) (n : Nat) (k : Core) : (pg.setCore n k).ports = pg.ports := rfl
@[simp] theorem Page.setCore_slots (pg : Page) (n : Nat) (k : Core) : (pg.setCore n k).slots = pg.slots := rfl
@[simp] theorem Page.setCore_orders (pg : Page) (n : Nat) (k : Core) : (pg.setCore n k).orders = pg.orders := rfl
@[simp] theorem Page.setCore_feed (pg : Page) (n : Nat) (k : Core) : (pg.setCore n k).feed = pg.feed := rfl
@[simp] theorem Page.setCore_feedResv (pg : Page) (n : Nat) (k : Core) : (pg.setCore n k).feedResv = pg.feedResv := rfl
@[simp] theorem Page.setCore_feedSpace (pg : Page) (n : Nat) (k : Core) : (pg.setCore n k).feedSpace = pg.feedSpace := rfl
@[simp] theorem Page.setCore_drains (pg : Page) (n : Nat) (k : Core) : (pg.setCore n k).drains = pg.drains := rfl
@[simp] theorem Page.setCore_wfill (pg : Page) (n : Nat) (k : Core) : (pg.setCore n k).wfill = pg.wfill := rfl
@[simp] theorem Page.setCore_lastHash (pg : Page) (n : Nat) (k : Core) : (pg.setCore n k).lastHash = pg.lastHash := rfl
@[simp] theorem Page.setCore_lastPart (pg : Page) (n : Nat) (k : Core) : (pg.setCore n k).lastPart = pg.lastPart := rfl
@[simp] theorem Page.setCore_lastRp (pg : Page) (n : Nat) (k : Core) : (pg.setCore n k).lastRp = pg.lastRp := rfl

/-! setPort of a page changes ports alone. -/
@[simp] theorem Page.setPort_owner (pg : Page) (n : Nat) (k : Port) : (pg.setPort n k).owner = pg.owner := rfl
@[simp] theorem Page.setPort_rp (pg : Page) (n : Nat) (k : Port) : (pg.setPort n k).rp = pg.rp := rfl
@[simp] theorem Page.setPort_mode (pg : Page) (n : Nat) (k : Port) : (pg.setPort n k).mode = pg.mode := rfl
@[simp] theorem Page.setPort_ring (pg : Page) (n : Nat) (k : Port) : (pg.setPort n k).ring = pg.ring := rfl
@[simp] theorem Page.setPort_ii (pg : Page) (n : Nat) (k : Port) : (pg.setPort n k).ii = pg.ii := rfl
@[simp] theorem Page.setPort_stages (pg : Page) (n : Nat) (k : Port) : (pg.setPort n k).stages = pg.stages := rfl
@[simp] theorem Page.setPort_nwords (pg : Page) (n : Nat) (k : Port) : (pg.setPort n k).nwords = pg.nwords := rfl
@[simp] theorem Page.setPort_seqMem (pg : Page) (n : Nat) (k : Port) : (pg.setPort n k).seqMem = pg.seqMem := rfl
@[simp] theorem Page.setPort_pc (pg : Page) (n : Nat) (k : Port) : (pg.setPort n k).pc = pg.pc := rfl
@[simp] theorem Page.setPort_x (pg : Page) (n : Nat) (k : Port) : (pg.setPort n k).x = pg.x := rfl
@[simp] theorem Page.setPort_tid (pg : Page) (n : Nat) (k : Port) : (pg.setPort n k).tid = pg.tid := rfl
@[simp] theorem Page.setPort_tco (pg : Page) (n : Nat) (k : Port) : (pg.setPort n k).tco = pg.tco := rfl
@[simp] theorem Page.setPort_preq (pg : Page) (n : Nat) (k : Port) : (pg.setPort n k).preq = pg.preq := rfl
@[simp] theorem Page.setPort_pdl (pg : Page) (n : Nat) (k : Port) : (pg.setPort n k).pdl = pg.pdl := rfl
@[simp] theorem Page.setPort_sstep (pg : Page) (n : Nat) (k : Port) : (pg.setPort n k).sstep = pg.sstep := rfl
@[simp] theorem Page.setPort_kend (pg : Page) (n : Nat) (k : Port) : (pg.setPort n k).kend = pg.kend := rfl
@[simp] theorem Page.setPort_kport (pg : Page) (n : Nat) (k : Port) : (pg.setPort n k).kport = pg.kport := rfl
@[simp] theorem Page.setPort_user (pg : Page) (n : Nat) (k : Port) : (pg.setPort n k).user = pg.user := rfl
@[simp] theorem Page.setPort_rep (pg : Page) (n : Nat) (k : Port) : (pg.setPort n k).rep = pg.rep := rfl
@[simp] theorem Page.setPort_wimm (pg : Page) (n : Nat) (k : Port) : (pg.setPort n k).wimm = pg.wimm := rfl
@[simp] theorem Page.setPort_wload (pg : Page) (n : Nat) (k : Port) : (pg.setPort n k).wload = pg.wload := rfl
@[simp] theorem Page.setPort_latch (pg : Page) (n : Nat) (k : Port) : (pg.setPort n k).latch = pg.latch := rfl
@[simp] theorem Page.setPort_kprog (pg : Page) (n : Nat) (k : Port) : (pg.setPort n k).kprog = pg.kprog := rfl
@[simp] theorem Page.setPort_phase (pg : Page) (n : Nat) (k : Port) : (pg.setPort n k).phase = pg.phase := rfl
@[simp] theorem Page.setPort_since (pg : Page) (n : Nat) (k : Port) : (pg.setPort n k).since = pg.since := rfl
@[simp] theorem Page.setPort_halted (pg : Page) (n : Nat) (k : Port) : (pg.setPort n k).halted = pg.halted := rfl
@[simp] theorem Page.setPort_yielded (pg : Page) (n : Nat) (k : Port) : (pg.setPort n k).yielded = pg.yielded := rfl
@[simp] theorem Page.setPort_frozen (pg : Page) (n : Nat) (k : Port) : (pg.setPort n k).frozen = pg.frozen := rfl
@[simp] theorem Page.setPort_running (pg : Page) (n : Nat) (k : Port) : (pg.setPort n k).running = pg.running := rfl
@[simp] theorem Page.setPort_wave (pg : Page) (n : Nat) (k : Port) : (pg.setPort n k).wave = pg.wave := rfl
@[simp] theorem Page.setPort_spillPos (pg : Page) (n : Nat) (k : Port) : (pg.setPort n k).spillPos = pg.spillPos := rfl
@[simp] theorem Page.setPort_slots (pg : Page) (n : Nat) (k : Port) : (pg.setPort n k).slots = pg.slots := rfl
@[simp] theorem Page.setPort_orders (pg : Page) (n : Nat) (k : Port) : (pg.setPort n k).orders = pg.orders := rfl
@[simp] theorem Page.setPort_feed (pg : Page) (n : Nat) (k : Port) : (pg.setPort n k).feed = pg.feed := rfl
@[simp] theorem Page.setPort_feedResv (pg : Page) (n : Nat) (k : Port) : (pg.setPort n k).feedResv = pg.feedResv := rfl
@[simp] theorem Page.setPort_feedSpace (pg : Page) (n : Nat) (k : Port) : (pg.setPort n k).feedSpace = pg.feedSpace := rfl
@[simp] theorem Page.setPort_drains (pg : Page) (n : Nat) (k : Port) : (pg.setPort n k).drains = pg.drains := rfl
@[simp] theorem Page.setPort_wfill (pg : Page) (n : Nat) (k : Port) : (pg.setPort n k).wfill = pg.wfill := rfl
@[simp] theorem Page.setPort_lastHash (pg : Page) (n : Nat) (k : Port) : (pg.setPort n k).lastHash = pg.lastHash := rfl
@[simp] theorem Page.setPort_lastPart (pg : Page) (n : Nat) (k : Port) : (pg.setPort n k).lastPart = pg.lastPart := rfl
@[simp] theorem Page.setPort_lastRp (pg : Page) (n : Nat) (k : Port) : (pg.setPort n k).lastRp = pg.lastRp := rfl
@[simp] theorem Page.setPort_cores (pg : Page) (n : Nat) (k : Port) : (pg.setPort n k).cores = pg.cores := rfl

/-! setSlot of a page changes slots alone. -/
@[simp] theorem Page.setSlot_owner (pg : Page) (n : Nat) (k : Slot) : (pg.setSlot n k).owner = pg.owner := rfl
@[simp] theorem Page.setSlot_rp (pg : Page) (n : Nat) (k : Slot) : (pg.setSlot n k).rp = pg.rp := rfl
@[simp] theorem Page.setSlot_mode (pg : Page) (n : Nat) (k : Slot) : (pg.setSlot n k).mode = pg.mode := rfl
@[simp] theorem Page.setSlot_ring (pg : Page) (n : Nat) (k : Slot) : (pg.setSlot n k).ring = pg.ring := rfl
@[simp] theorem Page.setSlot_ii (pg : Page) (n : Nat) (k : Slot) : (pg.setSlot n k).ii = pg.ii := rfl
@[simp] theorem Page.setSlot_stages (pg : Page) (n : Nat) (k : Slot) : (pg.setSlot n k).stages = pg.stages := rfl
@[simp] theorem Page.setSlot_nwords (pg : Page) (n : Nat) (k : Slot) : (pg.setSlot n k).nwords = pg.nwords := rfl
@[simp] theorem Page.setSlot_seqMem (pg : Page) (n : Nat) (k : Slot) : (pg.setSlot n k).seqMem = pg.seqMem := rfl
@[simp] theorem Page.setSlot_pc (pg : Page) (n : Nat) (k : Slot) : (pg.setSlot n k).pc = pg.pc := rfl
@[simp] theorem Page.setSlot_x (pg : Page) (n : Nat) (k : Slot) : (pg.setSlot n k).x = pg.x := rfl
@[simp] theorem Page.setSlot_tid (pg : Page) (n : Nat) (k : Slot) : (pg.setSlot n k).tid = pg.tid := rfl
@[simp] theorem Page.setSlot_tco (pg : Page) (n : Nat) (k : Slot) : (pg.setSlot n k).tco = pg.tco := rfl
@[simp] theorem Page.setSlot_preq (pg : Page) (n : Nat) (k : Slot) : (pg.setSlot n k).preq = pg.preq := rfl
@[simp] theorem Page.setSlot_pdl (pg : Page) (n : Nat) (k : Slot) : (pg.setSlot n k).pdl = pg.pdl := rfl
@[simp] theorem Page.setSlot_sstep (pg : Page) (n : Nat) (k : Slot) : (pg.setSlot n k).sstep = pg.sstep := rfl
@[simp] theorem Page.setSlot_kend (pg : Page) (n : Nat) (k : Slot) : (pg.setSlot n k).kend = pg.kend := rfl
@[simp] theorem Page.setSlot_kport (pg : Page) (n : Nat) (k : Slot) : (pg.setSlot n k).kport = pg.kport := rfl
@[simp] theorem Page.setSlot_user (pg : Page) (n : Nat) (k : Slot) : (pg.setSlot n k).user = pg.user := rfl
@[simp] theorem Page.setSlot_rep (pg : Page) (n : Nat) (k : Slot) : (pg.setSlot n k).rep = pg.rep := rfl
@[simp] theorem Page.setSlot_wimm (pg : Page) (n : Nat) (k : Slot) : (pg.setSlot n k).wimm = pg.wimm := rfl
@[simp] theorem Page.setSlot_wload (pg : Page) (n : Nat) (k : Slot) : (pg.setSlot n k).wload = pg.wload := rfl
@[simp] theorem Page.setSlot_latch (pg : Page) (n : Nat) (k : Slot) : (pg.setSlot n k).latch = pg.latch := rfl
@[simp] theorem Page.setSlot_kprog (pg : Page) (n : Nat) (k : Slot) : (pg.setSlot n k).kprog = pg.kprog := rfl
@[simp] theorem Page.setSlot_phase (pg : Page) (n : Nat) (k : Slot) : (pg.setSlot n k).phase = pg.phase := rfl
@[simp] theorem Page.setSlot_since (pg : Page) (n : Nat) (k : Slot) : (pg.setSlot n k).since = pg.since := rfl
@[simp] theorem Page.setSlot_halted (pg : Page) (n : Nat) (k : Slot) : (pg.setSlot n k).halted = pg.halted := rfl
@[simp] theorem Page.setSlot_yielded (pg : Page) (n : Nat) (k : Slot) : (pg.setSlot n k).yielded = pg.yielded := rfl
@[simp] theorem Page.setSlot_frozen (pg : Page) (n : Nat) (k : Slot) : (pg.setSlot n k).frozen = pg.frozen := rfl
@[simp] theorem Page.setSlot_running (pg : Page) (n : Nat) (k : Slot) : (pg.setSlot n k).running = pg.running := rfl
@[simp] theorem Page.setSlot_wave (pg : Page) (n : Nat) (k : Slot) : (pg.setSlot n k).wave = pg.wave := rfl
@[simp] theorem Page.setSlot_spillPos (pg : Page) (n : Nat) (k : Slot) : (pg.setSlot n k).spillPos = pg.spillPos := rfl
@[simp] theorem Page.setSlot_ports (pg : Page) (n : Nat) (k : Slot) : (pg.setSlot n k).ports = pg.ports := rfl
@[simp] theorem Page.setSlot_orders (pg : Page) (n : Nat) (k : Slot) : (pg.setSlot n k).orders = pg.orders := rfl
@[simp] theorem Page.setSlot_feed (pg : Page) (n : Nat) (k : Slot) : (pg.setSlot n k).feed = pg.feed := rfl
@[simp] theorem Page.setSlot_feedResv (pg : Page) (n : Nat) (k : Slot) : (pg.setSlot n k).feedResv = pg.feedResv := rfl
@[simp] theorem Page.setSlot_feedSpace (pg : Page) (n : Nat) (k : Slot) : (pg.setSlot n k).feedSpace = pg.feedSpace := rfl
@[simp] theorem Page.setSlot_drains (pg : Page) (n : Nat) (k : Slot) : (pg.setSlot n k).drains = pg.drains := rfl
@[simp] theorem Page.setSlot_wfill (pg : Page) (n : Nat) (k : Slot) : (pg.setSlot n k).wfill = pg.wfill := rfl
@[simp] theorem Page.setSlot_lastHash (pg : Page) (n : Nat) (k : Slot) : (pg.setSlot n k).lastHash = pg.lastHash := rfl
@[simp] theorem Page.setSlot_lastPart (pg : Page) (n : Nat) (k : Slot) : (pg.setSlot n k).lastPart = pg.lastPart := rfl
@[simp] theorem Page.setSlot_lastRp (pg : Page) (n : Nat) (k : Slot) : (pg.setSlot n k).lastRp = pg.lastRp := rfl
@[simp] theorem Page.setSlot_cores (pg : Page) (n : Nat) (k : Slot) : (pg.setSlot n k).cores = pg.cores := rfl

/-! setX of a page changes x alone. -/
@[simp] theorem Page.setX_owner (pg : Page) (n : BitVec 5) (v : W64) : (pg.setX n v).owner = pg.owner := by
  unfold Page.setX; split <;> rfl
@[simp] theorem Page.setX_rp (pg : Page) (n : BitVec 5) (v : W64) : (pg.setX n v).rp = pg.rp := by
  unfold Page.setX; split <;> rfl
@[simp] theorem Page.setX_mode (pg : Page) (n : BitVec 5) (v : W64) : (pg.setX n v).mode = pg.mode := by
  unfold Page.setX; split <;> rfl
@[simp] theorem Page.setX_ring (pg : Page) (n : BitVec 5) (v : W64) : (pg.setX n v).ring = pg.ring := by
  unfold Page.setX; split <;> rfl
@[simp] theorem Page.setX_ii (pg : Page) (n : BitVec 5) (v : W64) : (pg.setX n v).ii = pg.ii := by
  unfold Page.setX; split <;> rfl
@[simp] theorem Page.setX_stages (pg : Page) (n : BitVec 5) (v : W64) : (pg.setX n v).stages = pg.stages := by
  unfold Page.setX; split <;> rfl
@[simp] theorem Page.setX_nwords (pg : Page) (n : BitVec 5) (v : W64) : (pg.setX n v).nwords = pg.nwords := by
  unfold Page.setX; split <;> rfl
@[simp] theorem Page.setX_seqMem (pg : Page) (n : BitVec 5) (v : W64) : (pg.setX n v).seqMem = pg.seqMem := by
  unfold Page.setX; split <;> rfl
@[simp] theorem Page.setX_pc (pg : Page) (n : BitVec 5) (v : W64) : (pg.setX n v).pc = pg.pc := by
  unfold Page.setX; split <;> rfl
@[simp] theorem Page.setX_tid (pg : Page) (n : BitVec 5) (v : W64) : (pg.setX n v).tid = pg.tid := by
  unfold Page.setX; split <;> rfl
@[simp] theorem Page.setX_tco (pg : Page) (n : BitVec 5) (v : W64) : (pg.setX n v).tco = pg.tco := by
  unfold Page.setX; split <;> rfl
@[simp] theorem Page.setX_preq (pg : Page) (n : BitVec 5) (v : W64) : (pg.setX n v).preq = pg.preq := by
  unfold Page.setX; split <;> rfl
@[simp] theorem Page.setX_pdl (pg : Page) (n : BitVec 5) (v : W64) : (pg.setX n v).pdl = pg.pdl := by
  unfold Page.setX; split <;> rfl
@[simp] theorem Page.setX_sstep (pg : Page) (n : BitVec 5) (v : W64) : (pg.setX n v).sstep = pg.sstep := by
  unfold Page.setX; split <;> rfl
@[simp] theorem Page.setX_kend (pg : Page) (n : BitVec 5) (v : W64) : (pg.setX n v).kend = pg.kend := by
  unfold Page.setX; split <;> rfl
@[simp] theorem Page.setX_kport (pg : Page) (n : BitVec 5) (v : W64) : (pg.setX n v).kport = pg.kport := by
  unfold Page.setX; split <;> rfl
@[simp] theorem Page.setX_user (pg : Page) (n : BitVec 5) (v : W64) : (pg.setX n v).user = pg.user := by
  unfold Page.setX; split <;> rfl
@[simp] theorem Page.setX_rep (pg : Page) (n : BitVec 5) (v : W64) : (pg.setX n v).rep = pg.rep := by
  unfold Page.setX; split <;> rfl
@[simp] theorem Page.setX_wimm (pg : Page) (n : BitVec 5) (v : W64) : (pg.setX n v).wimm = pg.wimm := by
  unfold Page.setX; split <;> rfl
@[simp] theorem Page.setX_wload (pg : Page) (n : BitVec 5) (v : W64) : (pg.setX n v).wload = pg.wload := by
  unfold Page.setX; split <;> rfl
@[simp] theorem Page.setX_latch (pg : Page) (n : BitVec 5) (v : W64) : (pg.setX n v).latch = pg.latch := by
  unfold Page.setX; split <;> rfl
@[simp] theorem Page.setX_kprog (pg : Page) (n : BitVec 5) (v : W64) : (pg.setX n v).kprog = pg.kprog := by
  unfold Page.setX; split <;> rfl
@[simp] theorem Page.setX_phase (pg : Page) (n : BitVec 5) (v : W64) : (pg.setX n v).phase = pg.phase := by
  unfold Page.setX; split <;> rfl
@[simp] theorem Page.setX_since (pg : Page) (n : BitVec 5) (v : W64) : (pg.setX n v).since = pg.since := by
  unfold Page.setX; split <;> rfl
@[simp] theorem Page.setX_halted (pg : Page) (n : BitVec 5) (v : W64) : (pg.setX n v).halted = pg.halted := by
  unfold Page.setX; split <;> rfl
@[simp] theorem Page.setX_yielded (pg : Page) (n : BitVec 5) (v : W64) : (pg.setX n v).yielded = pg.yielded := by
  unfold Page.setX; split <;> rfl
@[simp] theorem Page.setX_frozen (pg : Page) (n : BitVec 5) (v : W64) : (pg.setX n v).frozen = pg.frozen := by
  unfold Page.setX; split <;> rfl
@[simp] theorem Page.setX_running (pg : Page) (n : BitVec 5) (v : W64) : (pg.setX n v).running = pg.running := by
  unfold Page.setX; split <;> rfl
@[simp] theorem Page.setX_wave (pg : Page) (n : BitVec 5) (v : W64) : (pg.setX n v).wave = pg.wave := by
  unfold Page.setX; split <;> rfl
@[simp] theorem Page.setX_spillPos (pg : Page) (n : BitVec 5) (v : W64) : (pg.setX n v).spillPos = pg.spillPos := by
  unfold Page.setX; split <;> rfl
@[simp] theorem Page.setX_ports (pg : Page) (n : BitVec 5) (v : W64) : (pg.setX n v).ports = pg.ports := by
  unfold Page.setX; split <;> rfl
@[simp] theorem Page.setX_slots (pg : Page) (n : BitVec 5) (v : W64) : (pg.setX n v).slots = pg.slots := by
  unfold Page.setX; split <;> rfl
@[simp] theorem Page.setX_orders (pg : Page) (n : BitVec 5) (v : W64) : (pg.setX n v).orders = pg.orders := by
  unfold Page.setX; split <;> rfl
@[simp] theorem Page.setX_feed (pg : Page) (n : BitVec 5) (v : W64) : (pg.setX n v).feed = pg.feed := by
  unfold Page.setX; split <;> rfl
@[simp] theorem Page.setX_feedResv (pg : Page) (n : BitVec 5) (v : W64) : (pg.setX n v).feedResv = pg.feedResv := by
  unfold Page.setX; split <;> rfl
@[simp] theorem Page.setX_feedSpace (pg : Page) (n : BitVec 5) (v : W64) : (pg.setX n v).feedSpace = pg.feedSpace := by
  unfold Page.setX; split <;> rfl
@[simp] theorem Page.setX_drains (pg : Page) (n : BitVec 5) (v : W64) : (pg.setX n v).drains = pg.drains := by
  unfold Page.setX; split <;> rfl
@[simp] theorem Page.setX_wfill (pg : Page) (n : BitVec 5) (v : W64) : (pg.setX n v).wfill = pg.wfill := by
  unfold Page.setX; split <;> rfl
@[simp] theorem Page.setX_lastHash (pg : Page) (n : BitVec 5) (v : W64) : (pg.setX n v).lastHash = pg.lastHash := by
  unfold Page.setX; split <;> rfl
@[simp] theorem Page.setX_lastPart (pg : Page) (n : BitVec 5) (v : W64) : (pg.setX n v).lastPart = pg.lastPart := by
  unfold Page.setX; split <;> rfl
@[simp] theorem Page.setX_lastRp (pg : Page) (n : BitVec 5) (v : W64) : (pg.setX n v).lastRp = pg.lastRp := by
  unfold Page.setX; split <;> rfl
@[simp] theorem Page.setX_cores (pg : Page) (n : BitVec 5) (v : W64) : (pg.setX n v).cores = pg.cores := by
  unfold Page.setX; split <;> rfl

/-! setG of an instance changes g alone. -/
@[simp] theorem GInst.setG_gen (g : GInst) (n : BitVec 4) (v : W64) : (g.setG n v).gen = g.gen := rfl
@[simp] theorem GInst.setG_live (g : GInst) (n : BitVec 4) (v : W64) : (g.setG n v).live = g.live := rfl
@[simp] theorem GInst.setG_part (g : GInst) (n : BitVec 4) (v : W64) : (g.setG n v).part = g.part := rfl
@[simp] theorem GInst.setG_tenant (g : GInst) (n : BitVec 4) (v : W64) : (g.setG n v).tenant = g.tenant := rfl
@[simp] theorem GInst.setG_chan (g : GInst) (n : BitVec 4) (v : W64) : (g.setG n v).chan = g.chan := rfl
@[simp] theorem GInst.setG_obj (g : GInst) (n : BitVec 4) (v : W64) : (g.setG n v).obj = g.obj := rfl
@[simp] theorem GInst.setG_ver (g : GInst) (n : BitVec 4) (v : W64) : (g.setG n v).ver = g.ver := rfl
@[simp] theorem GInst.setG_idx (g : GInst) (n : BitVec 4) (v : W64) : (g.setG n v).idx = g.idx := rfl
@[simp] theorem GInst.setG_code (g : GInst) (n : BitVec 4) (v : W64) : (g.setG n v).code = g.code := rfl
@[simp] theorem GInst.setG_block (g : GInst) (n : BitVec 4) (v : W64) : (g.setG n v).block = g.block := rfl
@[simp] theorem GInst.setG_bsize (g : GInst) (n : BitVec 4) (v : W64) : (g.setG n v).bsize = g.bsize := rfl
@[simp] theorem GInst.setG_pc (g : GInst) (n : BitVec 4) (v : W64) : (g.setG n v).pc = g.pc := rfl
@[simp] theorem GInst.setG_loops (g : GInst) (n : BitVec 4) (v : W64) : (g.setG n v).loops = g.loops := rfl
@[simp] theorem GInst.setG_evbase (g : GInst) (n : BitVec 4) (v : W64) : (g.setG n v).evbase = g.evbase := rfl
@[simp] theorem GInst.setG_evcount (g : GInst) (n : BitVec 4) (v : W64) : (g.setG n v).evcount = g.evcount := rfl
@[simp] theorem GInst.setG_cookie (g : GInst) (n : BitVec 4) (v : W64) : (g.setG n v).cookie = g.cookie := rfl
@[simp] theorem GInst.setG_phase (g : GInst) (n : BitVec 4) (v : W64) : (g.setG n v).phase = g.phase := rfl
@[simp] theorem GInst.setG_launches (g : GInst) (n : BitVec 4) (v : W64) : (g.setG n v).launches = g.launches := rfl
@[simp] theorem GInst.setG_nlaunch (g : GInst) (n : BitVec 4) (v : W64) : (g.setG n v).nlaunch = g.nlaunch := rfl
@[simp] theorem GInst.setG_stepOpen (g : GInst) (n : BitVec 4) (v : W64) : (g.setG n v).stepOpen = g.stepOpen := rfl
@[simp] theorem GInst.setG_step (g : GInst) (n : BitVec 4) (v : W64) : (g.setG n v).step = g.step := rfl
@[simp] theorem GInst.setG_patches (g : GInst) (n : BitVec 4) (v : W64) : (g.setG n v).patches = g.patches := rfl
@[simp] theorem GInst.setG_data (g : GInst) (n : BitVec 4) (v : W64) : (g.setG n v).data = g.data := rfl
@[simp] theorem GInst.setG_faults (g : GInst) (n : BitVec 4) (v : W64) : (g.setG n v).faults = g.faults := rfl
@[simp] theorem GInst.setG_frdSeen (g : GInst) (n : BitVec 4) (v : W64) : (g.setG n v).frdSeen = g.frdSeen := rfl
@[simp] theorem GInst.setG_leases (g : GInst) (n : BitVec 4) (v : W64) : (g.setG n v).leases = g.leases := rfl
@[simp] theorem GInst.setG_leaseFault (g : GInst) (n : BitVec 4) (v : W64) : (g.setG n v).leaseFault = g.leaseFault := rfl
@[simp] theorem GInst.setG_refused (g : GInst) (n : BitVec 4) (v : W64) : (g.setG n v).refused = g.refused := rfl
@[simp] theorem GInst.setG_depth (g : GInst) (n : BitVec 4) (v : W64) : (g.setG n v).depth = g.depth := rfl
@[simp] theorem GInst.setG_parent (g : GInst) (n : BitVec 4) (v : W64) : (g.setG n v).parent = g.parent := rfl
@[simp] theorem GInst.setG_heldSince (g : GInst) (n : BitVec 4) (v : W64) : (g.setG n v).heldSince = g.heldSince := rfl

/-! Containers. -/

/-- What a key reads after a write. -/
theorem assocGet_assocSet {α : Type} (l : List (Nat × α)) (x k : Nat) (a : α) :
    assocGet (assocSet l x a) k = if k = x then some a else assocGet l k := by
  induction l with
  | nil =>
    by_cases h : k = x
    · simp [assocSet, assocGet, h]
    · have h1 : ¬ x = k := fun e => h e.symm
      simp [assocSet, assocGet, h, h1]
  | cons c r ih =>
    obtain ⟨j, v⟩ := c
    unfold assocSet
    by_cases h : k = x
    · subst h
      split
      · simp [assocGet]
      · split
        · simp [assocGet]
        · rename_i h1 h2
          simp [assocGet, h1, h2, ih]
    · have h1 : ¬ x = k := fun e => h e.symm
      split
      · simp only [assocGet, h1, if_false]
        split
        · rename_i h2 h3
          have h4 : ¬ j = k := by omega
          have h5 : k < j := by omega
          simp [h4, h5]
        · rfl
      · split
        · rename_i h2 h3
          subst h3
          simp [assocGet, h1]
        · simp only [assocGet, ih, h, if_false]

@[simp] theorem assocGet_assocSet_self {α : Type} (l : List (Nat × α)) (x : Nat) (a : α) : assocGet (assocSet l x a) x = some a := by
  simp [assocGet_assocSet]

theorem assocGet_assocSet_ne {α : Type} (l : List (Nat × α)) {x k : Nat} (a : α) (h : k ≠ x) : assocGet (assocSet l x a) k = assocGet l k := by
  simp [assocGet_assocSet, h]

@[simp] theorem length_modAt {α : Type} (l : List α) (i : Nat) (f : α → α) : (modAt l i f).length = l.length := by
  induction l generalizing i with
  | nil => rfl
  | cons a r ih => cases i <;> simp [modAt, ih]

theorem getElem?_modAt {α : Type} (l : List α) (i k : Nat) (f : α → α) : (modAt l i f)[k]? = if k = i then l[k]?.map f else l[k]? := by
  induction l generalizing i k with
  | nil => simp [modAt]
  | cons a r ih => cases i <;> cases k <;> simp [modAt, ih]

theorem getD_modAt_self {α : Type} (l : List α) (i : Nat) (f : α → α) (d : α) (h : i < l.length) : (modAt l i f).getD i d = f (l.getD i d) := by
  rw [List.getD_eq_getElem?_getD, List.getD_eq_getElem?_getD, getElem?_modAt, if_pos rfl, List.getElem?_eq_getElem h]; rfl

theorem getD_modAt_ne {α : Type} (l : List α) {i k : Nat} (f : α → α) (d : α) (h : k ≠ i) : (modAt l i f).getD k d = l.getD k d := by
  simp [List.getD_eq_getElem?_getD, getElem?_modAt, h]

/-! Accessors after updates. -/

theorem State.page_setPage (s : State) (p q : Nat) (x : Page) : (s.setPage p x).page q = if q = p then x else s.page q := by
  simp only [State.page, State.setPage, assocGet_assocSet]; split <;> rfl

@[simp] theorem State.page_setPage_self (s : State) (p : Nat) (x : Page) : (s.setPage p x).page p = x := by simp [State.page_setPage]

theorem State.page_setPage_ne (s : State) {p q : Nat} (x : Page) (h : q ≠ p) : (s.setPage p x).page q = s.page q := by simp [State.page_setPage, h]

@[simp] theorem State.page_modPage_self (s : State) (p : Nat) (f : Page → Page) : (s.modPage p f).page p = f (s.page p) := by simp [State.modPage]

theorem State.page_modPage_ne (s : State) {p q : Nat} (f : Page → Page) (h : q ≠ p) : (s.modPage p f).page q = s.page q := by
  simp [State.modPage, State.page_setPage, h]

@[simp] theorem State.page_setCore_self (s : State) (p c : Nat) (k : Core) : (s.setCore p c k).page p = (s.page p).setCore c k := by simp [State.setCore]

theorem State.page_setCore_ne (s : State) {p q : Nat} (c : Nat) (k : Core) (h : q ≠ p) : (s.setCore p c k).page q = s.page q := by
  simp [State.setCore, State.page_setPage, h]

theorem State.page_modCore_ne (s : State) {p q : Nat} (c : Nat) (f : Core → Core) (h : q ≠ p) : (s.modCore p c f).page q = s.page q := by
  simp [State.modCore, State.page_setCore_ne, h]

@[simp] theorem Page.length_setCore (pg : Page) (c : Nat) (k : Core) : (pg.setCore c k).cores.length = pg.cores.length := by simp [Page.setCore]

theorem Page.core_setCore_self (pg : Page) {c : Nat} (k : Core) (h : c < pg.cores.length) : (pg.setCore c k).core c = k := by
  simp [Page.core, Page.setCore, List.getD_eq_getElem?_getD, h]

theorem Page.core_setCore_ne (pg : Page) {c d : Nat} (k : Core) (h : d ≠ c) : (pg.setCore c k).core d = pg.core d := by
  simp [Page.core, Page.setCore, List.getD_eq_getElem?_getD, Ne.symm h]

theorem State.core_modCore_self (s : State) (p : Nat) {c : Nat} (f : Core → Core) (h : c < (s.page p).cores.length) :
    (s.modCore p c f).core p c = f (s.core p c) := by
  simp [State.modCore, State.core, Page.core_setCore_self, h]

theorem State.core_modCore_ne (s : State) {p q c d : Nat} (f : Core → Core) (h : (q, d) ≠ (p, c)) : (s.modCore p c f).core q d = s.core q d := by
  by_cases hq : q = p
  · subst hq
    have hd : d ≠ c := fun e => h (by rw [e])
    simp [State.modCore, State.core, Page.core_setCore_ne, hd]
  · simp [State.core, State.page_modCore_ne, hq]

@[simp] theorem State.task_setPage (s : State) (p n : Nat) (x : Page) : (s.setPage p x).task n = s.task n := rfl
@[simp] theorem State.task_modPage (s : State) (p n : Nat) (f : Page → Page) : (s.modPage p f).task n = s.task n := rfl
@[simp] theorem State.task_modCore (s : State) (p c n : Nat) (f : Core → Core) : (s.modCore p c f).task n = s.task n := rfl
@[simp] theorem State.task_modDie (s : State) (d n : Nat) (f : Die → Die) : (s.modDie d f).task n = s.task n := rfl
@[simp] theorem State.task_modPart (s : State) (k n : Nat) (f : Part → Part) : (s.modPart k f).task n = s.task n := rfl

@[simp] theorem State.task_setTask_self (s : State) (t : Task) : (s.setTask t).task t.tid = some t := by simp [State.setTask, State.task]

theorem State.task_modTask (s : State) (n k : Nat) (f : Task → Task) :
    (s.modTask n f).task k = if k = n then (s.task n).map f else s.task k := by
  unfold State.modTask
  cases h : s.task n with
  | none =>
    by_cases e : k = n
    · subst e; simp [h]
    · simp [e]
  | some t =>
    simp only [State.task, assocGet_assocSet] at h ⊢
    by_cases e : k = n <;> simp [e]

@[simp] theorem State.page_modTask (s : State) (n p : Nat) (f : Task → Task) : (s.modTask n f).page p = s.page p := by simp [State.page]
@[simp] theorem State.page_setTask (s : State) (t : Task) (p : Nat) : (s.setTask t).page p = s.page p := rfl
@[simp] theorem State.page_modDie (s : State) (d p : Nat) (f : Die → Die) : (s.modDie d f).page p = s.page p := rfl
@[simp] theorem State.page_modPart (s : State) (n p : Nat) (f : Part → Part) : (s.modPart n f).page p = s.page p := rfl
@[simp] theorem State.page_later (s : State) (t : Turn) (p : Nat) : (s.later t).page p = s.page p := by simp [State.page]
@[simp] theorem State.page_raise (s : State) (n : Nat) (c : Cause) (p : Nat) : (s.raise n c).page p = s.page p := by simp [State.page]
@[simp] theorem State.page_raiseOn (s : State) (q : Nat) (c : Cause) (p : Nat) : (s.raiseOn q c).page p = s.page p := by simp [State.page]

/-- A turn joins the agenda's end, once. -/
theorem State.later_agenda (s : State) (t : Turn) : (s.later t).agenda = if s.agenda.contains t then s.agenda else s.agenda ++ [t] := by
  unfold State.later; split <;> rfl

theorem State.die_modDie_self (s : State) {d : Nat} (f : Die → Die) (h : d < s.dies.length) : (s.modDie d f).die d = f (s.die d) :=
  getD_modAt_self _ _ _ _ h

theorem State.die_modDie_ne (s : State) {d e : Nat} (f : Die → Die) (h : e ≠ d) : (s.modDie d f).die e = s.die e := getD_modAt_ne _ _ _ h

theorem State.part_modPart_self (s : State) {n : Nat} (f : Part → Part) (h : n < s.parts.length) : (s.modPart n f).part n = f (s.part n) :=
  getD_modAt_self _ _ _ _ h

theorem State.part_modPart_ne (s : State) {n k : Nat} (f : Part → Part) (h : k ≠ n) : (s.modPart n f).part k = s.part k := getD_modAt_ne _ _ _ h

/-! Registers. -/

/-- x0 reads zero (R12). -/
@[simp] theorem Page.xr_zero (pg : Page) : pg.xr 0 = 0 := rfl

/-- x0 discards writes (R12). -/
@[simp] theorem Page.setX_zero (pg : Page) (v : W64) : pg.setX 0 v = pg := rfl

/-- A g register reads what was written. -/
theorem GInst.gr_setG_self (g : GInst) (n : BitVec 4) (v : W64) (h : g.g.length = 16) : (g.setG n v).gr n = v := by
  have : n.toNat < 16 := n.isLt
  simp [GInst.gr, GInst.setG, List.getD_eq_getElem?_getD, h, this]

theorem GInst.gr_setG_ne (g : GInst) {n k : BitVec 4} (v : W64) (h : k ≠ n) : (g.setG n v).gr k = g.gr k := by
  have : n.toNat ≠ k.toNat := fun e => h (BitVec.eq_of_toNat_eq e.symm)
  simp [GInst.gr, GInst.setG, List.getD_eq_getElem?_getD, this]

/-! Taking a trap (R371). -/

/-- The cause joins its task's causes. -/
theorem State.task_raise (s : State) (n k : Nat) (c : Cause) :
    (s.raise n c).task k = if k = n then (s.task n).map fun t => { t with causes := t.causes ++ [c] } else s.task k := by
  have : (s.raise n c).task k = (s.modTask n fun t => { t with causes := t.causes ++ [c] }).task k := by simp [State.task, State.raise]
  rw [this, State.task_modTask]

/-- The freeze of the task joins the cycle's end, once. -/
theorem State.raise_agenda (s : State) (n : Nat) (c : Cause) :
    (s.raise n c).agenda = if s.agenda.contains (.event (.trapFreeze n)) then s.agenda else s.agenda ++ [.event (.trapFreeze n)] := by
  simp [State.raise, State.later_agenda]

/-- A page with no owner raises nothing. -/
theorem State.raiseOn_none {s : State} {p : Nat} (c : Cause) (h : (s.page p).owner = none) : s.raiseOn p c = s := by
  unfold State.raiseOn; rw [h]

/-- The owner of the page takes the cause, with its region page. -/
theorem State.raiseOn_some {s : State} {p n : Nat} (c : Cause) (h : (s.page p).owner = some n) :
    s.raiseOn p c = s.raise n { c with page := (s.page p).rp } := by
  unfold State.raiseOn; rw [h]

end Sys2Proof.Machine
end

