-- ==== Sys2Proof/Laws/Memory.lean ====
section
/-! SUPPORT. The byte memory: every operation that writes memory keeps the canonical form, and what a byte reads as after one write. -/
namespace Sys2Proof.Machine

/-- A lower bound may fall. -/
theorem cellsFrom_mono {n k : Nat} {m : List Host.Cell} (h : k ≤ n) (w : cellsFrom n m = true) : cellsFrom k m = true := by
  cases m with
  | nil => rfl
  | cons c r =>
    obtain ⟨a, v⟩ := c
    simp only [cellsFrom, Bool.and_eq_true, decide_eq_true_eq] at w ⊢
    exact ⟨⟨by omega, w.1.2⟩, w.2⟩

/-- A write at or above the bound keeps the form. -/
theorem cellsFrom_cellSet {m : List Host.Cell} {n x : Nat} (b : Byte) (h : n ≤ x) (w : cellsFrom n m = true) :
    cellsFrom n (cellSet m x b) = true := by
  induction m generalizing n with
  | nil =>
    unfold cellSet
    split
    · rfl
    · rename_i hb
      simp only [cellsFrom, Bool.and_eq_true, decide_eq_true_eq]
      exact ⟨⟨h, hb⟩, trivial⟩
  | cons c r ih =>
    obtain ⟨a, v⟩ := c
    have w0 := w
    simp only [cellsFrom, Bool.and_eq_true, decide_eq_true_eq] at w
    obtain ⟨⟨h1, h2⟩, h3⟩ := w
    unfold cellSet
    split
    · split
      · exact w0
      · rename_i hx hb
        simp only [cellsFrom, Bool.and_eq_true, decide_eq_true_eq]
        exact ⟨⟨h, hb⟩, ⟨hx, h2⟩, h3⟩
    · split
      · rename_i hx ha
        subst ha
        split
        · exact cellsFrom_mono (by omega) h3
        · rename_i hb
          simp only [cellsFrom, Bool.and_eq_true, decide_eq_true_eq]
          exact ⟨⟨h1, hb⟩, h3⟩
      · simp only [cellsFrom, Bool.and_eq_true, decide_eq_true_eq]
        exact ⟨⟨h1, h2⟩, ih (by omega) h3⟩

/-- Writing one byte keeps the canonical form. -/
theorem wf_cellSet {m : List Host.Cell} (a : Nat) (b : Byte) (w : Memory.wf m = true) : Memory.wf (cellSet m a b) = true :=
  cellsFrom_cellSet b (Nat.zero_le a) w

/-- Writing bytes keeps the canonical form. -/
theorem wf_cellsWrite {m : List Host.Cell} (a : Nat) (bs : List Byte) (w : Memory.wf m = true) : Memory.wf (cellsWrite m a bs) = true := by
  induction bs generalizing m a with
  | nil => exact w
  | cons b r ih => exact ih (a + 1) (wf_cellSet a b w)

/-- A fold of writes keeps the canonical form. -/
theorem wf_foldl {α : Type} (f : List Host.Cell → α → List Host.Cell) (hf : ∀ m x, Memory.wf m = true → Memory.wf (f m x) = true)
    (l : List α) {m : List Host.Cell} (w : Memory.wf m = true) : Memory.wf (l.foldl f m) = true := by
  induction l generalizing m with
  | nil => exact w
  | cons a r ih => exact ih (hf m a w)

/-- Dropping bytes keeps the canonical form. -/
theorem cellsFrom_filter (p : Host.Cell → Bool) {m : List Host.Cell} {n : Nat} (w : cellsFrom n m = true) : cellsFrom n (m.filter p) = true := by
  induction m generalizing n with
  | nil => rfl
  | cons c r ih =>
    obtain ⟨a, v⟩ := c
    simp only [cellsFrom, Bool.and_eq_true, decide_eq_true_eq] at w
    obtain ⟨⟨h1, h2⟩, h3⟩ := w
    by_cases hp : p (a, v) = true
    · simp only [List.filter, hp, cellsFrom, Bool.and_eq_true, decide_eq_true_eq]
      exact ⟨⟨h1, h2⟩, ih h3⟩
    · simp only [List.filter, hp]
      exact ih (cellsFrom_mono (by omega) h3)

theorem wf_filter (p : Host.Cell → Bool) {m : List Host.Cell} (w : Memory.wf m = true) : Memory.wf (m.filter p) = true := cellsFrom_filter p w

/-- A byte below the bound of a canonical memory reads as an unlisted one. -/
theorem cellGet_below {m : List Host.Cell} {n x : Nat} (h : x < n) (w : cellsFrom n m = true) : cellGet m x = 0 := by
  cases m with
  | nil => rfl
  | cons c r =>
    obtain ⟨a, v⟩ := c
    simp only [cellsFrom, Bool.and_eq_true, decide_eq_true_eq] at w
    have h1 : ¬ a = x := by omega
    have h2 : x < a := by omega
    simp [cellGet, h1, h2]

/-- The bytes read are as many as asked for. -/
@[simp] theorem length_cellsRead (m : List Host.Cell) (a n : Nat) : (cellsRead m a n).length = n := by
  induction n generalizing a with
  | zero => rfl
  | succ n ih => simp [cellsRead, ih]

/-- Both memories of a module are canonical: the form that the memory operations keep. -/
def State.canon (s : State) : Prop := Memory.wf s.hbm = true ∧ ∀ k m, (k, m) ∈ s.peer → Memory.wf m = true

/-- The members of an association list after a write. -/
theorem mem_assocSet {α : Type} {l : List (Nat × α)} {x k : Nat} {a b : α} (h : (k, b) ∈ assocSet l x a) : b = a ∨ (k, b) ∈ l := by
  induction l with
  | nil => simp [assocSet] at h; exact .inl h.2
  | cons c r ih =>
    obtain ⟨j, v⟩ := c
    unfold assocSet at h
    split at h
    · rcases List.mem_cons.mp h with h | h
      · cases h; exact .inl rfl
      · exact .inr h
    · split at h
      · rcases List.mem_cons.mp h with h | h
        · cases h; exact .inl rfl
        · exact .inr (List.mem_cons_of_mem _ h)
      · rcases List.mem_cons.mp h with h | h
        · cases h; exact .inr List.mem_cons_self
        · exact (ih h).imp_right (List.mem_cons_of_mem _)

/-- A value found is a member. -/
theorem mem_of_assocGet {α : Type} {l : List (Nat × α)} {x : Nat} {a : α} (h : assocGet l x = some a) : (x, a) ∈ l := by
  induction l with
  | nil => simp [assocGet] at h
  | cons c r ih =>
    obtain ⟨j, v⟩ := c
    simp only [assocGet] at h
    split at h
    · simp_all
    · split at h
      · cases h
      · exact List.mem_cons_of_mem _ (ih h)

/-- The memory of another device is canonical when all are. -/
theorem State.canon.peerOf {s : State} (w : s.canon) (c : Nat) : Memory.wf (s.peerOf c) = true := by
  unfold State.peerOf
  cases h : assocGet s.peer c with
  | none => rfl
  | some m => exact w.2 c m (mem_of_assocGet h)

/-- A write to another device's memory keeps the form. -/
theorem State.canon.peerWrite {s : State} (w : s.canon) (c va : Nat) (bs : List Byte) : (s.peerWrite c va bs).canon := by
  refine ⟨w.1, fun k m h => ?_⟩
  rcases mem_assocSet h with h | h
  · subst h; exact wf_cellsWrite va bs (w.peerOf c)
  · exact w.2 k m h

/-- A change of the state that leaves both memories keeps the form. -/
theorem State.canon.of_eq {s t : State} (w : s.canon) (h : t.hbm = s.hbm) (p : t.peer = s.peer) : t.canon := by
  unfold State.canon at *; rw [h, p]; exact w

/-- A fold of steps that keep the form keeps it. -/
theorem State.canon.foldl {α : Type} {f : State → α → State} (hf : ∀ s x, s.canon → (f s x).canon) (l : List α) {s : State} (w : s.canon) :
    (l.foldl f s).canon := by
  induction l generalizing s with
  | nil => exact w
  | cons a r ih => exact ih (hf s a w)

/-- A line of a compression range written (R295). -/
theorem State.canon.putCmpLine {s : State} (w : s.canon) (d i : Nat) (r : BitVec 320) (line : Nat) (bs : List Byte) : (s.putCmpLine d i r line bs).canon :=
  ⟨wf_cellSet _ _ (wf_cellsWrite _ _ w.1), w.2⟩

/-- Error sites are not memory. -/
theorem State.canon.mend {s : State} (w : s.canon) (d : Nat) (bs : List (Nat × Byte)) : (s.mend d bs).canon := by
  unfold State.mend
  split
  · exact w
  · exact ⟨w.1, w.2⟩

/-- Bytes stored, plain or in compressed lines (R295). -/
theorem State.canon.putBytes {s : State} (w : s.canon) (d : Nat) (bs : List (Nat × Byte)) : (s.putBytes d bs).canon :=
  State.canon.foldl (fun _ _ h => h.putCmpLine ..) _ ⟨wf_foldl _ (fun _ _ h => wf_cellSet _ _ h) _ w.1, w.2⟩

/-- A page of a save slot that becomes memory. -/
theorem State.canon.unveilPage {s : State} (w : s.canon) (d key tid i gen : Nat) : (s.unveilPage d key tid i gen).canon := by
  unfold State.unveilPage
  generalize cipherBytes key tid i gen = bs
  refine State.canon.putBytes ?_ d bs
  exact ⟨w.1, w.2⟩

/-- The ciphertext of save slots that becomes memory (R383). -/
theorem State.canon.unveil {s : State} (w : s.canon) (d : Nat) (pas : List Nat) : (s.unveil d pas).canon := by
  unfold State.unveil
  exact State.canon.foldl (fun s x h => h.unveilPage d x.1 x.2.1 x.2.2.1 x.2.2.2) _ w

/-- Storage of committed bytes (R295). -/
theorem State.canon.store {s : State} (w : s.canon) (d : Nat) (bs : List (Nat × Byte)) : (s.store d bs).canon := by
  unfold State.store
  exact State.canon.putBytes (State.canon.unveil (State.canon.mend w d bs) d _) d bs

/-- A partition's registers are not memory. -/
theorem State.canon.modPart {s : State} (w : s.canon) (n : Nat) (f : Part → Part) : (s.modPart n f).canon := ⟨w.1, w.2⟩

/-- Nor are a die's. -/
theorem State.canon.modDie {s : State} (w : s.canon) (n : Nat) (f : Die → Die) : (s.modDie n f).canon := ⟨w.1, w.2⟩

/-- A byte of HBM set. -/
theorem State.canon.set_byte {s : State} (w : s.canon) (a : Nat) (b : Byte) : ({ s with hbm := cellSet s.hbm a b } : State).canon :=
  ⟨wf_cellSet a b w.1, w.2⟩

/-- Bytes of HBM set. -/
theorem State.canon.set_bytes {s : State} (w : s.canon) (a : Nat) (bs : List Byte) : ({ s with hbm := cellsWrite s.hbm a bs } : State).canon :=
  ⟨wf_cellsWrite a bs w.1, w.2⟩

/-- The dirty log (R424). -/
theorem State.canon.logDirty {s : State} (w : s.canon) (part d page : Nat) (ks : List Nat) : (s.logDirty part d page ks).canon := by
  unfold State.logDirty
  dsimp only
  split
  · refine State.canon.modPart ?_ _ _
    refine State.canon.set_byte (State.canon.unveil ?_ _ _) _ _
    split
    · exact w
    · exact (State.canon.unveil w _ _).set_bytes _ _
  · exact w

/-- Migration marks (R405). -/
theorem State.canon.markMig {s : State} (w : s.canon) (d page : Nat) (ks : List Nat) : (s.markMig d page ks).canon := w.modDie _ _

/-- Snapshots are kept by tasks (R314). -/
theorem State.canon.snapshot {s : State} (w : s.canon) (part d : Nat) (pas not : List Nat) : (s.snapshot part d pas not).canon := ⟨w.1, w.2⟩

/-- A broken tag is kept by a task (R383). -/
theorem State.canon.tamper {s : State} (w : s.canon) (d : Nat) (pas : List Nat) : (s.tamper d pas).canon := by
  unfold State.tamper
  split
  · exact ⟨w.1, w.2⟩
  · exact w

/-- A sector held in an L2 is not memory (R314). -/
theorem State.canon.addSector {s t : State} (w : s.canon) {v : VSect} (h : s.addSector v = some t) : t.canon := by
  unfold State.addSector at h
  dsimp only at h
  split at h
  · cases h; exact ⟨w.1, w.2⟩
  · split at h
    · cases h; exact ⟨w.1, w.2⟩
    · cases h

/-- A version sector taken (R314, R315). -/
theorem State.canon.takeSector {s t : State} (w : s.canon) {tid d k part : Nat} (h : s.takeSector tid d k part = some t) : t.canon := by
  unfold State.takeSector at h
  split at h
  · cases h; exact w
  · exact w.addSector h

/-- A trap is not memory (R371). -/
theorem State.canon.raise {s : State} (w : s.canon) (n : Nat) (c : Cause) : (s.raise n c).canon := w.of_eq (by simp) (by simp)

/-- Nor is a task. -/
theorem State.canon.modTask {s : State} (w : s.canon) (n : Nat) (f : Task → Task) : (s.modTask n f).canon := w.of_eq (by simp) (by simp)

/-- Snapshot sectors (R314, R315). -/
theorem State.canon.needSnapshot {s : State} (w : s.canon) (part d k : Nat) (not : List Nat) : (s.needSnapshot part d k not).1.canon := by
  unfold State.needSnapshot
  split
  · exact w
  · split
    · rename_i h
      exact w.addSector h
    · refine State.canon.foldl (fun s u h => ?_) _ w
      split
      · exact State.canon.raise (h.modPart _ _) _ _
      · exact h.modTask _ _

/-- The snapshots of a change of several bytes (R314). -/
theorem State.canon.needSnapshots {s : State} (w : s.canon) (part d : Nat) (pas not : List Nat) : (s.needSnapshots part d pas not).1.canon := by
  unfold State.needSnapshots
  have all : ∀ (l : List Nat) (x : State × Bool), x.1.canon →
      (l.foldl (fun ((s, held) : State × Bool) k => ((s.needSnapshot part d k not).1, held || (s.needSnapshot part d k not).2)) x).1.canon := by
    intro l
    induction l with
    | nil => exact fun _ h => h
    | cons a r ih => exact fun x h => ih _ (h.needSnapshot part d a not)
  exact all _ (s, false) w

/-- Committed bytes of one die (R295, R314, R405, R424). -/
theorem State.canon.commitBytes {s : State} (w : s.canon) (part d : Nat) (bs : List (Nat × Byte)) (not : List Nat) :
    (s.commitBytes part d bs not).canon := by
  unfold State.commitBytes
  refine State.canon.foldl (fun s x h => (h.logDirty ..).markMig ..) _ ?_
  exact (((w.needSnapshots ..).snapshot ..).tamper ..).store ..

/-- Committed bytes of another device (R308). -/
theorem State.canon.peerCommit {s : State} (w : s.canon) (c va : Nat) (bs : List Byte) (not : List Nat) : (s.peerCommit c va bs not).canon :=
  State.canon.peerWrite ⟨w.1, w.2⟩ c va bs

/-- Committed bytes of a place. -/
theorem State.canon.commitLoc {s : State} (w : s.canon) (part : Nat) (l : Loc) (bs : List Byte) : (s.commitLoc part l bs).canon := by
  cases l with
  | hbm d pa => exact w.commitBytes ..
  | peer c va => exact w.peerCommit ..
  | sp a b c => exact w

/-- A scrubbed page (R441). -/
theorem State.canon.scrub {s : State} (w : s.canon) (part d page : Nat) : (s.scrub part d page).canon := by
  unfold State.scrub
  generalize List.range 65536 = all
  generalize List.range 512 = ks
  by_cases h : s.inCmp d page = true
  · rw [if_pos h]; exact w.commitBytes ..
  · rw [if_neg h]
    refine State.canon.markMig ?_ _ _ _
    refine State.canon.logDirty ?_ _ _ _ _
    exact ⟨wf_filter _ w.1, w.2⟩

/-- A byte of a scratchpad written in place keeps its canonical form (R310). -/
theorem wf_putByte {k : Core} (carry : List (Nat × Nat)) (phase rank off : Nat) (b : Byte) (w : Memory.wf k.sp = true) :
    Memory.wf (k.putByte carry phase rank off b).sp = true := by
  have w1 : (k.logUndo carry off).sp = k.sp := by
    unfold Core.logUndo
    generalize (if k.fold then off % 0x40000 else off) = at_
    dsimp only
    split
    · rfl
    · split
      · rfl
      · split <;> rfl
  unfold Core.putByte
  split
  · exact w
  · dsimp only
    rw [w1]
    exact wf_cellSet off b w

/-- The form is what a run's invariant states. -/
theorem State.canon_iff {s : State} : s.canon ↔ (Memory.wf s.hbm && s.peer.all fun x => Memory.wf x.2) = true := by
  simp only [State.canon, Bool.and_eq_true, List.all_eq_true, Prod.forall]

/-- The state after reset lists no byte of HBM. -/
theorem wf_reset_hbm : Memory.wf State.reset.hbm = true := rfl

end Sys2Proof.Machine
end

