-- ==== Sys2Proof/Laws/Ops.lean ====
section
/-! SUPPORT. One lemma for each shared operation of the meanings: everything it can change. -/
namespace Sys2Proof.Machine

/-! Sequencer words (R151, R156, R175). -/

/-- Completing a word steps the repeat stack and the pc and readies the next word; nothing else of the page changes. -/
theorem Page.complete_eq (pg : Page) :
    pg.complete = { pg with rep := (stepRep pg.rep pg.pc.toNat).1, pc := BitVec.ofNat 11 (stepRep pg.rep pg.pc.toNat).2, phase := .ready } := rfl

/-- With no body that ends at the word the next word follows. -/
theorem stepRep_nil (k : Nat) : stepRep [] k = ([], k + 1) := rfl

theorem stepRep_inside {e : RepE} (r : List RepE) {k : Nat} (h : e.last ≠ k) : stepRep (e :: r) k = (e :: r, k + 1) := by simp [stepRep, h]

theorem stepRep_again {e : RepE} (r : List RepE) (h : 1 < e.left) : stepRep (e :: r) e.last = ({ e with left := e.left - 1 } :: r, e.first) := by
  simp [stepRep, h]

theorem stepRep_leave {e : RepE} (r : List RepE) (h : ¬ 1 < e.left) : stepRep (e :: r) e.last = stepRep r e.last := by simp [stepRep, h]

/-- The page in focus changes by f, every other page and every other part of the state stays. -/
theorem State.onPage_eq (s : State) (f : Page → Page) : s.onPage f = s.setPage s.focus.page (f s.fpage) := rfl

@[simp] theorem State.fpage_onPage (s : State) (f : Page → Page) : (s.onPage f).fpage = f s.fpage := by
  simp [State.onPage, State.fpage]

theorem State.page_onPage_ne (s : State) (f : Page → Page) {p : Nat} (h : p ≠ s.focus.page) : (s.onPage f).page p = s.page p := by
  simp [State.onPage, State.page_modPage_ne, h]

/-- A word that completes: its page takes f and steps on. -/
theorem State.done_eq (s : State) (f : Page → Page) : s.done f = s.setPage s.focus.page (f s.fpage).complete := rfl

/-- A word of one cycle that stands ready completes at once. -/
theorem State.holdFor_one {s : State} (f : Page → Page) (h : s.fpage.phase = .ready) : s.holdFor 1 f = s.done f := by
  simp [State.holdFor, h, State.done]

/-- A word of more cycles holds until its last one. -/
theorem State.holdFor_more {s : State} {n : Nat} (f : Page → Page) (h : s.fpage.phase = .ready) (hn : 1 < n) :
    s.holdFor n f = s.onPage fun pg => { pg with phase := .until (s.cycle + n - 1) } := by
  have : ¬ n ≤ 1 := by omega
  simp [State.holdFor, h, this]

/-- In its last cycle it completes. -/
theorem State.holdFor_last {s : State} {n c : Nat} (f : Page → Page) (h : s.fpage.phase = .until c) (hc : c ≤ s.cycle) :
    s.holdFor n f = s.done f := by
  simp [State.holdFor, h, hc, State.done]

/-- Before its last cycle nothing changes. -/
theorem State.holdFor_wait {s : State} {n c : Nat} (f : Page → Page) (h : s.fpage.phase = .until c) (hc : s.cycle < c) : s.holdFor n f = s := by
  have : ¬ c ≤ s.cycle := by omega
  simp [State.holdFor, h, this]

/-- A word that waits for data changes its page's phase alone. -/
theorem State.await_eq (s : State) (lat : Nat) (xd : Option (BitVec 5 × W64)) :
    s.await lat xd = s.setPage s.focus.page { s.fpage with phase := .mem (s.cycle + max 1 lat) xd, since := s.cycle } := rfl

/-- A refused access raises its trap at the word (R373). -/
theorem State.denied_eq (s : State) (w : Who) (e : Deny) (va : W64) :
    s.denied w e va = s.seqTrap s.focus.page e.cls e.code (some (s.resolve w.home va)) := rfl

/-! Element words. -/

/-- A result enters the pipeline of the core in focus; nothing else changes. -/
theorem State.launchAct_eq (s : State) (lat : Nat) (a : LandAct) :
    s.launchAct lat a = s.setCore s.focus.page s.focus.core { s.fcore with flight := s.fcore.flight ++ [{ left := lat, iv := s.focus.iv, act := a }] } := rfl

@[simp] theorem State.launchAct_focus (s : State) (lat : Nat) (a : LandAct) : (s.launchAct lat a).focus = s.focus := rfl
@[simp] theorem State.launchAct_tasks (s : State) (lat : Nat) (a : LandAct) : (s.launchAct lat a).tasks = s.tasks := rfl
@[simp] theorem State.launchAct_hbm (s : State) (lat : Nat) (a : LandAct) : (s.launchAct lat a).hbm = s.hbm := rfl
@[simp] theorem State.launchAct_agenda (s : State) (lat : Nat) (a : LandAct) : (s.launchAct lat a).agenda = s.agenda := rfl

/-- An issued result is one entry in the pipeline, live or void (R22). -/
theorem State.issue_eq (s : State) (op : Nat) (w : EWord) (lanes : Lanes) (valid mask : W16) (flags : FlagSet) :
    ∃ r : Result, s.issue op w lanes valid mask flags = s.launchAct (latOf op) (.result r) := by
  unfold State.issue
  dsimp only
  split <;> exact ⟨_, rfl⟩

/-! Traps: every kind is one cause at the owner of the page (R371, R373). -/

theorem State.seqTrap_eq (s : State) (p cls code : Nat) (addr : Option W64) (info : BitVec 128) :
    s.seqTrap p cls code addr info = s.raiseOn p
      { cls := cls, code := code, word := (s.page p).word, info := info, flags := if addr.isSome then 8 else 0, addr := addr.getD 0 } := rfl

theorem State.elemTrap_raises (s : State) (cls code lane : Nat) (addr : Option W64) (info : BitVec 128) :
    ∃ c : Cause, c.cls = cls ∧ c.code = code ∧ c.lane = lane ∧ c.unit = 1 + s.focus.core ∧ c.eword = s.focusWord
      ∧ s.elemTrap cls code lane addr info = s.raiseOn s.focus.page c := ⟨_, rfl, rfl, rfl, rfl, rfl, rfl⟩

theorem State.macroTrap_raises (s : State) (p c cls code : Nat) (addr : Option W64) :
    ∃ x : Cause, x.cls = cls ∧ x.code = code ∧ x.unit = 1 + c ∧ s.macroTrap p c cls code addr = s.raiseOn p x := ⟨_, rfl, rfl, rfl, rfl⟩

theorem State.engineTrap_raises (s : State) (p n cls code : Nat) (addr : Option W64) (info : BitVec 128) :
    ∃ x : Cause, x.cls = cls ∧ x.code = code ∧ x.unit = 9 + n ∧ x.info = info ∧ s.engineTrap p n cls code addr info = s.raiseOn p x :=
  ⟨_, rfl, rfl, rfl, rfl, rfl⟩

theorem State.portTrap_raises (s : State) (p n cls code : Nat) (addr : Option W64) :
    ∃ x : Cause, x.cls = cls ∧ x.code = code ∧ x.unit = 1 + n ∧ s.portTrap p n cls code addr = s.raiseOn p x := ⟨_, rfl, rfl, rfl, rfl⟩

/-- Freezing a page stops it and keeps its registers, its memories and its program counter (R372). -/
theorem Page.freeze_keeps (pg : Page) :
    pg.freeze.frozen = true ∧ pg.freeze.pc = pg.pc ∧ pg.freeze.x = pg.x ∧ pg.freeze.phase = pg.phase ∧ pg.freeze.owner = pg.owner
      ∧ pg.freeze.ports = pg.ports ∧ pg.freeze.cores.length = pg.cores.length ∧ pg.freeze.slots.length = pg.slots.length := by
  simp [Page.freeze]

/-- A fold over pages leaves a page outside the list alone. -/
theorem State.page_foldl_modPage (f : Page → Page) (ps : List Nat) (s : State) (q : Nat) (h : q ∉ ps) :
    (ps.foldl (fun s p => s.modPage p f) s).page q = s.page q := by
  induction ps generalizing s with
  | nil => rfl
  | cons p r ih =>
    simp only [List.mem_cons, not_or] at h
    rw [List.foldl_cons, ih _ h.2, State.page_modPage_ne s f h.1]

/-- Pages of other tasks go on while a task freezes (R372). -/
theorem State.page_freezeTask (s : State) (t : Task) {q : Nat} (h : q ∉ t.pages) : (s.freezeTask t).page q = s.page q :=
  State.page_foldl_modPage _ _ _ _ h

/-- They are untouched when it runs again (R377). -/
theorem State.page_thawTask (s : State) (t : Task) {q : Nat} (h : q ∉ t.pages) : (s.thawTask t).page q = s.page q :=
  State.page_foldl_modPage _ _ _ _ h

/-! Graph words (R250, R252). -/

/-- A graph word that completes with a result: g register, pc and phase of its instance alone. -/
theorem State.gwrite_eq (s : State) (n : BitVec 4) (v : W64) :
    s.gwrite n v = s.modInst s.focus.die s.focus.inst fun g => { g.setG n v with phase := .ready, pc := g.pc + 1 } := rfl

theorem State.gdone_eq (s : State) : s.gdone = s.modInst s.focus.die s.focus.inst fun g => { g with phase := .ready, pc := g.pc + 1 } := rfl

/-- What an instance slot holds after its change. -/
theorem State.inst_modInst_self (s : State) {d k : Nat} (f : GInst → GInst) (hd : d < s.dies.length) (hk : k < (s.die d).insts.length) :
    (s.modInst d k f).inst d k = f (s.inst d k) := by
  unfold State.modInst State.inst
  rw [State.die_modDie_self s _ hd]
  exact getD_modAt_self _ _ _ _ hk

/-- Other instance slots stay. -/
theorem State.inst_modInst_ne (s : State) {d e k j : Nat} (f : GInst → GInst) (h : (e, j) ≠ (d, k)) : (s.modInst d k f).inst e j = s.inst e j := by
  unfold State.modInst State.inst
  by_cases he : e = d
  · subst he
    have hj : j ≠ k := fun x => h (by rw [x])
    by_cases hd : e < s.dies.length
    · rw [State.die_modDie_self s _ hd]
      exact getD_modAt_ne _ _ _ hj
    · have : (s.modDie e fun x => { x with insts := modAt x.insts k f }).die e = s.die e := by
        simp [State.die, State.modDie, List.getD_eq_getElem?_getD, getElem?_modAt, List.getElem?_eq_none (Nat.le_of_not_lt hd)]
      rw [this]
  · rw [State.die_modDie_ne s _ he]

/-! Free values (log 5). -/

/-- Drawing a free value moves the counter on; nothing else changes. -/
theorem State.choose_eq (s : State) (n : Nat) : s.choose n = (Config.freeNat s.free % n, { s with free := s.free + 1 }) := rfl

/-- A value drawn below n is below n. -/
theorem State.choose_lt (s : State) {n : Nat} (h : 0 < n) : (s.choose n).1 < n := Nat.mod_lt _ h

end Sys2Proof.Machine
end

