-- ==== Sys2Proof/Tests/Image.lean ====
section
/-! SUPPORT. A small configuration image that the loader accepts, with the proof that it does: a witness for statements about accepted images. -/
namespace Sys2Proof.Tests
open Machine

/-! ## A configuration image of one general page whose sequencer halts (R89, R90) -/

/-- The image header: its magic, revision, page count and length. -/
def tinyHead : List Byte := leBytes 4 0x4643344B ++ leBytes 4 0x00010001 ++ leBytes 8 0 ++ leBytes 8 12352 ++ List.replicate 104 0

/-- Mode 0, one slot, one stage, one sequencer word. -/
def tinyFirst : List Byte := leBytes 8 0x0001000001010000

/-- HALT and the padding of the record. -/
def tinyLast : List Byte := leBytes 8 0x2400000000000000 ++ List.replicate 56 0

@[irreducible] def tinyPage : ImgPage := { raw := tinyFirst ++ (List.replicate 12152 0 ++ tinyLast) }
@[irreducible] def tinyImage : List Byte := tinyHead ++ tinyPage.raw
def tinyImg : Img := { pages := [tinyPage], edges := [], weights := [] }

theorem first_length : tinyFirst.length = 8 := by decide +kernel
theorem last_length : tinyLast.length = 64 := by decide +kernel
theorem head_length : tinyHead.length = 128 := by decide +kernel
theorem page_length : tinyPage.raw.length = 12224 := by
  simp only [tinyPage, List.length_append, List.length_replicate, first_length, last_length]
theorem image_length : tinyImage.length = 12352 := by
  simp only [tinyImage, List.length_append, head_length, page_length]

theorem leNat_zeros (n : Nat) : leNat (List.replicate n 0) = 0 := by
  induction n with
  | zero => rfl
  | succ n ih => rw [List.replicate_succ, leNat, ih]; rfl

/-- The bytes between the first eight and the sequencer words are zero. -/
theorem page_zero (off n : Nat) (h : 8 ≤ off) (k : off + n ≤ 12160) : tinyPage.u off n = 0 := by
  have e : (tinyPage.raw.drop off).take n = List.replicate n 0 := by
    simp only [tinyPage, List.drop_append, first_length]
    rw [List.drop_eq_nil_of_le (by rw [first_length]; exact h), List.nil_append, List.drop_replicate, List.length_replicate,
      List.take_append_of_le_length (by rw [List.length_replicate]; omega), List.take_replicate, Nat.min_eq_left (by omega)]
  simp only [ImgPage.u, leAt, e, leNat_zeros]

theorem page_first (off n : Nat) (h : off + n ≤ 8) : tinyPage.u off n = leNat ((tinyFirst.drop off).take n) := by
  simp only [ImgPage.u, leAt, tinyPage, List.drop_append]
  rw [List.take_append_of_le_length (by rw [List.length_drop, first_length]; omega)]

theorem page_word : tinyPage.seqWord 0 = 0x2400000000000000 := by
  have e : tinyPage.raw.drop 12160 = tinyLast := by
    simp only [tinyPage, List.drop_append, first_length, List.length_replicate]
    rw [List.drop_eq_nil_of_le (by rw [first_length] <;> decide), List.drop_eq_nil_of_le (by rw [List.length_replicate] <;> decide), List.nil_append, List.nil_append]
    rfl
  have f : tinyPage.seqWord 0 = BitVec.ofNat 64 (leNat ((tinyPage.raw.drop 12160).take 8)) := rfl
  rw [f, e]
  decide

theorem page_padding : leNat (tinyPage.raw.drop (0x2F80 + 8)) = 0 := by
  have e : tinyPage.raw.drop 12168 = tinyLast.drop 8 := by
    simp only [tinyPage, List.drop_append, first_length, List.length_replicate]
    rw [List.drop_eq_nil_of_le (by rw [first_length] <;> decide), List.drop_eq_nil_of_le (by rw [List.length_replicate] <;> decide), List.nil_append, List.nil_append]
  have f : leNat (tinyPage.raw.drop (0x2F80 + 8)) = leNat (tinyPage.raw.drop 12168) := rfl
  rw [f, e]
  decide

theorem image_field (off n : Nat) (h : off + n ≤ 128) : leAt tinyImage off n = leNat ((tinyHead.drop off).take n) := by
  simp only [leAt, tinyImage, List.drop_append]
  rw [List.take_append_of_le_length (by rw [List.length_drop, head_length]; omega)]

theorem image_rest : tinyImage.drop 128 = tinyPage.raw := by
  simp only [tinyImage, List.drop_append, head_length]
  rw [List.drop_eq_nil_of_le (Nat.le_of_eq head_length)]
  rfl

/-- The image parses. -/
theorem tiny_parses : parseImg tinyImage = .ok tinyImg := by
  have h1 : leAt tinyImage 6 1 = 1 := by rw [image_field _ _ (by decide)]; decide
  have h2 : leAt tinyImage 0 4 = 0x4643344B := by rw [image_field _ _ (by decide)]; decide
  have h3 : leAt tinyImage 4 2 = 1 := by rw [image_field _ _ (by decide)]; decide
  have h4 : leAt tinyImage 0x0A 6 = 0 := by rw [image_field _ _ (by decide)]; decide
  have h5 : leAt tinyImage 0x10 8 = 12352 := by rw [image_field _ _ (by decide)]; decide
  have h6 : leAt tinyImage 0x18 40 = 0 := by rw [image_field _ _ (by decide)]; decide
  have h7 : leAt tinyImage 0x70 16 = 0 := by rw [image_field _ _ (by decide)]; decide
  have h8 : leAt tinyImage 7 1 = 0 := by rw [image_field _ _ (by decide)]; decide
  have h9 : leAt tinyImage 8 2 = 0 := by rw [image_field _ _ (by decide)]; decide
  have n : leAt tinyPage.raw 6 2 = 1 := by
    have := page_first 6 2 (by decide)
    simp only [ImgPage.u] at this
    rw [this]; decide
  have t : takePages 1 tinyPage.raw = some ([tinyPage], []) := by
    have r : recLen 1 = 12224 := by decide
    simp only [takePages, n, r, page_length]
    rw [if_neg (by decide), List.drop_eq_nil_of_le (Nat.le_of_eq page_length), List.take_of_length_le (Nat.le_of_eq page_length)]
    rfl
  simp only [parseImg, h1, h2, h3, h4, h5, h6, h7, h8, h9, image_length, image_rest, t]
  rfl

theorem entry_zero (c i : Nat) (hc : c < 8) (hi : i < 64) : tinyPage.entry c i = 0 := page_zero _ _ (by omega) (by omega)

theorem page_words (p : Nat) : tinyPage.lwords p = [] := by
  simp only [ImgPage.lwords, List.filter_eq_nil_iff, List.mem_flatMap, List.mem_map, List.mem_range]
  rintro l ⟨c, hc, i, hi, rfl⟩
  simp only [ImgPage.lword, entry_zero c i hc hi]
  decide

theorem tiny_entry (c i : Nat) (hc : c < 8) (hi : i < 64) (before : List LWord) : tinyImg.entryFault 0 c i before = none := by
  have e := entry_zero c i hc hi
  have z := entry_zero c (i % 32) hc (by omega)
  have m : tinyPage.mode = 0 := by have := page_first 0 1 (by decide); simpa [ImgPage.mode, this] using (by decide : leNat ((tinyFirst.drop 0).take 1) = 0)
  have g : tinyImg.page 0 = tinyPage := rfl
  have stages : tinyPage.stages = 1 := by
    have := page_first 3 1 (by decide); simpa [ImgPage.stages, this] using (by decide : leNat ((tinyFirst.drop 3).take 1) = 1)
  have l0 : ∀ q, tinyPage.lword q c i = { page := q, core := c, sched := decide (32 ≤ i), slot := i % 32, stage := 0, op := 0, w := {} } := by
    intro q; simp only [ImgPage.lword, e]; rfl
  have conf : ∀ md ii, before.any (fun x => portConflict md ii x
      { page := 0, core := c, sched := decide (32 ≤ i), slot := i % 32, stage := 0, op := 0, w := {} }) = false := by
    intro md ii
    rw [List.any_eq_false]
    intro x _
    simp only [portConflict]
    cases takesPort md x.op x.w <;> simp [takesPort]
  have on0 : tinyPage.portOn 0 = false := by
    simp only [ImgPage.portOn, ImgPage.portByte, page_zero 0x1940 1 (by decide) (by decide)]; rfl
  simp only [Img.entryFault, g, e, l0, m, stages]
  simp only [conf]
  simp [elemForm, elemFaults, faultIf, firstFault, on0]

theorem page_byte (off : Nat) (h : off < 8) : tinyPage.u off 1 = leNat ((tinyFirst.drop off).take 1) := page_first off 1 (by omega)

theorem tiny_head : tinyPage.headFault 0 = none := by
  have u0 : tinyPage.u 0 1 = 0 := by rw [page_byte _ (by decide)]; decide
  have u1 : tinyPage.u 1 1 = 0 := by rw [page_byte _ (by decide)]; decide
  have u2 : tinyPage.u 2 1 = 1 := by rw [page_byte _ (by decide)]; decide
  have u3 : tinyPage.u 3 1 = 1 := by rw [page_byte _ (by decide)]; decide
  have u4 : tinyPage.u 4 1 = 0 := by rw [page_byte _ (by decide)]; decide
  have u5 : tinyPage.u 5 1 = 0 := by rw [page_byte _ (by decide)]; decide
  have u6 : tinyPage.u 6 2 = 1 := by rw [page_first _ _ (by decide)]; decide
  have u24 : tinyPage.u 24 40 = 0 := page_zero _ _ (by decide) (by decide)
  have masks : ((List.range 8).any fun c => (List.range 8).any fun j =>
      (!tinyPage.mask c j && decide (tinyPage.vInit c j ≠ 0)) || (!tinyPage.mask c (8 + j) && decide (tinyPage.sInit c j ≠ 0))) = false := by
    simp only [List.any_eq_false, List.mem_range]
    intro c hc
    have : ((List.range 8).any fun j =>
        (!tinyPage.mask c j && decide (tinyPage.vInit c j ≠ 0)) || (!tinyPage.mask c (8 + j) && decide (tinyPage.sInit c j ≠ 0))) = false := by
      simp only [List.any_eq_false, List.mem_range]
      intro j hj
      have v : tinyPage.vInit c j = 0 := page_zero _ _ (by omega) (by omega)
      have w : tinyPage.sInit c j = 0 := page_zero _ _ (by omega) (by omega)
      simp only [v, w]
      simp
    simp only [this]
    decide
  have pad : leNat (tinyPage.raw.drop (0x2F80 + 8 * tinyPage.n)) = 0 := by simp only [ImgPage.n, u6]; exact page_padding
  simp only [ImgPage.headFault, ImgPage.mode, ImgPage.ring, ImgPage.ii, ImgPage.stages, u0, u1, u2, u3, u4, u5, u24, pad, masks]
  simp only [ImgPage.n, u6]
  decide

theorem tiny_seq : tinyPage.seqFault 0 (List.range 1) [] = none := by
  have f : seqFields 0x2400000000000000 = {} := by decide +kernel
  have o : (0x2400000000000000 : W64).toNat / 2 ^ 56 = 0x24 := by decide +kernel
  have r : List.range 1 = [0] := rfl
  simp only [r, ImgPage.seqFault, page_word, f, o]
  decide +kernel

theorem tiny_ports : tinyPage.portFault 0 = none := by
  simp only [ImgPage.portFault, List.findSome?_eq_none_iff, List.mem_range]
  intro n hn
  have b : ∀ i < 8, tinyPage.portByte n i = 0 := fun i hi => page_zero _ _ (by omega) (by omega)
  have on : tinyPage.portOn n = false := by simp only [ImgPage.portOn, b 0 (by decide)]; rfl
  have all : tinyPage.u (0x1940 + 136 * n) 136 = 0 := page_zero _ _ (by omega) (by omega)
  have w : ∀ k < 2, tinyPage.win n k = 0 := by
    intro k hk
    have z : tinyPage.u (0x1940 + 136 * n + 8 + 64 * k) 64 = 0 := page_zero _ _ (by omega) (by omega)
    simp only [ImgPage.win, z]
    rfl
  have bytes : ∀ i < 7, tinyPage.portByte n (1 + i) = 0 := fun i hi => b _ (by omega)
  simp [w 0 (by decide), w 1 (by decide), b 0 (by decide), on, all, refuseIf]
  exact bytes

theorem tiny_tables : tinyImg.tableFault 0 = none := by
  simp only [Img.tableFault, List.findSome?_eq_none_iff, List.mem_range]
  intro k hk
  exact tiny_entry (k / 64) (k % 64) (by omega) (by omega) _

theorem page_passes (m : Img) (p : Nat) (h1 : (m.page p).headFault p = none) (h2 : (m.page p).seqFault p (List.range (m.page p).n) [] = none)
    (h3 : m.tableFault p = none) (h4 : (m.page p).portFault p = none) : m.pageFault p = none := by
  simp only [Img.pageFault, h1, h2, h3, h4]

theorem tiny_page : tinyImg.pageFault 0 = none := by
  have n : tinyPage.n = 1 := by
    have := page_first 6 2 (by decide)
    simp only [ImgPage.n, this]; decide
  exact page_passes tinyImg 0 tiny_head (by show tinyPage.seqFault 0 (List.range tinyPage.n) [] = none; rw [n]; exact tiny_seq) tiny_tables tiny_ports

theorem image_passes (m : Img) (h1 : (List.range m.pages.length).findSome? m.pageFault = none) (h2 : m.edgeFault = none) (h3 : m.weightFault = none)
    (h4 : m.regionFault = none) (h5 : m.lay.crossFault m = none) : m.fault = none := by
  simp only [Img.fault, h1, h2, h3, h4, h5]

theorem no_words (y : Lay) (m : Img) (w : (m.pages.zipIdx.flatMap fun x => x.1.lwords x.2) = []) : y.crossFault m = none := by
  simp only [Lay.crossFault, w, List.findSome?_nil]

theorem lone_page (m : Img) (l : m.pages.length = 1) (g : (m.page 0).mode = 0) : m.regionFault = none := by
  simp [Img.regionFault, l, g]

theorem find_lone (f : Nat → Option Refuse) (h : f 0 = none) : (List.range 1).findSome? f = none := by
  have r : List.range 1 = [0] := rfl
  rw [r, List.findSome?_cons, h, List.findSome?_nil]

theorem lone_words (g : ImgPage) (h : g.lwords 0 = []) : (([g].zipIdx).flatMap fun x => x.1.lwords x.2) = [] := by
  have z : [g].zipIdx = [(g, 0)] := rfl
  rw [z, List.flatMap_cons, List.flatMap_nil, h, List.append_nil]

theorem tiny_mode : (tinyImg.page 0).mode = 0 := by
  have g : tinyImg.page 0 = tinyPage := rfl
  rw [g]
  have := page_byte 0 (by decide)
  simp only [ImgPage.mode, this]
  decide

theorem tiny_ok : tinyImg.fault = none :=
  image_passes tinyImg (find_lone _ tiny_page) rfl rfl (lone_page tinyImg rfl tiny_mode) (no_words _ _ (lone_words tinyPage (page_words 0)))

/-- The image passes the whole check of a partition whose library lists its hash. -/
theorem tiny_checks (s : State) (lib : List LibE) (h : (s.part 0).lib = { kind := 0, hash := imageHash tinyImage 0x40, signer := [] } :: lib) :
    s.checkImage 0 tinyImage = .ok (tinyImg, { kind := 0, hash := imageHash tinyImage 0x40, signer := [] }) := by
  have e : (s.part 0).libOf 0 (imageHash tinyImage 0x40) = some { kind := 0, hash := imageHash tinyImage 0x40, signer := [] } := by
    simp [Part.libOf, h]
  have w : tinyImg.weights = [] := rfl
  simp only [State.checkImage, tiny_parses, State.libHit, e, w, tiny_ok]
  rfl

end Sys2Proof.Tests
end

