-- ==== Sys2Proof/Tests/Slice0.lean ====
section
/-! SUPPORT. Tests: words of every plane written out from the encodings of the spec, and ill-formed terms that every check refuses. -/
namespace Sys2Proof.Tests
open Machine

/-! ## Decoding -/

/-- Does a code decode to an instruction? -/
def decodesTo (c : Code) (i : Instr) : Bool :=
  match decode c with
  | .ok j => decide (j = i)
  | .error _ => false

/-- Is a code refused with a field and a reason? -/
def refusedAt (c : Code) (field reason : Nat) : Bool :=
  match decode c with
  | .error (.badWord _ f r) => decide (f = field ∧ r = reason)
  | _ => false

/-- Element words written out field by field (R67, R71), each with the instruction it stands for. -/
def elemWords0 : List (BitVec 40 × Instr) :=
  [(0x0000000000, .eNop {}),
   (0x02292026DE, .eMov { d := 5, a := 9, c := 19, fwd := 6, vm := 3, ty := 6 }),
   (0x04292726DE, .eAdd { d := 5, a := 9, b := 14, c := 19, fwd := 6, vm := 3, ty := 6 }),
   (0x06292726DE, .eSub { d := 5, a := 9, b := 14, c := 19, fwd := 6, vm := 3, ty := 6 }),
   (0x08292726D8, .eMul { d := 5, a := 9, b := 14, c := 19, fwd := 6, vm := 3 }),
   (0x0A292726D8, .eMulh { d := 5, a := 9, b := 14, c := 19, fwd := 6, vm := 3 }),
   (0x0C292726D8, .eMulhu { d := 5, a := 9, b := 14, c := 19, fwd := 6, vm := 3 }),
   (0x0E292726D0, .eMad { d := 5, a := 9, b := 14, c := 19, fwd := 6, vm := 2 }),
   (0x10292726DE, .eAnd { d := 5, a := 9, b := 14, c := 19, fwd := 6, vm := 3, ty := 6 }),
   (0x12292726DE, .eOr { d := 5, a := 9, b := 14, c := 19, fwd := 6, vm := 3, ty := 6 }),
   (0x14292726DE, .eXor { d := 5, a := 9, b := 14, c := 19, fwd := 6, vm := 3, ty := 6 }),
   (0x16292726DE, .eAndn { d := 5, a := 9, b := 14, c := 19, fwd := 6, vm := 3, ty := 6 }),
   (0x18292026DE, .eNot { d := 5, a := 9, c := 19, fwd := 6, vm := 3, ty := 6 }),
   (0x1A292726D8, .eShl { d := 5, a := 9, b := 14, c := 19, fwd := 6, vm := 3 }),
   (0x1C292726D8, .eShr { d := 5, a := 9, b := 14, c := 19, fwd := 6, vm := 3 }),
   (0x1E292726D8, .eSra { d := 5, a := 9, b := 14, c := 19, fwd := 6, vm := 3 }),
   (0x20292726D8, .eRotl { d := 5, a := 9, b := 14, c := 19, fwd := 6, vm := 3 }),
   (0x22292726DE, .eMin { d := 5, a := 9, b := 14, c := 19, fwd := 6, vm := 3, ty := 6 }),
   (0x24292726DE, .eMax { d := 5, a := 9, b := 14, c := 19, fwd := 6, vm := 3, ty := 6 }),
   (0x26292726DE, .eMinu { d := 5, a := 9, b := 14, c := 19, fwd := 6, vm := 3, ty := 6 }),
   (0x28292726DE, .eMaxu { d := 5, a := 9, b := 14, c := 19, fwd := 6, vm := 3, ty := 6 }),
   (0x2A292026DE, .eAbs { d := 5, a := 9, c := 19, fwd := 6, vm := 3, ty := 6 }),
   (0x2C292026DE, .eNeg { d := 5, a := 9, c := 19, fwd := 6, vm := 3, ty := 6 }),
   (0x2E292026D8, .eClz { d := 5, a := 9, c := 19, fwd := 6, vm := 3 }),
   (0x30292026D8, .ePopc { d := 5, a := 9, c := 19, fwd := 6, vm := 3 }),
   (0x32292726DE, .eCmpeq { d := 5, a := 9, b := 14, c := 19, fwd := 6, vm := 3, ty := 6 }),
   (0x34292726DE, .eCmpne { d := 5, a := 9, b := 14, c := 19, fwd := 6, vm := 3, ty := 6 })]

theorem test_decode_elem_0 : (elemWords0.all fun (b, i) => decodesTo (.elem b) i) = true := by decide +kernel

/-- Element words written out field by field (R67, R71), each with the instruction it stands for. -/
def elemWords1 : List (BitVec 40 × Instr) :=
  [(0x36292726DE, .eCmplt { d := 5, a := 9, b := 14, c := 19, fwd := 6, vm := 3, ty := 6 }),
   (0x38292726DE, .eCmple { d := 5, a := 9, b := 14, c := 19, fwd := 6, vm := 3, ty := 6 }),
   (0x3A292726DE, .eCmpltu { d := 5, a := 9, b := 14, c := 19, fwd := 6, vm := 3, ty := 6 }),
   (0x3C292726DE, .eCmpleu { d := 5, a := 9, b := 14, c := 19, fwd := 6, vm := 3, ty := 6 }),
   (0x3E292726D6, .eSel { d := 5, a := 9, b := 14, c := 19, fwd := 6, vm := 2, ty := 6 }),
   (0x40292726D6, .eVsel { d := 5, a := 9, b := 14, c := 19, fwd := 6, vm := 2, ty := 6 }),
   (0x42292000C6, .eValid { d := 5, a := 9, fwd := 6, ty := 6 }),
   (0x44292000C6, .eSetv { d := 5, a := 9, fwd := 6, ty := 6 }),
   (0x46292000C6, .eClrv { d := 5, a := 9, fwd := 6, ty := 6 }),
   (0x48292026DE, .eBcst { d := 5, a := 9, c := 19, fwd := 6, vm := 3, ty := 6 }),
   (0x4A292726DE, .ePerm { d := 5, a := 9, b := 14, c := 19, fwd := 6, vm := 3, ty := 6 }),
   (0x4C292726DE, .eSlideup { d := 5, a := 9, b := 14, c := 19, fwd := 6, vm := 3, ty := 6 }),
   (0x4E292726DE, .eSlidedn { d := 5, a := 9, b := 14, c := 19, fwd := 6, vm := 3, ty := 6 }),
   (0x50292026D8, .eRsum { d := 5, a := 9, c := 19, fwd := 6, vm := 3 }),
   (0x52292026D8, .eRmax { d := 5, a := 9, c := 19, fwd := 6, vm := 3 }),
   (0x54292026D8, .eRmin { d := 5, a := 9, c := 19, fwd := 6, vm := 3 }),
   (0x56292726DE, .eLanex { d := 5, a := 9, b := 14, c := 19, fwd := 6, vm := 3, ty := 6 }),
   (0x58292726DE, .eLanei { d := 5, a := 9, b := 14, c := 19, fwd := 6, vm := 3, ty := 6 }),
   (0x5A01202618, .eSteer { a := 9, c := 19, vm := 3 }),
   (0x5C01202618, .eTrapif { a := 9, c := 19, vm := 3 }),
   (0x5F812026DE, .eMovq { d := 48, a := 9, c := 19, fwd := 6, vm := 3, ty := 6 }),
   (0x60292726DB, .eFadd { d := 5, a := 9, b := 14, c := 19, fwd := 6, vm := 3, ty := 3 }),
   (0x62292726DB, .eFsub { d := 5, a := 9, b := 14, c := 19, fwd := 6, vm := 3, ty := 3 }),
   (0x64292726DB, .eFmul { d := 5, a := 9, b := 14, c := 19, fwd := 6, vm := 3, ty := 3 }),
   (0x66292726D3, .eFma { d := 5, a := 9, b := 14, c := 19, fwd := 6, vm := 2, ty := 3 }),
   (0x68292726D3, .eFms { d := 5, a := 9, b := 14, c := 19, fwd := 6, vm := 2, ty := 3 }),
   (0x6A292726D3, .eFnma { d := 5, a := 9, b := 14, c := 19, fwd := 6, vm := 2, ty := 3 })]

theorem test_decode_elem_1 : (elemWords1.all fun (b, i) => decodesTo (.elem b) i) = true := by decide +kernel

/-- Element words written out field by field (R67, R71), each with the instruction it stands for. -/
def elemWords2 : List (BitVec 40 × Instr) :=
  [(0x6C292726DB, .eFmin { d := 5, a := 9, b := 14, c := 19, fwd := 6, vm := 3, ty := 3 }),
   (0x6E292726DB, .eFmax { d := 5, a := 9, b := 14, c := 19, fwd := 6, vm := 3, ty := 3 }),
   (0x70292026DB, .eFabs { d := 5, a := 9, c := 19, fwd := 6, vm := 3, ty := 3 }),
   (0x72292026DB, .eFneg { d := 5, a := 9, c := 19, fwd := 6, vm := 3, ty := 3 }),
   (0x74292726DB, .eFcmpeq { d := 5, a := 9, b := 14, c := 19, fwd := 6, vm := 3, ty := 3 }),
   (0x76292726DB, .eFcmplt { d := 5, a := 9, b := 14, c := 19, fwd := 6, vm := 3, ty := 3 }),
   (0x78292726DB, .eFcmple { d := 5, a := 9, b := 14, c := 19, fwd := 6, vm := 3, ty := 3 }),
   (0x7A292726DB, .eFcmpun { d := 5, a := 9, b := 14, c := 19, fwd := 6, vm := 3, ty := 3 }),
   (0x7C292026DB, .eFclass { d := 5, a := 9, c := 19, fwd := 6, vm := 3, ty := 3 }),
   (0x7E292026DB, .eFrcp { d := 5, a := 9, c := 19, fwd := 6, vm := 3, ty := 3 }),
   (0x80292026DB, .eFrsq { d := 5, a := 9, c := 19, fwd := 6, vm := 3, ty := 3 }),
   (0x82292026DB, .eFsqrt { d := 5, a := 9, c := 19, fwd := 6, vm := 3, ty := 3 }),
   (0x84292726DB, .eFdiv { d := 5, a := 9, b := 14, c := 19, fwd := 6, vm := 3, ty := 3 }),
   (0x86292026DB, .eFexp2 { d := 5, a := 9, c := 19, fwd := 6, vm := 3, ty := 3 }),
   (0x88292026DB, .eFlog2 { d := 5, a := 9, c := 19, fwd := 6, vm := 3, ty := 3 }),
   (0x8A292026D9, .eFrsum { d := 5, a := 9, c := 19, fwd := 6, vm := 3, ty := 1 }),
   (0x8C292026D9, .eFrmax { d := 5, a := 9, c := 19, fwd := 6, vm := 3, ty := 1 }),
   (0x8E292026D9, .eFrmin { d := 5, a := 9, c := 19, fwd := 6, vm := 3, ty := 1 }),
   (0x90292726DE, .eDot { d := 5, a := 9, b := 14, c := 19, fwd := 6, vm := 3, ty := 6 }),
   (0x92292726D6, .eDota { d := 5, a := 9, b := 14, c := 19, fwd := 6, vm := 2, ty := 6 }),
   (0x94292726DB, .eFscale { d := 5, a := 9, b := 14, c := 19, fwd := 6, vm := 3, ty := 3 }),
   (0x96292026DB, .eFround { d := 5, a := 9, c := 19, fwd := 6, vm := 3, ty := 3 }),
   (0x98292026D9, .eFcvti { d := 5, a := 9, c := 19, fwd := 6, vm := 3, ty := 1 }),
   (0x9A292026D9, .eIcvtf { d := 5, a := 9, c := 19, fwd := 6, vm := 3, ty := 1 }),
   (0x9C292726DB, .eFcopys { d := 5, a := 9, b := 14, c := 19, fwd := 6, vm := 3, ty := 3 }),
   (0x9E292726DB, .eFmaxm { d := 5, a := 9, b := 14, c := 19, fwd := 6, vm := 3, ty := 3 }),
   (0xA0292100D6, .eCvt { d := 5, a := 9, b := 2, fwd := 6, vm := 2, ty := 6 })]

theorem test_decode_elem_2 : (elemWords2.all fun (b, i) => decodesTo (.elem b) i) = true := by decide +kernel

/-- Element words written out field by field (R67, R71), each with the instruction it stands for. -/
def elemWords3 : List (BitVec 40 × Instr) :=
  [(0xA2292100D6, .eCvts { d := 5, a := 9, b := 2, fwd := 6, vm := 2, ty := 6 }),
   (0xA4292704D5, .ePack { d := 5, a := 9, b := 14, c := 2, fwd := 6, vm := 2, ty := 5 }),
   (0xA6292100D1, .eUnpkl { d := 5, a := 9, b := 2, fwd := 6, vm := 2, ty := 1 }),
   (0xA8292100D1, .eUnpkh { d := 5, a := 9, b := 2, fwd := 6, vm := 2, ty := 1 }),
   (0xAA292702D7, .eQmx { d := 5, a := 9, b := 14, c := 1, fwd := 6, vm := 2, ty := 7 }),
   (0xAC292702D7, .eQbx { d := 5, a := 9, b := 14, c := 1, fwd := 6, vm := 2, ty := 7 }),
   (0xAE292726D3, .eDq { d := 5, a := 9, b := 14, c := 19, fwd := 6, vm := 2, ty := 3 }),
   (0xB0292702D0, .eSclx { d := 5, a := 9, b := 14, c := 1, fwd := 6, vm := 2 }),
   (0xB2292102D6, .eNarw { d := 5, a := 9, b := 2, c := 1, fwd := 6, vm := 2, ty := 6 }),
   (0xB4292104D1, .eWidn { d := 5, a := 9, b := 2, c := 2, fwd := 6, vm := 2, ty := 1 }),
   (0xC0292726DE, .eLd { d := 5, a := 9, b := 14, c := 19, fwd := 6, vm := 3, ty := 6 }),
   (0xC201272616, .eSt { a := 9, b := 14, c := 19, vm := 2, ty := 6 }),
   (0xC4292726DE, .eLdc { d := 5, a := 9, b := 14, c := 19, fwd := 6, vm := 3, ty := 6 }),
   (0xC6286026DE, .eSrd { d := 5, a := 3, c := 19, fwd := 6, vm := 3, ty := 6 }),
   (0xC80067261E, .eSwr { a := 3, b := 14, c := 19, vm := 3, ty := 6 }),
   (0xCA007D8000, .eSskip { a := 3, b := 59 }),
   (0xCC286000C8, .eScount { d := 5, a := 3, fwd := 6, vm := 1 }),
   (0xCE0127261B, .eAredf { a := 9, b := 14, c := 19, vm := 3, ty := 3 }),
   (0xD001272618, .eAredi { a := 9, b := 14, c := 19, vm := 3 }),
   (0xE0292000C6, .eWld { d := 5, a := 9, fwd := 6, ty := 6 }),
   (0xE200000000, .eWsel {}),
   (0xE429270066, .eSmac { d := 5, a := 9, b := 14, fwd := 3, ty := 6 }),
   (0xE6292000C6, .eSdrn { d := 5, a := 9, fwd := 6, ty := 6 }),
   (0xE80120000E, .eFeed { a := 9, vm := 1, ty := 6 }),
   (0xEA286000C0, .eRdctl { d := 5, a := 3, fwd := 6 }),
   (0xEC00672618, .eWrctl { a := 3, b := 14, c := 19, vm := 3 })]

theorem test_decode_elem_3 : (elemWords3.all fun (b, i) => decodesTo (.elem b) i) = true := by decide +kernel

/-- Sequencer words written out field by field (R74, R153), each with the instruction it stands for. -/
def seqWords0 : List (BitVec 64 × Instr) :=
  [(0x00580001A1B2C3D4, .sXli { xd := 11, mod := 1, imm := 0xa1b2c3d4 }),
   (0x015D8001A1B2C3D4, .sXlih { xd := 11, xa := 22, mod := 1, imm := 0xa1b2c3d4 }),
   (0x025D8001A1B2C3D4, .sXadd { xd := 11, xa := 22, mod := 1, imm := 0xa1b2c3d4 }),
   (0x035D8001A1B2C3D4, .sXsub { xd := 11, xa := 22, mod := 1, imm := 0xa1b2c3d4 }),
   (0x045D8001A1B2C3D4, .sXmul { xd := 11, xa := 22, mod := 1, imm := 0xa1b2c3d4 }),
   (0x055D8001A1B2C3D4, .sXand { xd := 11, xa := 22, mod := 1, imm := 0xa1b2c3d4 }),
   (0x065D8001A1B2C3D4, .sXior { xd := 11, xa := 22, mod := 1, imm := 0xa1b2c3d4 }),
   (0x075D8001A1B2C3D4, .sXxor { xd := 11, xa := 22, mod := 1, imm := 0xa1b2c3d4 }),
   (0x085D8001A1B2C3D4, .sXshl { xd := 11, xa := 22, mod := 1, imm := 0xa1b2c3d4 }),
   (0x095D8001A1B2C3D4, .sXshr { xd := 11, xa := 22, mod := 1, imm := 0xa1b2c3d4 }),
   (0x0A5D8001A1B2C3D4, .sXsra { xd := 11, xa := 22, mod := 1, imm := 0xa1b2c3d4 }),
   (0x0B5D8001A1B2C3D4, .sXmin { xd := 11, xa := 22, mod := 1, imm := 0xa1b2c3d4 }),
   (0x0C5D8001A1B2C3D4, .sXmax { xd := 11, xa := 22, mod := 1, imm := 0xa1b2c3d4 }),
   (0x0D5D8001A1B2C3D4, .sXslt { xd := 11, xa := 22, mod := 1, imm := 0xa1b2c3d4 }),
   (0x0E5DBA0000000013, .sXsel { xd := 11, xa := 22, xb := 29, imm := 19 }),
   (0x0F5DBA0600000000, .sXld { xd := 11, xa := 22, xb := 29, mod := 6 }),
   (0x105DBA0600000000, .sXst { xd := 11, xa := 22, xb := 29, mod := 6 }),
   (0x200580000000002E, .sRep { xa := 22, imm := 46 }),
   (0x215D800600000000, .sKrun { xd := 11, xa := 22, mod := 6 }),
   (0x220580000000002E, .sKsw { xa := 22, imm := 46 }),
   (0x2300000000000000, .sYield {}),
   (0x24000000A1B2C3D4, .sHalt { imm := 0xa1b2c3d4 }),
   (0x250000000000BEEF, .sTrap { imm := 0xbeef }),
   (0x260000000000BEEF, .sNopq { imm := 0xbeef }),
   (0x300000000000002E, .sSsend { imm := 46 }),
   (0x3100000000000000, .sLsync {}),
   (0x3200000000020055, .sSige { imm := 0x20055 })]

theorem test_decode_seq_0 : (seqWords0.all fun (b, i) => decodesTo (.seq b) i) = true := by decide +kernel

/-- Sequencer words written out field by field (R74, R153), each with the instruction it stands for. -/
def seqWords1 : List (BitVec 64 × Instr) :=
  [(0x330580000000002E, .sWaite { xa := 22, imm := 46 }),
   (0x4005BB8000115563, .sTld { xa := 22, xb := 29, mod := 0x180, imm := 0x115563 }),
   (0x4105BA2800115563, .sTst { xa := 22, xb := 29, mod := 40, imm := 0x115563 }),
   (0x4205BA0000111560, .sTkld { xa := 22, xb := 29, imm := 0x111560 }),
   (0x4305BA0000111560, .sTwld { xa := 22, xb := 29, imm := 0x111560 }),
   (0x4400005A00115563, .sTmma { mod := 90, imm := 0x115563 }),
   (0x4500005A00511563, .sTmms { mod := 90, imm := 0x511563 }),
   (0x4605BAD000115563, .sTgath { xa := 22, xb := 29, mod := 208, imm := 0x115563 }),
   (0x4705BA0D00115563, .sTscat { xa := 22, xb := 29, mod := 13, imm := 0x115563 }),
   (0x480000D000115563, .sTxp { mod := 208, imm := 0x115563 }),
   (0x490000D000115563, .sTcvt { mod := 208, imm := 0x115563 }),
   (0x4A0000D000311567, .sTqnt { mod := 208, imm := 0x311567 }),
   (0x4B0000D000311561, .sTred { mod := 208, imm := 0x311561 }),
   (0x4C00005A00115563, .sTew { mod := 90, imm := 0x115563 }),
   (0x4D05818000115563, .sTfill { xa := 22, mod := 0x180, imm := 0x115563 }),
   (0x4E0580D000311563, .sTsmx { xa := 22, mod := 208, imm := 0x311563 }),
   (0x4F05805A00311563, .sTnrm { xa := 22, mod := 90, imm := 0x311563 }),
   (0x6005800600000000, .sMshp { xa := 22, mod := 6 }),
   (0x6158000600000000, .sMshr { xd := 11, mod := 6 }),
   (0x6200000000000013, .sSpset { imm := 19 }),
   (0x6305800DA1B2C3D4, .sWin { xa := 22, mod := 13, imm := 0xa1b2c3d4 }),
   (0x6405800D00000000, .sCset { xa := 22, mod := 13 }),
   (0x6558000D00000000, .sCget { xd := 11, mod := 13 }),
   (0x7005BA0500000000, .sEcopy { xa := 22, xb := 29, mod := 5 }),
   (0x715DBA0500000000, .sEgath { xd := 11, xa := 22, xb := 29, mod := 5 }),
   (0x725DBA0500000000, .sEscat { xd := 11, xa := 22, xb := 29, mod := 5 }),
   (0x7305BA0500000000, .sEfill { xa := 22, xb := 29, mod := 5 })]

theorem test_decode_seq_1 : (seqWords1.all fun (b, i) => decodesTo (.seq b) i) = true := by decide +kernel

/-- Sequencer words written out field by field (R74, R153), each with the instruction it stands for. -/
def seqWords2 : List (BitVec 64 × Instr) :=
  [(0x7405BA0500001234, .sEcollSum { xa := 22, xb := 29, mod := 5, imm := 0x1234 }),
   (0x7405BA0D00000000, .sEcollGather { xa := 22, xb := 29, mod := 13 }),
   (0x7405BA3300000000, .sEcollBcast { xa := 22, xb := 29, mod := 51 }),
   (0x7505BA05000005AB, .sEcryptEnc { xa := 22, xb := 29, mod := 5, imm := 0x5ab }),
   (0x7505BA0D000005AB, .sEcryptDec { xa := 22, xb := 29, mod := 13, imm := 0x5ab }),
   (0x7658000500000000, .sEqry { xd := 11, mod := 5 }),
   (0x770000000000002E, .sEwait { imm := 46 }),
   (0x780000010000002E, .sEcancel { mod := 1, imm := 46 }),
   (0x8005BA0000000000, .sSeal { xa := 22, xb := 29 }),
   (0x8105BA0000000000, .sUnseal { xa := 22, xb := 29 }),
   (0x825DBA000000000B, .sRetain { xd := 11, xa := 22, xb := 29, imm := 11 }),
   (0x8305800000000000, .sUnpin { xa := 22 }),
   (0x845DBA0000000000, .sEvhint { xd := 11, xa := 22, xb := 29 }),
   (0x8500000000000005, .sFence { imm := 5 }),
   (0x86058000000115A3, .sCfill { xa := 22, imm := 0x115a3 }),
   (0x8705805A00001234, .sCellinit { xa := 22, mod := 90, imm := 0x1234 }),
   (0x885D800000000002, .sXcell { xd := 11, xa := 22, imm := 2 }),
   (0x895DBA06A1B2C3D4, .sXaadd { xd := 11, xa := 22, xb := 29, mod := 6, imm := 0xa1b2c3d4 }),
   (0x8A5DBA06A1B2C3D4, .sXacas { xd := 11, xa := 22, xb := 29, mod := 6, imm := 0xa1b2c3d4 }),
   (0x8B5DBA06A1B2C3D4, .sXaswp { xd := 11, xa := 22, xb := 29, mod := 6, imm := 0xa1b2c3d4 }),
   (0x9058000000000005, .sRdsr { xd := 11, imm := 5 }),
   (0x9105800000000005, .sWrsr { xa := 22, imm := 5 })]

theorem test_decode_seq_2 : (seqWords2.all fun (b, i) => decodesTo (.seq b) i) = true := by decide +kernel

/-- Graph words written out field by field (R76, R255), each with the instruction it stands for. -/
def graphWords0 : List (BitVec 64 × Instr) :=
  [(0x000000000000BEEF, .gEnd { imm := 0xbeef }),
   (0x06D80000A1B2C3D4, .gTask { gd := 11, ga := 6, imm := 0xa1b2c3d4 }),
   (0x0ADB4000A1B2C3D4, .gTaskd { gd := 11, ga := 6, gb := 13, imm := 0xa1b2c3d4 }),
   (0x0C00000000000000, .gStep {}),
   (0x12C0000000000000, .gEndstep { gd := 11 }),
   (0x141800020000002E, .gWaitEvent { ga := 6, mod := 2, imm := 46 }),
   (0x16D8000100000000, .gWaitLaunch { gd := 11, ga := 6, mod := 1 }),
   (0x1800000000020055, .gSig { imm := 0x20055 }),
   (0x22D80000A1B2C3D4, .gGld { gd := 11, ga := 6, imm := 0xa1b2c3d4 }),
   (0x241B4000A1B2C3D4, .gGst { ga := 6, gb := 13, imm := 0xa1b2c3d4 }),
   (0x2AC00001A1B2C3D4, .gGli { gd := 11, mod := 1, imm := 0xa1b2c3d4 }),
   (0x2ED80001A1B2C3D4, .gGadd { gd := 11, ga := 6, mod := 1, imm := 0xa1b2c3d4 }),
   (0x32D80001A1B2C3D4, .gGsub { gd := 11, ga := 6, mod := 1, imm := 0xa1b2c3d4 }),
   (0x36D80001A1B2C3D4, .gGand { gd := 11, ga := 6, mod := 1, imm := 0xa1b2c3d4 }),
   (0x3ADB400200000000, .gGcmp { gd := 11, ga := 6, gb := 13, mod := 2 }),
   (0x3ED80003A1B2C3D4, .gGcell { gd := 11, ga := 6, mod := 3, imm := 0xa1b2c3d4 }),
   (0x40000000A1B2C3D4, .gBr { imm := 0xa1b2c3d4 }),
   (0x44180001A1B2C3D4, .gBrc { ga := 6, mod := 1, imm := 0xa1b2c3d4 }),
   (0x48000001A1B2C3D4, .gLoop { mod := 1, imm := 0xa1b2c3d4 }),
   (0x4C00000000000000, .gEndl {}),
   (0x52C000000000002E, .gCallg { gd := 11, imm := 46 }),
   (0x62C0000100000000, .gPatch { gd := 11, mod := 1 }),
   (0x640000000000BEEF, .gMsg { imm := 0xbeef }),
   (0x6940000000000000, .gRcv { gd := 5 }),
   (0x6EDB400000000000, .gLease { gd := 11, ga := 6, gb := 13 }),
   (0x7018000000000000, .gFree { ga := 6 }),
   (0x76D80000A1B2C3D4, .gReceipt { gd := 11, ga := 6, imm := 0xa1b2c3d4 })]

theorem test_decode_graph_0 : (graphWords0.all fun (b, i) => decodesTo (.graph b) i) = true := by decide +kernel

/-- Graph words written out field by field (R76, R255), each with the instruction it stands for. -/
def graphWords1 : List (BitVec 64 × Instr) :=
  [(0x82D80001A1B2C3D4, .gFaultrd { gd := 11, ga := 6, mod := 1, imm := 0xa1b2c3d4 }),
   (0x86D8000000000000, .gFaultackEnd { gd := 11, ga := 6 }),
   (0x86D8000100000000, .gFaultackResume { gd := 11, ga := 6, mod := 1 }),
   (0x8AD8000000000000, .gRetry { gd := 11, ga := 6 })]

theorem test_decode_graph_1 : (graphWords1.all fun (b, i) => decodesTo (.graph b) i) = true := by decide +kernel

/-- Words that the spec works out (03 R67, R68, R71; 06 R154 to R173; 10 R255 to R264; 18 R376) with their instructions. -/
def workedWords : List (Code × Instr) :=
  [(.elem 0x66157E0491, .eFma { d := 2, a := 43, b := 60, c := 2, fwd := 4, vm := 2, ty := 1 }),
   (.elem 0x04287E8056, .eAdd { d := 5, a := 3, b := 61, fwd := 2, vm := 2, ty := 6 }),
   (.elem 0x05861C0000, .eAdd { d := 48, a := 48, b := 56 }),
   (.seq 0x021900010000000C, .sXadd { xd := 3, xa := 4, mod := 1, imm := 12 }),
   (.seq 0x0008000100000000, .sXli { xd := 1, mod := 1 }),
   (.seq 0x2004000000000003, .sRep { xa := 16, imm := 3 }),
   (.seq 0x2114400000000000, .sKrun { xd := 2, xa := 17 }),
   (.seq 0x6518000000000000, .sCget { xd := 3 }),
   (.graph 0x04C0000000000040, .gTask { gd := 3, imm := 0x40 }),
   (.graph 0x8280000000000100, .gFaultrd { gd := 10, imm := 0x100 }),
   (.graph 0x86E8000100000000, .gFaultackResume { gd := 11, ga := 10, mod := 1 }),
   (.graph 0x8B28000000000000, .gRetry { gd := 12, ga := 10 })]

theorem test_decode_worked : (workedWords.all fun (c, i) => decodesTo c i) = true := by decide +kernel

/-- The command codes (R432). -/
def commandCodes : List (BitVec 8 × (Nat → Instr)) :=
  [(0x01, .cIdent), (0x02, .cAttest), (0x10, .cFwstage), (0x11, .cFwswitch), (0x20, .cLibadd), (0x21, .cLibrevoke), (0x28, .cPageset),
   (0x30, .cModelopen), (0x31, .cModelfill), (0x32, .cModelclose), (0x40, .cSessopen), (0x41, .cSessclose), (0x42, .cReplyclose),
   (0x50, .cOwnreceipt), (0x60, .cLinkup), (0x61, .cExport)]

theorem test_decode_commands : (commandCodes.all fun (c, f) => decodesTo (.command c 3) (f 3)) = true := by decide +kernel

/-- A packet of a type: rev 1 in bytes 0 and 1, the type in byte 2 (R272). -/
def packetOf (kind : Nat) : HostPacket := { part := 2, chan := 5, bits := BitVec.ofNat 512 (1 + kind * 2 ^ 16) }

theorem test_decode_packets :
    ([(1, Instr.hHostInstallPacket), (2, .hHostLaunchPacket), (3, .hHostPatchPacket), (4, .hHostDataPacket), (0, .hUnknownPacketType),
      (5, .hUnknownPacketType), (255, .hUnknownPacketType)].all fun (k, f) => decodesTo (.packet (packetOf k)) (f (packetOf k))) = true := by decide +kernel

/-- Codes that are no instruction, with the field and the reason of the refusal (R71, R74, R76, R81, R432). -/
theorem test_refused_words :
    refusedAt (.elem 0xB600000000) 1 1 = true ∧ refusedAt (.elem 0xD200000000) 1 1 = true ∧ refusedAt (.elem 0xEE00000000) 1 1 = true
      ∧ refusedAt (.seq 0x1100000000000000) 1 0xD = true ∧ refusedAt (.seq 0x5000000000000000) 1 0xD = true
      ∧ refusedAt (.seq 0x9200000000000000) 1 0xD = true ∧ refusedAt (.graph 0x1C00000000000000) 1 0x20 = true
      ∧ refusedAt (.graph 0x8C00000000000000) 1 0x20 = true ∧ (commandInstr 0x03 0).isNone = true := by decide +kernel

/-- A word of each form with a field that its entry leaves no room for: the check names the field and the reason (R70 to R73, R102, R103, R109, R124 to R131,
R137, R145, R355). -/
def badElems : List ((EWord → Instr) × Nat × EWord × Nat × Nat) :=
  [(.eNop, 0x00, { d := 1 }, 2, 3), (.eNop, 0x00, { a := 1 }, 3, 3), (.eNop, 0x00, { b := 1 }, 4, 3),
   (.eNop, 0x00, { c := 1 }, 5, 3), (.eNop, 0x00, { fwd := 1 }, 6, 3), (.eNop, 0x00, { vm := 1 }, 7, 3),
   (.eNop, 0x00, { ty := 1 }, 8, 3), (.eAdd, 0x02, { d := 57 }, 2, 2), (.eAdd, 0x02, { d := 63 }, 2, 2),
   (.eAdd, 0x02, { c := 1 }, 5, 3), (.eAdd, 0x02, { ty := 1 }, 8, 2), (.eMad, 0x07, { vm := 3 }, 7, 4),
   (.eNot, 0x0C, { b := 1 }, 4, 3), (.eSteer, 0x2D, { vm := 2 }, 7, 2), (.eSteer, 0x2D, { d := 1 }, 2, 3),
   (.eSteer, 0x2D, { fwd := 1 }, 6, 2), (.eWsel, 0x71, { a := 1 }, 3, 3), (.eWsel, 0x71, { c := 1 }, 5, 3),
   (.eWld, 0x70, { d := 16 }, 2, 2), (.eSrd, 0x63, { a := 8 }, 3, 2), (.eCvt, 0x50, { b := 8, ty := 1 }, 4, 2)]

/-- The rules that single element opcodes add. -/
def badExtras : List ((EWord → Instr) × Nat × EWord × Nat × Nat) :=
  [(.eMov, 0x01, { d := 48 }, 2, 2), (.eMov, 0x01, { a := 48 }, 3, 2), (.eBcst, 0x24, { d := 48 }, 2, 2),
   (.eMovq, 0x2F, { d := 5 }, 2, 2), (.eLanei, 0x2C, { d := 40 }, 2, 2), (.eCvt, 0x50, { b := 1, ty := 1 }, 4, 2),
   (.eCvts, 0x51, { b := 1, c := 1 }, 5, 2), (.ePack, 0x52, { ty := 2, c := 2 }, 5, 2),
   (.ePack, 0x52, { ty := 4, c := 4 }, 5, 2), (.eUnpkl, 0x53, { ty := 1, b := 4 }, 4, 2),
   (.eUnpkh, 0x54, { ty := 1, b := 2, c := 1 }, 5, 2), (.eQmx, 0x55, { ty := 7, c := 2, b := 9 }, 4, 2),
   (.eQbx, 0x56, { ty := 7, c := 6, b := 59 }, 5, 2), (.eSclx, 0x58, { c := 8 }, 5, 2),
   (.eDq, 0x57, { ty := 2, c := 8 }, 5, 2), (.eNarw, 0x59, { ty := 1, b := 1 }, 4, 2),
   (.eNarw, 0x59, { ty := 2, b := 1, c := 2 }, 5, 2), (.eWidn, 0x5A, { ty := 1, b := 1 }, 4, 2),
   (.eWidn, 0x5A, { ty := 1, b := 2, c := 4 }, 5, 2), (.eSskip, 0x65, { b := 1 }, 4, 2),
   (.eSmac, 0x72, { ty := 2, fwd := 4 }, 6, 2), (.eRdctl, 0x75, { a := 6 }, 3, 5), (.eWrctl, 0x76, { a := 4 }, 3, 5)]

theorem test_wf_elem : ((badElems ++ badExtras).all fun (i, op, w, f, r) => !(i w).wf && (elemFaults op w).contains (f, r)) = true := by decide +kernel

/-- The same for sequencer words (R75, R153 to R175, R179, R181, R191, R195, R330, R360). -/
def badSeqs : List ((SWord → Instr) × Nat × SWord × Nat × Nat) :=
  [(.sRep, 0x20, { xd := 1, imm := 1 }, 2, 0xE), (.sXli, 0x00, { xa := 1, mod := 1 }, 3, 0xE),
   (.sXli, 0x00, { xb := 1, mod := 1 }, 4, 0xE), (.sXli, 0x00, {}, 5, 0xE), (.sXlih, 0x01, {}, 5, 0xE),
   (.sXadd, 0x02, { mod := 2 }, 5, 0xE), (.sXadd, 0x02, { imm := 1 }, 6, 0xE), (.sRep, 0x20, {}, 6, 0xE),
   (.sSige, 0x32, { imm := 5 }, 6, 0xE), (.sCset, 0x64, { mod := 0x48 }, 5, 0xE),
   (.sEcollSum, 0x74, { mod := 0x18 }, 5, 0xE), (.sEwait, 0x77, {}, 6, 0xE), (.sRetain, 0x82, { imm := 13 }, 6, 0xE),
   (.sRetain, 0x82, {}, 6, 0xE), (.sFence, 0x85, {}, 6, 0xE), (.sCfill, 0x86, { imm := 0xFF }, 6, 0xE),
   (.sCfill, 0x86, { imm := 0x24000 }, 6, 0xE),
   (.sXcell, 0x88, { imm := 3 }, 6, 0xE), (.sXaadd, 0x89, { mod := 2 }, 5, 0xE), (.sRdsr, 0x90, { imm := 10 }, 6, 0xE),
   (.sWrsr, 0x91, { imm := 4 }, 6, 0xE)]

/-- The same for tile macro words. -/
def badMacros : List ((SWord → Instr) × Nat × SWord × Nat × Nat) :=
  [(.sTfill, 0x4D, {}, 6, 0xE), (.sTfill, 0x4D, { imm := 0x2010 }, 6, 0xE), (.sTmma, 0x44, { imm := 0x11 }, 6, 0xE),
   (.sTwld, 0x43, { imm := 0x1FE00010 }, 6, 0xE),
   (.sTmms, 0x45, { imm := 0x00C00016 }, 6, 0xC), (.sTmms, 0x45, { imm := 0x12 }, 6, 0xC),
   (.sTcvt, 0x49, { imm := 0x00200011 }, 6, 0xE), (.sTqnt, 0x4A, { imm := 0x17 }, 6, 0xE),
   (.sTred, 0x4B, { imm := 0x00600010 }, 6, 0xE), (.sTew, 0x4C, { imm := 0x00C00010 }, 6, 0xE),
   (.sTld, 0x40, { imm := 0x17, mod := 0x100 }, 5, 0xE)]

theorem test_wf_seq : ((badSeqs ++ badMacros).all fun (i, op, w, f, r) => !(i w).wf && (seqFaults op w).contains (f, r)) = true := by decide +kernel

/-- The same for graph words (R76, R255, R265, R376). -/
def badGraphs : List ((GWord → Instr) × Nat × GWord × Nat × Nat) :=
  [(.gEnd, 0x00, { gd := 1 }, 2, 0x21), (.gEnd, 0x00, { ga := 1 }, 3, 0x21), (.gTask, 0x01, { gb := 1 }, 4, 0x21),
   (.gTask, 0x01, { mod := 1 }, 5, 0x21), (.gEnd, 0x00, { imm := 0x10000 }, 6, 0x21),
   (.gGcmp, 0x0E, { mod := 12 }, 5, 0x21), (.gSig, 0x06, { imm := 7 }, 6, 0x21), (.gRcv, 0x1A, { gd := 8 }, 2, 0x21)]

theorem test_wf_graph : (badGraphs.all fun (i, op, w, f, r) => !(i w).wf && (graphFaults op w).contains (f, r)) = true := by decide +kernel

/-- A command of a function that does not exist, packets in a channel that does not exist or of another type. -/
theorem test_wf_commands_packets :
    (commandCodes.all fun (_, f) => !(f 17).wf && (f 16).wf) = true ∧ (Instr.hHostDataPacket { part := 16, bits := 4 * 2 ^ 16 }).wf = false
      ∧ (Instr.hHostDataPacket { chan := 64, bits := 4 * 2 ^ 16 }).wf = false ∧ (Instr.hHostDataPacket { bits := 3 * 2 ^ 16 }).wf = false
      ∧ (Instr.hUnknownPacketType { bits := 4 * 2 ^ 16 }).wf = false ∧ (Instr.hHostDataPacket { bits := 4 * 2 ^ 16 }).wf = true := by decide +kernel

/-- A register access of an unknown function, of another size, misaligned, or past the BAR; a value wider than the access (R467). -/
theorem test_wf_register_access :
    (RegWr.ok { fn := 17 }) = false ∧ (RegWr.ok { size := 2 }) = false ∧ (RegWr.ok { off := 4 }) = false ∧ (RegWr.ok { off := 0x200000 }) = false
      ∧ (RegWr.ok { fn := 1, off := 0x10000 }) = false ∧ (RegWr.ok { size := 4, val := 0x100000000 }) = false ∧ (RegWr.ok { off := 0x1FFFF8 }) = true := by
  decide +kernel

/-- Events with an operand out of range: one for each operand of each event. -/
def badEvents : List Ev :=
  [.vfFlr 16, .invalidationAck 4 0 1, .invalidationAck 0 16 1, .invalidationAck 0 0 3, .migrationRound 4 0, .migrationRound 0 4, .migrationFinalRound 4 0,
   .migrationFinalRound 0 4, .intervalDecide (2 ^ 32), .kernelEnd (2 ^ 32) 0, .kernelEnd 0 16, .macroElement 160 0, .macroElement 0 8, .engineElement 160 0,
   .engineElement 0 8, .collContribution 160 0, .collContribution 0 8, .collTimeout 160 0, .collTimeout 0 8, .portFetch 160 0, .portFetch 0 8,
   .portWriteout 160 0, .portWriteout 0 8, .drainRecordWrite 160, .weightPortBeat 160, .reductionSend 160 0, .reductionSend 0 8, .steerArrival (2 ^ 32) 0,
   .steerArrival 0 2, .eventGrant 16 0, .eventGrant 0 256, .localBoundary (2 ^ 32), .groupBoundary 16 0, .groupBoundary 0 64, .trapFreeze (2 ^ 32),
   .faultDeadline (2 ^ 32), .taskSelect 4 0, .taskSelect 0 16, .taskAging (2 ^ 32), .deficitCharge (2 ^ 32), .priorityPreempt (2 ^ 32),
   .leaseResident (2 ^ 32), .imageCheck (2 ^ 32), .regionPlace (2 ^ 32), .configLoad (2 ^ 32), .taskEnd (2 ^ 32), .preemptRequest (2 ^ 32) 0,
   .preemptRequest 0 16, .cooperativeSave (2 ^ 32), .forcedSave (2 ^ 32), .sliceEndRestart (2 ^ 32), .taskRestore (2 ^ 32)]

/-- The same for the events of the memory, the domain and the device. -/
def badDeviceEvents : List Ev :=
  [.l2Fill 4 0, .l2Fill 0 10, .expanderDeliver 4 0, .expanderDeliver 0 10, .linkFail 64 [], .linkFail 0 [1024], .domainLinkTimeout 1024,
   .flitReceive 64 { body := .signal 0 0 0 }, .linkKeyUpdate 64, .ethernetDatagram 8 {}, .patrolScrub (.hbm 4 0), .patrolScrub (.hbm 0 (2 ^ 37)),
   .patrolScrub (.l2 4 0), .patrolScrub (.l2 0 (2 ^ 37)), .patrolScrub (.scratch 160 0 0), .patrolScrub (.scratch 0 8 0),
   .patrolScrub (.scratch 0 0 (2 ^ 19)), .patrolScrub (.version 4 0), .patrolScrub (.version 0 (2 ^ 37)), .clockChange 4 ⟨0, 0, 0, false⟩,
   .remoteWalkComplete 4 ⟨0, 0, 0⟩, .dataReturn (.page 160), .dataReturn (.graph 4 0), .dataReturn (.graph 0 64), .routeComesBack 1024,
   .softError (.l2 4 0) true, .debugPortRead (.l2 4 0), .pcieSectorEntry 17 0 []]

theorem test_wf_events : ((badEvents ++ badDeviceEvents).all fun e => !e.ok) = true := by decide +kernel

theorem test_wf_events_in_range :
    ([Ev.vfFlr 15, .pf0Flr, .coldReset, .fwHeartbeat, .fwSwitchDeadline, .invalidationAck 3 15 2, .kernelEnd 0 15, .macroElement 159 7, .steerArrival 0 1,
      .eventGrant 15 255, .groupBoundary 15 63, .preemptRequest 0 15, .l2Fill 3 9, .linkFail 63 [1023], .dataReturn (.graph 3 63)].all Ev.ok) = true := by
  decide +kernel
end Sys2Proof.Tests
end

