-- ==== Sys2Proof/Tests/Witness.lean ====
section
/-! SUPPORT. Witnesses: for the premises of every clause of a statement, a concrete state and operands that meet them together. Where a
statement's outcome names a next state, the witness shows it for the same values. At the end, single steps with results worked out by hand. -/
namespace Sys2Proof.Tests
set_option Elab.async false
open Machine Claims

/-! ## Scenes -/

/-- Partition 0 enabled on every die, both stages mapping lessee pages onto themselves: the stage-2 table at page 1, the stage-1 table of tenant 0 at page 2. -/
def scenePart : Part :=
  { dies := List.replicate 4 { part := 0x1000003FF, cxm := BitVec.allOnes 256, s2root := 0x10001, s1root := 0x20001 :: List.replicate 15 0 } }

/-- Task 1 of partition 0, running on page 0 with a lease of four pages and events 16 to 19. -/
def sceneTask : Task :=
  { tid := 1, part := 0, tenant := 0, state := .running, pages := [0], delta := [0], npages := 1, home := some 0
    inst := { die := 0, slot := 0, gen := 1 }, rcd := { lbase := 0xFFFF000000000000, lsize := 0x40000, evbase := 16, evcount := 4, bg := 0x83, pdl := 64 } }

/-- Page 0 belongs to task 1; pages 0 to 3 of die 0 are generic pages of partition 0. -/
def scene (pg : Page := {}) (t : Task := sceneTask) : State :=
  { cycle := 100
    pages := [(0, { pg with owner := some 1, running := true })]
    tasks := [(1, t)]
    parts := scenePart :: List.replicate 15 {}
    hbm := [(hbmKey 0 0x10000, 7), (hbmKey 0 0x20000, 7)]
    tum := { pot := [(0, { cls := 0, owner := 0 }), (1, { cls := 0, owner := 0 }), (2, { cls := 0, owner := 0 }), (3, { cls := 0, owner := 0 })] } }

/-- The scene with one core of page 0 and a live element word in focus. -/
def coreScene (k : Core := {}) (pg : Page := {}) : State :=
  { scene { pg with cores := k :: List.replicate 7 {} } with focus := { live := true } }

/-- The scene with an event in focus. -/
def during (e : Ev) (s : State) : State := { s with focus := { s.focus with ev := e } }

/-- A result that is no error. -/
def fine {ε α : Type} (x : Except ε α) : Bool :=
  match x with
  | .ok _ => true
  | .error _ => false

theorem fine_ok {ε α : Type} {x : Except ε α} (h : fine x = true) : ∃ a, x = .ok a := by
  cases x with
  | ok a => exact ⟨a, rfl⟩
  | error e => simp [fine] at h

theorem fine_error {ε α : Type} {x : Except ε α} (h : fine x = false) : ∃ e, x = .error e := by
  cases x with
  | ok a => simp [fine] at h
  | error e => exact ⟨e, rfl⟩

/-! ## Element words -/

/-- Operands that name a rotating register, a link and a token. -/
theorem witness_live_words :
    (coreScene {}).focus.live = true ∧ (resultWords.all fun x => (coreScene {}).unkeyed x.2.1 { ty := 6, d := 9, a := 8, b := 40, c := 44 }) = true := by
  decide +kernel

/-- A void word; and what a word leaves as it was, it leaves after a next state. -/
theorem witness_void_words : ({} : State).focus.live = false ∧ ∃ t, exec (.eAdd { d := 9 }) {} = .next t := ⟨rfl, _, rfl⟩

/-- LANEI with an invalid index outside blind, and with a valid one. -/
theorem witness_lanei :
    liveWord 0x2C { b := 9 } (coreScene {}) ∧ ((coreScene {}).srcs 0x2C { b := 9 }).b.ok 0 = false ∧ ((coreScene {}).srcs 0x2C { b := 57 }).b.ok 0 = true := by
  unfold liveWord; decide +kernel

/-- A core whose v0 addresses the last word of the scratchpad in every lane, v1 the last of the constant cache. -/
def edges : Core :=
  { v := { lanes := mkLanes fun _ => 0x7FFFC, valid := 0xFFFF } :: { lanes := mkLanes fun _ => 0x1FFC, valid := 0xFFFF } :: List.replicate 38 {} }

theorem witness_loads :
    (∀ i ∈ lanesOf { d := 8, b := 59 }, laneStands { d := 8, b := 59 } ((coreScene edges).srcs 0x60 { d := 8, b := 59 })
        (addrOk ((coreScene edges).srcs 0x60 { d := 8, b := 59 })) i = true ∧ laneAddr ((coreScene edges).srcs 0x60 { d := 8, b := 59 }) i = 0x7FFFC
        ∧ spotTrap (coreScene edges) 0x7FFFC = none)
    ∧ ∀ i ∈ lanesOf { d := 8, a := 1, b := 59 }, laneAddr ((coreScene edges).srcs 0x62 { d := 8, a := 1, b := 59 }) i = 0x1FFC := by
  unfold spotTrap addrOk laneAddr; decide +kernel

theorem witness_spot_free (h : 0x7FFFC < ((coreScene edges).fcore.spWindow (coreScene edges).focus).1 := by decide +kernel) : spotFree (coreScene edges) 0x7FFFC :=
  ⟨h, by decide, by decide +kernel⟩

/-- A core whose v0 holds x in lane 3 and 0 elsewhere, with bank 1 keyed. -/
def lane3 (x : W32) : Core := { v := { lanes := mkLanes fun i => if i = 3 then x else 0, valid := 0xFFFF } :: List.replicate 39 {}, ckb := 2 }

/-- The three traps of an address, each at lane 3 of an LD and an ST. -/
theorem witness_local_traps :
    ([((0x80000 : W32), 2, 3), (0x7FFFE, 2, 1), (0x10000, 3, 4)].all fun (x, cls, code) =>
      [0x60, 0x61].all fun op =>
        let s := coreScene (lane3 x)
        let w : EWord := { a := 0, b := 59, c := 59 }
        let r := s.srcs op w
        s.unkeyed op w && decide (3 ∈ lanesOf w) && decide (spotTrap s (laneAddr r 3) = some (cls, code))
          && (List.range 3).all fun j => decide (spotTrap s (laneAddr r j) = none)) = true := by decide +kernel

/-- An input port with an entry, and one without. -/
theorem witness_stream_words :
    let e : Entry := { data := 7, mask := 0xF }
    let s := coreScene {} { ports := { fifo := [e] } :: { out := true } :: List.replicate 6 {} }
    s.focus.live = true ∧ s.unkeyed 0x63 {} = true ∧ s.unkeyed 0x64 {} = true ∧ (s.port 0 0).fifo = [e] ∧ (s.port 0 1).fifo = [] := by decide +kernel

/-- Sixteen lanes that address sixteen cells of the lease, and sixteen words. -/
theorem witness_reduction_words :
    ([(0x67, 16), (0x68, 4)].all fun (op, n) =>
      let s := coreScene { v := { lanes := mkLanes fun i => BitVec.ofNat 32 (0x30000 + n * i), valid := 0xFFFF } :: List.replicate 39 {} }
      let w : EWord := { a := 0, b := 59 }
      let r := s.srcs op w
      s.unkeyed op w && decide (s.owner 0 = some sceneTask)
        && (List.range 16).all fun i => laneStands w r (addrOk r) i
          && decide (s.redCheck sceneTask 0 (sceneTask.rcd.lbase + (r.a.lane i).setWidth 64) n = none)) = true := by decide +kernel

/-- Weight words: both banks in use, and a fill that has delivered nothing, some and all of its registers. -/
theorem witness_weight_words :
    (coreScene { wsel := true }).focus.live = true ∧ (coreScene { wsel := true }).fcore.wsel = true ∧ (coreScene {}).fcore.wsel = false
      ∧ ([0, 1, 7, 8].map fun n => (coreScene { got := List.replicate n (0, 0) }).fcore.got.length) = [0, 1, 7, 8] := by decide +kernel

/-- SMAC on core 0 with lW as its activations, and with a vector. -/
theorem witness_smac :
    let s := coreScene {} { mode := true, feed := [{ data := 5, valid := true }] }
    (s.focus.core = 0 ∧ (s.feedPop 0).focus.live = true ∧ (s.feedPop 0).unkeyed 0x72 { a := 43, b := 40, ty := 2 } = true)
      ∧ liveWord 0x72 { a := 8, b := 40, ty := 2 } s := by unfold liveWord; decide +kernel

/-- SDRN on a general page, on a matrix page at cores 0 and 7 with its column valid and not; FEED of a region whose page 1 is a matrix page. -/
theorem witness_drain_feed :
    let s := coreScene {}
    let m := coreScene {} { mode := true }
    let t : Task := { sceneTask with pages := [0, 1], delta := [0, 1], npages := 2 }
    let f : State := { scene {} t with pages := [(0, { owner := some 1 }), (1, { owner := some 1, rp := 1, mode := true })], focus := { live := true } }
    (s.unkeyed 0x73 {} = true ∧ (s.page 0).mode = false)
      ∧ (m.unkeyed 0x73 {} = true ∧ (m.page 0).mode = true ∧ (m.src 0).ok 0 = true ∧ (m.src 9).ok 0 = false ∧ ({ m with focus := { m.focus with core := 7 } } : State).focus.core = 7)
      ∧ (f.unkeyed 0x74 {} = true ∧ f.owner 0 = some t ∧ f.matrixPage t 0 = some 1
          ∧ (f.srcs 0x74 { a := 59 }).a.ok 1 = true ∧ (f.srcs 0x74 { a := 9 }).a.ok 0 = false) := by decide +kernel

/-- STEER, TRAPIF with no lane and with lane 3 nonzero, WRCTL and RDCTL. -/
theorem witness_control_words :
    let s := coreScene (lane3 5)
    let w : EWord := { a := 0 }
    s.focus.live = true ∧ s.owner 0 = some sceneTask ∧ s.unkeyed 0x2D w = true ∧ s.unkeyed 0x2E w = true ∧ w.vm ≠ 2
      ∧ (∀ i < 16, (s.srcs 0x2E { a := 59 }).a.lane i = 0)
      ∧ ((s.srcs 0x2E w).a.ok 3 = true ∧ (s.srcs 0x2E w).a.lane 3 ≠ 0 ∧ ∀ j < 3, (s.srcs 0x2E w).a.lane j = 0)
      ∧ s.unkeyed 0x76 { a := 3, b := 48 } = true ∧ s.unkeyed 0x76 { a := 3, b := 8, c := 57, vm := 3 } = true := by decide +kernel

/-- A link operand that holds a keyed beat. -/
theorem witness_keyed_operand :
    let s := coreScene { lin := { key := true } :: List.replicate 7 {} }
    s.focus.live = true ∧ s.unkeyed 0x02 { a := 40, b := 8 } = false ∧ (s.fcore.lin.getD (s.fcore.side s.focus 0) {}).key = true
      ∧ (s.fcore.lin.getD (s.fcore.side s.focus 1) {}).key = false ∧ s.fcore.fold = false := by decide +kernel

/-- Landings: the last vector and scalar registers exist; a control write of a core that runs no macro and of one that does. -/
theorem witness_landings :
    39 < ({} : Core).v.length ∧ 7 < ({} : Core).s.length ∧ ({ mask := 0xFFFF } : Result).mask.getLsbD 0 = true ∧ ({} : Core).busy = false
      ∧ ({ mprog := 0x10000000000 } : Core).busy = true := by decide +kernel

/-! ## Sequencer words -/

/-- Addresses in the lease of task 1: page 3 of its lessee, a record there, a place past the lease. -/
abbrev vaData : W64 := 0xFFFF000000030000

/-- The scene with a sequencer word at pc 0, x1 at page 3 of the lease, x2 at its second half, x3 the size of a page. -/
def seqScene (word : W64 := 0) (pg : Page := {}) (t : Task := sceneTask) : State :=
  scene { pg with seqMem := [word], nwords := 1, x := [0, vaData, vaData + 0x8000, 0x10000] ++ List.replicate 28 0 } t

/-- Bytes of HBM of die 0 written into a scene. -/
def withBytes (s : State) (pa : Nat) (bs : List Byte) : State := { s with hbm := cellsWrite s.hbm (hbmKey 0 pa) bs }

/-- A pattern record (R349): base, element size, end after one pass, direction, class, elements of the innermost loop and their stride. -/
def patOf (base : W64) (esz : Nat) (em out : Bool) (count stride : Nat) : BitVec 512 :=
  BitVec.ofNat 512 (base.toNat + esz * 2 ^ 64 + em.toNat * 2 ^ 96 + out.toNat * 2 ^ 98 + count * 2 ^ 128 + stride * 2 ^ 160 + 2 ^ 224 + 2 ^ 320 + 2 ^ 416)

/-- A sequencer word is ready; XMUL in its first cycle, before its last and in it. -/
theorem witness_scalar_words :
    seqScene.fpage.phase = .ready ∧ (seqScene 0 { phase := .until 100 }).fpage.phase = .until 100 ∧ 100 ≤ seqScene.cycle
      ∧ seqScene.cycle < 101 := by decide +kernel

theorem witness_x_registers : (31 : BitVec 5) ≠ 0 ∧ ({} : Page).x.length = 32 := by decide +kernel

/-- The repeat stack: empty, the pc inside the body, at its last word with two repetitions left and with one. -/
theorem witness_repeats :
    ({} : Page).rep = [] ∧ (RepE.mk 1 3 2).last ≠ ({ pc := 2 } : Page).pc.toNat
      ∧ ((RepE.mk 1 3 2).last = ({ pc := 3 } : Page).pc.toNat ∧ 1 < (RepE.mk 1 3 2).left) ∧ (RepE.mk 1 3 1).left ≤ 1 := by decide +kernel

/-- Twenty-four versions of one sector fill its set: a write of another task finds no room. -/
def crowded (s : State) (sector : Nat) : State :=
  { s with vsects := (List.range 24).map fun i => { tid := 100 + i, snap := false, die := 0, sector := sector, part := 0, spilled := false } }

/-- XLD and XST of eight bytes at an aligned place of the lease, and at a misaligned one; a store that finds a version sector, and one that finds none. -/
theorem witness_loads_stores :
    let s := seqScene
    let t := sceneTask
    let sectors := fun (s : State) => match writeCheck s t vaData 8 with
      | .ok ps => some (s.takeSectors t (ps.flatMap fun x => sectorsOf t (seqOwns s x.1) [x])).isSome
      | .error _ => none
    s.owner s.focus.page = some t ∧ s.fpage.phase = .ready ∧ s.fpage.xr 1 + operB { xa := 1, mod := 7 } s = vaData ∧ widthOf { xa := 1, mod := 7 } = 8
      ∧ fine (readCheck s t vaData 8) = true ∧ fine (readCheck s t (vaData + 4) 8) = false ∧ fine (writeCheck s t (vaData + 4) 8) = false
      ∧ sectors s = some true ∧ sectors (crowded s 0x600) = some false := by decide +kernel

/-- Words whose data or place returns: a load, a store, a window, a fill of a constant cache; before their time, at it, and on a page that a trap has frozen. -/
theorem witness_page_returns :
    let s := fun (ph : Phase) (frozen : Bool) (t : Task) => during (.dataReturn (.page 0)) (scene { phase := ph, frozen := frozen } t)
    let trapped : Task := { sceneTask with trap := some ⟨{ cls := 1, code := 1 }, 1, 0, 0, 0, 0, 0, 0⟩ }
    let acts : List SeqLand := [.write [(.hbm 0 0x30000, 8)] (leBytes 8 5), .install 0 true 0, .fill 0 [(0, [1])]]
    (acts.all fun a => decide (((s (.land 100 a) false sceneTask).page 0).phase = .land 100 a ∧ (s (.land 100 a) false sceneTask).owner 0 = some sceneTask
        ∧ ((s (.land 100 a) false sceneTask).page 0).frozen = false)) = true
      ∧ ((s (.mem 101 none) false sceneTask).page 0).phase = .mem 101 none ∧ (s (.mem 101 none) false sceneTask).cycle < 101
      ∧ ((s (.mem 100 none) true trapped).page 0).frozen = true ∧ (s (.mem 100 none) true trapped).owner 0 = some trapped
      ∧ (s (.mem 100 none) true trapped).trapped trapped = true := by decide +kernel

/-- Where an XST lands: in core 0's scratchpad of its own page, and in translated memory. -/
theorem witness_xst_lands :
    let s := seqScene 0 { cores := List.replicate 8 {} }
    sceneTask.holds (s.page 0).vrp = some 0 ∧ (s.core 0 0).fresh = [] ∧ 0 < (s.page 0).cores.length ∧ Memory.wf (s.core 0 0).sp = true
      ∧ s.task sceneTask.tid = some sceneTask ∧ ∀ x ∈ sceneTask.ver, x.ord ≤ s.ordNow 3 := by decide +kernel

/-- REP with a count and with count 0; a page without fold; HALT on an idle page and beside a running macro, and where another page stands elsewhere;
NOPQ 1 and NOPQ 2, waiting and done. -/
theorem witness_control_sequencer :
    let s := seqScene
    let b := seqScene 0 { cores := { mprog := 0x10000000000 } :: List.replicate 7 {} }
    let t2 : Task := { sceneTask with pages := [0, 1], delta := [0, 1], npages := 2 }
    let m : State := { seqScene 0 {} t2 with pages := [(0, { owner := some 1, running := true }),
      (1, { owner := some 1, rp := 1, running := true, phase := .join })] }
    s.owner s.focus.page = some sceneTask ∧ s.fpage.phase = .ready ∧ fld (0x803 : W32) 31 10 ≠ 0 ∧ (fld (3 : W32) 31 10 = 0 ∧ s.fpage.pc.toNat + 3 < 2048)
      ∧ s.fpage.idle = true ∧ (s.reach sceneTask 4).isNone = true ∧ b.fpage.idle = false ∧ fld (1 : W32) 15 0 ≤ 1 ∧ 1 < fld (2 : W32) 15 0
      ∧ (seqScene 0 { phase := .until 100 }).fpage.phase = .until 100 ∧ (s.fpage.core 0).fold = false
      ∧ (m.owner 0 = some t2 ∧ m.fpage.idle = true ∧ (m.reach t2 4).isSome = true) := by decide +kernel

/-- Meetings of a lone page that reaches KRUN, SSEND of its group 3 and of another, LSYNC; events inside and outside the grant 16 to 19. -/
theorem witness_meetings :
    let s := seqScene
    let t := sceneTask
    (s.reach t 1).isNone = true ∧ (s.reach t 2).isNone = true ∧ (s.reach t 3).isNone = true ∧ s.fpage.idle = true
      ∧ (t.rcd.bg.getLsbD 7 = true ∧ fld t.rcd.bg 5 0 = fld (3 : W32) 5 0) ∧ fld t.rcd.bg 5 0 ≠ fld (4 : W32) 5 0
      ∧ (t.rcd.evbase ≤ fld (19 : W32) 7 0 ∧ fld (19 : W32) 7 0 < t.rcd.evbase + t.rcd.evcount)
      ∧ t.rcd.grants 19 = true ∧ t.rcd.grants 20 = false ∧ t.rcd.grants 15 = false
      ∧ fld (0x10010 : W32) 31 16 ≠ 0 ∧ fld (0x10 : W32) 31 16 = 0 := by decide +kernel

/-- A WAITE that has been granted, a KRUN that stands at its kernel, a page beside a macro, and meetings that do not meet: page 1 stands at KRUN while page 0 reaches
LSYNC or SSEND, and at LSYNC while page 0 reaches KRUN. -/
theorem witness_meetings_missed :
    let t : Task := { sceneTask with pages := [0, 1], delta := [0, 1], npages := 2 }
    let m := fun (pg : Page) => ({ seqScene 0 {} t with pages := [(0, { owner := some 1, running := true }), (1, { pg with owner := some 1, rp := 1, running := true })] } : State)
    let krun := m { phase := .join }
    let lsync := m { seqMem := [0x3100000000000000], nwords := 1, phase := .arrived }
    (seqScene 0 { phase := .granted }).fpage.phase = .granted ∧ (seqScene 0 { phase := .kern }).fpage.phase = .kern
      ∧ (seqScene 0 { cores := { mprog := 0x10000000000 } :: List.replicate 7 {} }).fpage.idle = false
      ∧ (krun.owner 0 = some t ∧ (krun.reach t 3).isSome = true ∧ (krun.reach t 2).isSome = true ∧ krun.fpage.idle = true)
      ∧ (lsync.owner 0 = some t ∧ (lsync.reach t 1).isSome = true) := by decide +kernel

/-- MSHP of a legal and of an illegal shape; SPSET of an input port and of an output port with an entry; WIN of a well-formed record that the port is not
running, of one that it runs, and of a malformed record. -/
theorem witness_setup :
    let t := sceneTask
    let good := withBytes (seqScene) 0x30000 (leBytes 64 (patOf vaData 4 true false 16 4).toNat)
    let run := withBytes (seqScene 0 { ports := { en := true, cur := some false } :: { out := true, fifo := [{}] } :: List.replicate 6 {} }) 0x30000
      (leBytes 64 (patOf vaData 4 true false 16 4).toNat)
    let rd := fun (s : State) => s.elemAccess t (s.who t 0) .read false (s.fpage.xr 1 + (0 : W32).signExtend 64) 64 64 none (some { cls := 3, code := 5 })
    let bad := fun (s : State) => match rd s with
      | .ok ps => some (patBad (recOf (seqRead s t (s.fpage.xr 1) ps).2.2) false)
      | .error _ => none
    good.fpage.idle = true ∧ shapeBad 0x0FFF = false ∧ shapeBad 0xFFFFFFFF = true
      ∧ ((good.fpage.port 0).out = false ∧ (run.fpage.port 1).out = true ∧ (run.fpage.port 1).fifo ≠ [])
      ∧ (bad good = some false ∧ (good.fpage.port 0).en = false)
      ∧ (bad run = some false ∧ (run.fpage.port 0).en = true ∧ (run.fpage.port 0).cur = some false ∧ (run.fpage.port 0).ended = false)
      ∧ bad (seqScene) = some true := by decide +kernel

/-- A repeat entry whose fields fit their places in its register. -/
theorem witness_special_registers :
    let pg : Page := { rep := [⟨1, 3, 2⟩] }
    pg.rep.length < 8 ∧ pg.rep.reverse[0]? = some ⟨1, 3, 2⟩ ∧ (1 : Nat) < 1024 ∧ (2 : Nat) < 2 ^ 32 := by decide +kernel

/-- The words of all tile macros stand at the pc: TFILL of f32 into m0 on core 0 (imm 0x11) starts; one whose core runs a macro holds; one whose mprog has
an element of another macro traps. -/
theorem witness_macros :
    let w : SWord := { imm := 0x11 }
    let word : W64 := 0x4D00000000000011
    let s := seqScene word
    let busy := seqScene word { cores := { mprog := 0x10000000000 } :: List.replicate 7 {} }
    let left := seqScene word { cores := { mprog := 5 } :: List.replicate 7 {} }
    standsAt (.sTfill w) s ∧ s.owner s.focus.page = some sceneTask ∧ ((List.range 8).filter fun c => w.imm.getLsbD (4 + c)) = [0]
      ∧ ((s.core 0 0).busy = false ∧ (s.macroRefuse sceneTask 0 0 (macroRecOf s w)) = none)
      ∧ (busy.core 0 0).busy = true
      ∧ ((left.core 0 0).busy = false ∧ left.macroRefuse sceneTask 0 0 (macroRecOf left w) = some (1, 4)) := by
  unfold standsAt; decide +kernel

/-- ECOPY whose records are read and well formed, whose records are malformed, and whose slot is busy. -/
theorem witness_engines :
    let word : W64 := 0x7000440000000000
    let w := seqFields word
    let t := sceneTask
    let src := leBytes 64 (patOf vaData 4 true false 16 4).toNat
    let dst := leBytes 64 (patOf (vaData + 0x1000) 4 true true 16 4).toNat
    let s := withBytes (withBytes (seqScene word) 0x30000 src) 0x38000 dst
    let busy := seqScene word { slots := { busy := true } :: List.replicate 7 {} }
    let refuse := fun (s : State) => match s.engRecs t (engRegs 0x70 w) with
      | .ok (rs, _, s1) => some (s1.engRefuse t 0x70 w (s.fpage.eslot 0) rs)
      | .error _ => none
    standsAt (.sEcopy w) s ∧ w.xa = 1 ∧ w.xb = 2 ∧ (busy.fpage.eslot 0).busy = true ∧ (s.fpage.eslot 0).busy = false
      ∧ refuse s = some none ∧ refuse (seqScene word) = some (some (1, 13)) := by
  unfold standsAt; decide +kernel

/-- EWAIT for a busy slot 7, and for slots that are not busy. -/
theorem witness_engine_waits :
    let s := seqScene 0 { slots := List.replicate 7 {} ++ [{ busy := true }] }
    s.fpage.phase = .ready ∧ (∃ n < 8, (0x80 : W32).getLsbD n = true ∧ (s.fpage.eslot n).busy = true)
      ∧ ∀ n < 8, (0x7F : W32).getLsbD n = true → (s.fpage.eslot n).busy = false := by decide +kernel

/-! ## Memory class -/

/-- An atomic of eight bytes at an aligned and at a misaligned place. -/
theorem witness_atomics :
    let s := seqScene
    s.owner s.focus.page = some sceneTask ∧ s.fpage.phase = .ready ∧ sceneTask.dual = none
      ∧ (match s.atomicAccess sceneTask (s.who sceneTask 0) (s.fpage.xr 1 + (8 : W32).signExtend 64) 8 with
        | .ok (_ :: _) => true
        | _ => false) = true
      ∧ fine (s.atomicAccess sceneTask (s.who sceneTask 0) (s.fpage.xr 1 + (4 : W32).signExtend 64) 8) = false := by decide +kernel

/-- CELLINIT of two cells in the lease, and of two of which the second lies past it; XCELL of a cell. -/
theorem witness_cells :
    let s := seqScene
    let t := sceneTask
    let acc := fun (a : W64) (i : Nat) => s.elemAccess t (s.who t 0) .write true (a + BitVec.ofNat 64 (16 * i)) 16 16 none (some { cls := 3, code := 4 })
    (∀ i < 2, fine (acc vaData i) = true) ∧ (s.takeSectors t ((cellPlaces s t vaData 2).flatMap fun x => sectorsOf t (seqOwns s x.1) [x])).isSome = true
      ∧ ((crowded s 0x600).takeSectors t ((cellPlaces (crowded s 0x600) t vaData 2).flatMap fun x => sectorsOf t (seqOwns s x.1) [x])).isNone = true
      ∧ (fine (acc (vaData + 0xFFF0) 1) = false ∧ ∀ j < 1, fine (acc (vaData + 0xFFF0) j) = true)
      ∧ fine (s.elemAccess t (s.who t 0) .read false vaData 16 16 none (some { cls := 3, code := 5 })) = true := by decide +kernel

/-- CFILL of one core, of all, and of a place past the lease; SEAL of a page, of a page that is sealed, UNSEAL of it. -/
theorem witness_fills_seals :
    let s := seqScene
    let t := sceneTask
    let held : State := s.modPart 0 fun p => { p with seals := [(s.resolve 0 vaData, 0x10000)] }
    ((0 : W32).getLsbD 17 = false ∧ (s.core 0 0).busy = false ∧ fine (s.cfillRead t 0 0 (s.fpage.xr 1) 0 1) = true)
      ∧ fine (s.cfillRead t 0 0 (vaData + 0x10000) 0 1) = false
      ∧ ((0x20000 : W32).getLsbD 17 = true ∧ (∀ c < 8, (s.core 0 c).busy = false) ∧ (fillAll s t { xa := 1, imm := 0x20000 } (List.range 8)).isSome = true)
      ∧ ((s.sealCheck t (s.who t 0) (s.fpage.xr 1) (s.fpage.xr 3) true).isNone = true ∧ (s.sealCase 0 (s.resolve 0 vaData) 0x10000 true).isNone = true
          ∧ (s.part 0).seals.contains (s.resolve 0 vaData, 0x10000) = false)
      ∧ ((held.sealCheck t (s.who t 0) (s.fpage.xr 1) (s.fpage.xr 3) true).isNone = true ∧ (held.sealCase 0 (s.resolve 0 vaData) 0x10000 true).isNone = true
          ∧ (held.part 0).seals.contains (s.resolve 0 vaData, 0x10000) = true ∧ held.sealRequests 0 = [])
      ∧ ((held.sealCheck t (s.who t 0) (s.fpage.xr 1) (s.fpage.xr 3) false).isNone = true
          ∧ (held.sealCase 0 (s.resolve 0 vaData) 0x10000 false).isNone = true) := by decide +kernel

/-- RETAIN with register 0 free, with none free, and with ways that run out; UNPIN of a register past 7, of one not claimed, of a claimed one before and
after its hold; FENCE with nothing to wait for and with a reduction queued. -/
theorem witness_retention :
    let s := seqScene
    let t := sceneTask
    let full := s.modDie 0 fun x => { x with slices := x.slices.map fun sl => { sl with retain := List.replicate 8 (BitVec.ofNat 192 (2 ^ 64 + 2 ^ 128)) } }
    let wide := s.modDie 0 fun x => { x with slices := x.slices.map fun sl => { sl with retain := 0 :: List.replicate 7 (BitVec.ofNat 192 (2 ^ 64 + 2 ^ 129)) } }
    let free := fun (s : State) => (List.range 8).find? fun i => (s.die 0).slices.all fun sl => !retOn (sl.retain.getD i 0) && !retEf (sl.retain.getD i 0)
    (vaData.toNat % 512 = 0 ∧ spaceOf vaData = .translated ∧ s.inLease (s.who t 0).home t.rcd.lbase t.rcd.lsize vaData 0x10000 = true
        ∧ fine (s.interval (s.who t 0) vaData 0x10000) = true)
      ∧ free s = some 0 ∧ free full = none ∧ free wide = some 0
      ∧ ((wide.die 0).slices.any fun sl => decide (12 < sl.total 0 + 12)) = true ∧ (∀ sl ∈ (s.die 0).slices, sl.total 0 ≤ 12)
      ∧ ((∀ c ∈ t.claims, c.2 ≠ 3) ∧ ({ t with claims := [(0, 3)] } : Task).claims.reverse.find? (fun c => decide (c.2 = 3)) = some (0, 3))
      ∧ (s.fpage.idle && s.fpage.cores.all fun k => k.redq.isEmpty) = true
      ∧ ((seqScene 0 { cores := [{ redq := [⟨0, .hbm 0 0, false, 0, []⟩] }] }).fpage.cores.all fun k => k.redq.isEmpty) = false := by decide +kernel

/-- A change of page 3 that waits for a snapshot: a running task is in a superstep, its lease covers the sector, and the set of the sector is full; one that does not. -/
theorem witness_held_changes :
    let t := sceneTask
    let s := crowded (seqScene 0 {} t) 0x600
    (s.changeHeld 0 (.hbm 0 0x30000) (leBytes 8 5)).isSome = true ∧ ((seqScene).changeHeld 0 (.hbm 0 0x30000) (leBytes 8 5)).isNone = true
      ∧ (s.commitHeld 0 [{ t with ver := [⟨.hbm 0 0x30000, 0, 0, 1⟩], tid := 2 }] [2]).isSome = true
      ∧ ((seqScene).commitHeld 0 [sceneTask] [1]).isNone = true
      ∧ (s.ctxHeld (packetWho 0 0 0) vaData (leBytes 8 5)).isSome = true := by decide +kernel

/-- CFILL beside a macro; seals that overlap another range, and an UNSEAL of no range. -/
theorem witness_fill_holds :
    let b := seqScene 0 { cores := { mprog := 0x10000000000 } :: List.replicate 7 {} }
    let held : State := seqScene.modPart 0 fun p => { p with seals := [(vaData, 0x10000)] }
    (b.core 0 0).busy = true
      ∧ (held.sealCheck sceneTask (held.who sceneTask 0) (vaData - 0x10000) 0x20000 true).isNone = true
      ∧ (held.sealCase 0 (vaData - 0x10000) 0x20000 true).isSome = true ∧ (seqScene.sealCase 0 vaData 0x10000 false).isSome = true
      ∧ (seqScene.sealCheck sceneTask (seqScene.who sceneTask 0) vaData 0x10000 false).isNone = true := by decide +kernel

/-! ## Reductions on their way, boundaries, kernels -/

/-- A reduction of a word of page 3 goes home, with room and without. -/
theorem witness_reduction_send :
    let e : RedEntry := { va := vaData, loc := .hbm 0 0x30000, cell := false, ty := 0, addends := [1] }
    let s := during (.reductionSend 0 0) (scene { cores := { redq := [e] } :: List.replicate 7 {} })
    let t := sceneTask
    s.owner 0 = some t ∧ (s.core 0 0).redq = [e] ∧ (s.takeSectors t (sectorsOf t ownNone [(e.loc, 4, none)])).isSome = true
      ∧ ((crowded s 0x600).takeSectors t (sectorsOf t ownNone [(e.loc, 4, none)])).isNone = true ∧ t.trapping = false := by decide +kernel

/-- Two writers of one place and one of another. -/
theorem witness_writers :
    let l : Loc := .hbm 0 0
    let cs : List VCell := [⟨l, 1, 0, 5⟩, ⟨l, 2, 0, 6⟩, ⟨.hbm 0 1, 1, 0, 7⟩]
    (∀ c ∈ cs, ∀ d ∈ cs, c.loc = d.loc → c.w = d.w → c = d) ∧ (∃ x ∈ winners cs, x.loc = l ∧ x.clash = true)
      ∧ ∃ x ∈ winners cs, x.loc = .hbm 0 1 ∧ x.clash = false := by decide +kernel

/-- A local boundary that is due at a page that has arrived at LSYNC, and one that is not due. -/
theorem witness_local_boundary :
    let t : Task := { sceneTask with localDue := some 100 }
    let s := during (.localBoundary 1) (scene { seqMem := [0x3100000000000000], nwords := 1, phase := .arrived } t)
    s.task 1 = some t ∧ t.localDue = some 100 ∧ ¬ (s.cycle < 100 ∨ ∃ p ∈ t.pages, (s.page p).atSync ≠ 2 ∨ (s.page p).frozen = true) ∧ s.cycle < 101 := by
  decide +kernel

/-- A group whose one member has arrived at SSEND, a group without a live member, and a dual-run pair of which one copy alone has written. -/
theorem witness_group_boundary :
    let t : Task := { sceneTask with mset := some 1 }
    let pg : Page := { seqMem := [0x3000000000000003], nwords := 1, phase := .arrived }
    let b : Bound := { part := 0, bg := 3, mset := 1, due := 100 }
    let s := { during (.groupBoundary 0 3) (scene pg t) with bounds := [b] }
    let a : Task := { t with dual := some 2, ver := [⟨.hbm 0 0x30000, 0, 0, 1⟩] }
    let u : Task := { t with tid := 2, dual := some 1, copyB := true, pages := [1] }
    let d : State := { s with tasks := [(1, a), (2, u)], pages := s.pages ++ [(1, { pg with owner := some 2, running := true })] }
    (s.boundReady (s.members 0 3 1) = true ∧ (s.mismatchIn (s.members 0 3 1)).isNone = true)
      ∧ (scene).boundReady ((scene).members 0 3 1) = false
      ∧ (d.boundReady (d.members 0 3 1) = true ∧ d.mismatchIn (d.members 0 3 1) = some (a, u)) := by decide +kernel

/-- A kernel in its deciding cycle, which nothing stops; a kernel before it, and one whose intervals are all decided. -/
theorem witness_intervals :
    let k : Kern := { t0 := 90, trip := 3, next := 100 }
    let t : Task := { sceneTask with kern := some k }
    let s := during (.intervalDecide 1) (scene {} t)
    let lead := 0
    let needs := s.regionNeeds t (s.page lead).latch
    s.task 1 = some t ∧ t.kern = some k ∧ t.pages = [lead] ∧ k.next = s.cycle ∧ k.ends = [] ∧ k.drain = none ∧ (s.stopCause t k needs).1 = 0
      ∧ ((s.page lead).stages ≠ 1 ∨ (if needs.all fun x => (s.offers t x.1 x.2).1 then k.entered + 1 else k.entered) < k.trip)
      ∧ (({ k with next := 101 } : Kern).next ≠ s.cycle) ∧ ({ k with ends := [105] } : Kern).ends ≠ [] := by decide +kernel

/-- A lead at KRUN (trip count 2, and 0), one whose words use a port that is off, and one that has not reached it. -/
theorem witness_kernel_starts :
    let at_ := fun (word : W64) (ks : List Core) => scene { seqMem := [word], nwords := 1, phase := .kern, cores := ks ++ List.replicate (8 - ks.length) {} }
    let s := at_ 0x2100000100000002 []
    let z := at_ 0x2100000100000000 []
    let off := at_ 0x2100000100000002 [{ ctab := [0xC600000000] }]
    let count := fun (s : State) => let w := seqFields (s.page 0).word
      if w.mod.getLsbD 0 then w.imm.setWidth 64 else ((s.page 0).xr w.xa).setWidth 32 |>.setWidth 64
    s.task 1 = some sceneTask ∧ sceneTask.kern = none ∧ ((s.page 0).atSync = 1 ∧ (s.page 0).idle = true ∧ (s.page 0).portOff = false ∧ count s = 2)
      ∧ ((z.page 0).atSync = 1 ∧ (z.page 0).idle = true ∧ (z.page 0).portOff = false ∧ count z = 0)
      ∧ ((off.page 0).atSync = 1 ∧ (off.page 0).idle = true ∧ (off.page 0).portOff = true) ∧ ((scene).page 0).atSync ≠ 1 := by decide +kernel

/-- A kernel that runs, one that preq has cut, whose iterations count, and one that has reached its count so. -/
theorem witness_kernel_bases :
    let k : Kern := { t0 := 90, trip := 5, entered := 2, cause := 3, ends := [0] }
    let t : Task := { sceneTask with kern := some k }
    ({ t with kern := some { t0 := 90, trip := 5 } } : Task).kernelRuns = true ∧ t.kernelRuns = false
      ∧ (t.kern.map fun k => k.base + k.entered).getD 0 = 2 ∧ (2 : W64) < 3 ∧ (2 : W64) ≤ 2 := by decide +kernel

/-- A page that completes its kernel in this cycle, by its count and by a yield. -/
theorem witness_kernel_ends :
    ([1, 3].all fun c =>
      let k : Kern := { t0 := 90, trip := 3, entered := 3, ends := [100], cause := c }
      let t : Task := { sceneTask with kern := some k }
      let s := during (.kernelEnd 1 0) (scene { seqMem := [0x2100000100000003], nwords := 1, phase := .kern } t)
      decide (s.task 1 = some t ∧ t.kern = some k ∧ t.phys 0 = some 0 ∧ k.ends.getD 0 0 ≠ 0 ∧ k.ends.getD 0 0 ≤ s.cycle ∧ k.cause = c)) = true := by
  decide +kernel

/-- A STEER on its way to its lead; drain records with a column and without; a beat for a core that fills its bank and for one that has filled it. -/
theorem witness_matrix_events :
    let s := scene
    let d : Drain := { tag := 1, mask := 0xF, ready := some 99 }
    let e : Entry := { data := 7, at_ := 99 }
    let m := fun (x : Drain) => during (.drainRecordWrite 0) (scene { mode := true, drains := [x] })
    let w := fun (r : Bool) => during (.weightPortBeat 0) (scene { mode := true, ports := [{}, { fifo := [e] }] ++ List.replicate 6 {}, cores := { ready := r } :: List.replicate 7 {} })
    (s.task 1 = some sceneTask ∧ sceneTask.pages = [0])
      ∧ ([d, { d with mask := 0 }].all fun x => decide ((((m x).page 0).drains.find? fun d => d.ready.any fun c => decide (c < 100)) = some x)) = true
      ∧ ([true, false].all fun r => decide ((((w r).page 0).port 1).fifo = [e] ∧ e.at_ < (w r).cycle ∧ ((w r).page 0).frozen = false ∧ e.mark = none
          ∧ (((w r).page 0).core (((w r).page 0).wfill / 8)).ready = r)) = true
      ∧ ({ e with mark := some 16 } : Entry).mark = some 16 ∧ (w true).owner 0 = some sceneTask := by decide +kernel

/-! ## Ports -/

/-- An input port of page 0 with a window of sixteen words at an address, running or not yet taken up, enabled or not. -/
def portScene (en out : Bool) (cur : Option Bool) (base : W64) (fifo : List Entry := []) : State :=
  let x : Port := { en := en, out := out, win0 := { pat := patOf base 4 true out 16 4, fresh := cur.isNone }, cur := cur, fifo := fifo }
  scene { ports := x :: List.replicate 7 {} }

/-- PORT_FETCH of a disabled port, of one at no window, of an entry in the lease and of one past it. -/
theorem witness_port_fetch :
    let ask := fun (s : State) => fetchRuns sceneTask (s.who sceneTask 0) false 0 0 (0, 0) s (patRuns (s.port 0 0).pat (s.port 0 0).pos 64 0)
    (portScene false false none vaData).portFetches 0 0 = false
      ∧ ((portScene true false none vaData).portFetches 0 0 = true ∧ ((portScene true false none vaData).port 0 0).cur = none)
      ∧ ((portScene true false (some false) vaData).portFetches 0 0 = true ∧ (portScene true false (some false) vaData).owner 0 = some sceneTask
          ∧ fine (ask (portScene true false (some false) vaData)) = true)
      ∧ fine (ask (portScene true false (some false) (vaData + 0x10000))) = false := by decide +kernel

/-- An output entry pushed before this cycle and one pushed in it; a window in the lease and one of which an element lies past it. -/
theorem witness_port_writeout :
    let t := sceneTask
    let entry := fun (base : W64) => ({ data := 7, mask := BitVec.allOnes 64, pat := patOf base 4 true true 16 4, at_ := 99 } : Entry)
    let e := entry vaData
    let s := portScene true true (some false) vaData [e]
    let access := fun (x : Nat × W64 × Nat) => s.elemAccess t (s.who t 0) .write true x.2.1 x.2.2 1 (some 0) (some { cls := 3, code := 6 }) true
    let places := fun (x : Nat × W64 × Nat) => match s.taskPlaces t (s.who t 0) .write true x.2.1 x.2.2 with
      | .ok ps => ps
      | .error _ => []
    let past := patRuns (entry (vaData + 0xFFFC)).pat 0 64 0
    let need := (patRuns e.pat e.idx 64 0).flatMap fun x => sectorsOf t ((s.port 0 0).ident 0 0) (places x)
    (s.port 0 0).fifo = [e] ∧ e.at_ < s.cycle ∧ s.cycle ≤ ({ e with at_ := 100 } : Entry).at_ ∧ (patRuns e.pat e.idx 64 0).length = 16
      ∧ ((patRuns e.pat e.idx 64 0).all fun x => fine (access x)) = true
      ∧ (s.takeSectors t need).isSome = true ∧ ((crowded s 0x600).takeSectors t need).isNone = true
      ∧ ((past.take 1).all fun x => fine (access x)) = true ∧ ((past.drop 1).head?.map fun x => fine (access x)) = some false := by decide +kernel

/-! ## Macros, engines, fills -/

/-- A copy of a macro word on core 0, due at a cycle, whose element 0 is next of two. -/
def macroScene (op due : Nat) (xa : W64) (waited : Bool) : State :=
  let r : MacroRun := { m := { word := BitVec.ofNat 64 (op * 2 ^ 56 + 0x11), xa := xa, xb := 64 }, count := 2, due := due, waited := waited }
  during (.macroElement 0 0) (scene { cores := { mprog := 0x10000000000, mrun := some r } :: List.replicate 7 {} })

/-- The copy of a scene. -/
def copyOf (s : State) : MacroRun := (s.core 0 0).mrun.getD {}

/-- A TFILL that is not due and one that is; a TLD whose row is ready, and one whose row lies past the lease. -/
theorem witness_macro_elements :
    ((macroScene 0x4D 101 0 false).owner 0 = some sceneTask ∧ (macroScene 0x4D 101 0 false).cycle < (copyOf (macroScene 0x4D 101 0 false)).due)
      ∧ ((copyOf (macroScene 0x4D 100 0 false)).due ≤ 100 ∧ ((macroScene 0x4D 100 0 false).page 0).frozen = false ∧ macroMem 0x4D = false)
      ∧ (macroMem 0x40 = true ∧ (copyOf (macroScene 0x40 100 vaData true)).waited = true
          ∧ fine ((macroScene 0x40 100 vaData true).macroElem sceneTask 0 0 (copyOf (macroScene 0x40 100 vaData true)) 0) = true)
      ∧ (match (macroScene 0x40 100 (vaData + 0x10000) true).macroElem sceneTask 0 0 (copyOf (macroScene 0x40 100 (vaData + 0x10000) true)) 0 with
        | .error d => decide (d ≠ dVersion)
        | .ok _ => false) = true := by decide +kernel

/-- The macro words whose elements stay in tile registers. -/
theorem witness_tile_elements :
    ([0x44, 0x45, 0x48, 0x49, 0x4C, 0x4D, 0x4E].all fun op =>
      decide (({ m := { word := BitVec.ofNat 64 (op * 2 ^ 56) } } : MacroRun).m.word.toNat / 2 ^ 56 = op)) = true := by decide +kernel

/-- The last row of m7 with its default shape, 64 rows of 16 words, written whole. -/
theorem witness_tile_rows :
    let k : Core := {}
    7 < k.m.length ∧ shapeBad (k.shape 7) = false ∧ 63 < shapeRows (k.shape 7) ∧ (List.replicate 16 (2 ^ 32 - 1)).length = shapeCols (k.shape 7)
      ∧ (∀ c ∈ List.replicate 16 (2 ^ 32 - 1), c < 2 ^ shapeEw (k.shape 7)) ∧ (62 < shapeRows (k.shape 7) ∧ (62 : Nat) ≠ 63) := by decide +kernel

/-- A command of an opcode in slot 0 of page 0, busy and due, whose records name page 3 of the lease, the destination last. -/
def engineScene (op due : Nat) (base : W64 := vaData) (t : Task := sceneTask) : State :=
  let src := patOf vaData 4 true false 16 4
  let dst := patOf base 4 true true 16 4
  let e : Slot := { op := BitVec.ofNat 8 op, word := BitVec.ofNat 64 (op * 2 ^ 56 + 2 ^ 35), busy := true, total := 16, due := due, fill := 0x55
                    recs := if op = 0x71 ∨ op = 0x72 then [src, src, dst] else if op = 0x73 then [dst] else [src, dst] }
  during (.engineElement 0 0) (scene { slots := e :: List.replicate 7 {} } t)

/-- Commands whose element 0 is read and written: ECOPY, EGATH, ESCAT, EFILL and a decryption without a session; one that is not due; one whose destination
lies past the lease. -/
theorem witness_engine_elements :
    (((engineScene 0x70 101).eslot 0 0).busy = true ∧ (engineScene 0x70 101).cycle < ((engineScene 0x70 101).eslot 0 0).due)
      ∧ ([0x70, 0x71, 0x72, 0x73].all fun op =>
          let s := engineScene op 100
          let e := s.eslot 0 0
          decide (s.owner 0 = some sceneTask ∧ e.busy = true ∧ e.due ≤ s.cycle ∧ (s.page 0).frozen = false ∧ e.opc = op) && fine (s.engElem sceneTask 0 0 e 0)) = true
      ∧ ([0x70, 0x73, 0x75].all fun op => match (engineScene op 100 (vaData + 0x10000)).engElem sceneTask 0 0 ((engineScene op 100 (vaData + 0x10000)).eslot 0 0) 0 with
          | .error d => decide (d.1 ≠ dVersion)
          | .ok _ => false) = true := by decide +kernel

/-- The reads of an element of ECOPY, EGATH and ESCAT. -/
theorem witness_engine_reads :
    ([0x70, 0x71, 0x72].all fun op =>
      let s := engineScene op 100
      let r0 := (s.eslot 0 0).recs.getD 0 0
      let r1 := (s.eslot 0 0).recs.getD 1 0
      match s.engRead sceneTask 0 (patCls r0) none (patAddr r0 0) (patEsz r0) with
      | .error _ => false
      | .ok (x, s1) => fine (s1.engRead sceneTask 0 (patCls r1) none
          (if op = 0x71 then patBase r1 + BitVec.ofInt 64 (sx 32 (leNat x)) * patStride r1 0 else patAddr r1 0) (patEsz r1))) = true := by decide +kernel

/-- A member of a set of two whose other member is saved: its gather (op 1) has sent nothing yet. -/
def gatherTask : Task :=
  { sceneTask with mset := some 1, mcount := 2, colls := [{ rp := 0, slot := 0, num := 0, key := [], src := patOf vaData 4 true false 16 4 }] }

/-- The scene of that gather; held for the other member since cycle 0 when asked. -/
def gatherScene (ev : Ev) (held : Bool) (cycle : Nat) (colls : List Coll := gatherTask.colls) (elem : Nat := 0) : State :=
  let t := { gatherTask with colls := colls }
  let s := engineScene 0x74 100 vaData t
  let s1 := s.modSlot 0 0 fun e => { e with word := BitVec.ofNat 64 (0x74 * 2 ^ 56 + 2 ^ 35), held := held, elem := BitVec.ofNat 48 elem }
  { during ev s1 with cycle := cycle, tasks := [(1, t), (2, { t with tid := 2, midx := 1, state := .saved, pages := [], colls := [] })] }

theorem witness_collectives :
    let s := gatherScene (.collContribution 0 0) false 100
    let far := gatherScene (.collContribution 0 0) false 100 [{ gatherTask.colls.headD ⟨0, 0, 0, [], 0, []⟩ with src := patOf (vaData + 0x10000) 4 true false 16 4 }]
    let full := gatherScene (.collContribution 0 0) false 100 [{ gatherTask.colls.headD ⟨0, 0, 0, [], 0, []⟩ with sent := List.replicate 64 0 }]
    let send := fun (s : State) => match s.owner 0 with
      | none => none
      | some t => match t.coll 0 0 0 with
        | none => none
        | some c => some (t.sends 0 0 (s.eslot 0 0), t.active, fine (s.engRead t 0 (patCls c.src) none (patAddr c.src 0) (patEsz c.src)))
    send s = some (true, true, true) ∧ (s.page 0).frozen = false ∧ send far = some (true, true, false) ∧ send full = some (false, true, true)
      ∧ (s.eslot 0 0).opc = 0x74 ∧ (s.eslot 0 0).collOp = 1 ∧ (s.collWaits gatherTask 0 0 (s.eslot 0 0)).isSome = true := by decide +kernel

/-- Past the limit of 2^24 cycles, member 1 absent; and before it. -/
theorem witness_collective_timeout :
    let s := gatherScene (.collTimeout 0 0) true (0x4000 * 1024 + 1) gatherTask.colls 16
    let early := gatherScene (.collTimeout 0 0) true (0x4000 * 1024)
    s.owner 0 = some gatherTask ∧ s.collLate gatherTask (s.eslot 0 0) = true ∧ s.collAbsent gatherTask 0 0 (s.eslot 0 0) = some 1
      ∧ early.collLate gatherTask (early.eslot 0 0) = false := by decide +kernel

/-- A slice with a fill that is ripe, of an ordinary line and of a compression range, with none, and with a line in its expander queue; a fill that waits for its
way, with a free one and with every way held by a fill. -/
theorem witness_fills :
    let with_ := fun (fs xs : List Fill) (ls : List L2Line) =>
      (scene).modDie 0 fun x => { x with slices := modAt x.slices 0 fun sl => { sl with fills := fs, xq := xs, lines := ls } }
    let f : Fill := { line := 0, part := 0, due := 90 }
    let w : Fill := { f with taken := false, start := 90 }
    let find := fun (fs : List Fill) => (((with_ fs [] []).die 0).slices.getD 0 {}).fills.find? (Fill.ripe · (scene).cycle)
    let held : List L2Line := (List.range 24).map fun i => { line := 2 ^ 20 * (i + 1), way := i, part := 0, used := 0, filled := 0, busy := true }
    find [f] = some f ∧ find [{ f with rng := some 2 }] = some { f with rng := some 2 } ∧ find [{ f with due := 101 }] = none ∧ find [w] = some w
      ∧ ((with_ [w] [] []).pickWay 0 0 w).isSome = true ∧ ((with_ [w] [] held).pickWay 0 0 w).isNone = true
      ∧ (((with_ [] [f] []).die 0).slices.getD 0 {}).xq = [f] ∧ f.out ≤ (scene).cycle * 4 / 3 ∧ (scene).cycle * 4 / 3 < ({ f with out := 134 } : Fill).out := by
  decide +kernel

/-- Engine units of a die: one free, and all busy. -/
theorem witness_engine_units :
    let s := engineScene 0x70 100
    let busy := s.modDie 0 fun x => { x with units := List.replicate 4 101 }
    (s.takeUnit sceneTask 0 0 4).isSome = true ∧ (∀ c ∈ (busy.die 0).units, busy.cycle < c) ∧ 0 < s.dies.length := by decide +kernel

/-! ## Traps and tasks -/

/-- Two causes of one cycle: the first by class is picked. -/
theorem witness_causes : pickCause [{ cls := 1, code := 2 }, { cls := 3, code := 1 }] = some { cls := 3, code := 1 } := by decide +kernel

/-- A task with a cause, without and with a trap record; its page; the cause's class. -/
theorem witness_trap_freeze :
    let c : Cause := { cls := 2, code := 4 }
    let t : Task := { sceneTask with causes := [c] }
    let s := during (.trapFreeze 1) (scene {} t)
    s.task 1 = some t ∧ t.dual = none ∧ t.state ≠ .ended ∧ pickCause t.causes = some c ∧ t.trap = none ∧ ({ t with trap := some ⟨c, 1, 0, 0, 0, 0, 0, 0⟩ } : Task).trap.isSome = true
      ∧ t.phys c.page = some 0 ∧ c.cls ≠ 4 ∧ c.cls ≠ 5 := by decide +kernel

/-- An instance that reads faults and the task of that instance; a deadline; a task that ends. -/
theorem witness_trap_ends :
    let t : Task := { sceneTask with deadline := some 100 }
    let s := (during (.faultDeadline 1) (scene {} t)).modInst 0 0 fun g => { g with gen := 1, live := true, frdSeen := true }
    let g := s.inst t.inst.die t.inst.slot
    (g.live = true ∧ g.gen = t.inst.gen ∧ g.frdSeen = true) ∧ s.task 1 = some t ∧ t.deadline = some 100 ∧ t.dual = none ∧ t.state ≠ .ended ∧ 0 ∈ s.heldPages 1 := by
  decide +kernel

/-- A queued task of level 1 with free pages, and nothing queued. -/
theorem witness_selection :
    let t : Task := { sceneTask with state := .queued, level := 1, pages := [] }
    let s := during (.taskSelect 0 0) (scene {} t)
    let sc := s.sched 0 0
    s.selectLevel 0 0 = some 1 ∧ (scene).selectLevel 0 0 = none ∧ (s.queueOf 0 0 1 0).head? = some t
      ∧ (selectLoop (s.weight 0) (s.quantum 0) (fun t => (s.queueOf 0 0 1 t).isEmpty) (s.selectable 0 0 1)
          (16 * (sc.deficit.foldl (fun m d => max m d.natAbs) 0 / s.quantum 0 + 3)) (sc.ptr.getD 1 0) sc.deficit).map (·.1) = some 0 := by decide +kernel

/-- A task that is charged: not running; running with its charge not due; due and past its quantum beside a rival, and without one. -/
theorem witness_charge :
    let t : Task := { sceneTask with charged := 0 }
    let rival : Task := { sceneTask with tid := 2, tenant := 1, state := .queued, pages := [] }
    let s := { (during (.deficitCharge 1) (scene {} t)) with cycle := 2 ^ 16, tasks := [(1, t), (2, rival)] }
    let low := s.modSched 0 0 fun c => { c with deficit := [-(2 ^ 24 : Int)] ++ List.replicate 15 0 }
    let s1 := fun (s : State) => (s.modSched t.part t.inst.die fun c => { c with deficit := modAt c.deficit t.tenant fun d =>
      d - ((s.heldPages t.tid).length * (s.cycle - t.charged) : Nat) }).modTask 1 fun t => { t with charged := s.cycle }
    s.task 1 = some t ∧ t.state = .running ∧ t.charged + 2 ^ 16 ≤ s.cycle ∧ (scene).cycle < t.charged + 2 ^ 16 ∧ t.preqAt = none
      ∧ ((s1 low).sched 0 0).deficit.getD 0 0 < -(((s1 low).weight 0 0 * (s1 low).quantum 0 : Nat) : Int)
      ∧ ¬ (((s1 s).sched 0 0).deficit.getD 0 0 < -(((s1 s).weight 0 0 * (s1 s).quantum 0 : Nat) : Int))
      ∧ (s.weight 0 1 ≠ 0 ∧ s.queueOf 0 0 t.level 1 ≠ []) := by decide +kernel

/-- A task in page-wait beside one running task of a higher level: before its time, in time with too few pages, and with enough. -/
theorem witness_priority :
    let w : Task := { sceneTask with tid := 2, state := .pageWait, memSince := 0, npages := 16, pages := [], home := none }
    let prey : Task := { sceneTask with level := 2 }
    let s := { (during (.priorityPreempt 2) (scene {} prey)) with cycle := 2 ^ 14, tasks := [(1, prey), (2, w)] }
    let one := s.modPartDie 0 0 fun r => { r with part := 0x100000001 }
    let total := fun (s : State) => (s.freePages 0 0).length + (s.heldPages 1).length
    s.task 2 = some w ∧ w.state = .pageWait ∧ w.memSince + 2 ^ 14 ≤ s.cycle ∧ (scene).cycle < w.memSince + 2 ^ 14 ∧ max 1 (needPages w.rcd w.npages) = 16
      ∧ total one < 16 ∧ 16 ≤ total s := by decide +kernel

/-- A lease that is resident, and one whose first page stage 1 does not map. -/
theorem witness_lease_resident :
    let t : Task := { sceneTask with state := .leaseWait, pages := [] }
    let s := during (.leaseResident 1) (scene {} t)
    let none_ : State := { s with hbm := [] }
    s.task 1 = some t ∧ t.state = .leaseWait ∧ t.leaseOk = false ∧ t.leaseFault = none ∧ ({ t with leaseOk := true } : Task).leaseOk = true
      ∧ fine (s.residence 0 0 0 t.rcd.lbase t.rcd.lsize.toNat) = true ∧ fine (none_.residence 0 0 0 t.rcd.lbase t.rcd.lsize.toNat) = false := by decide +kernel

/-- IMAGE_CHECK of a task with a resident lease whose image address the fetch refuses, and of one whose image has no magic. -/
theorem witness_image_check :
    let t : Task := { sceneTask with state := .leaseWait, leaseOk := true, pages := [], rcd := { sceneTask.rcd with config := vaData } }
    let s := during (.imageCheck 1) (scene {} t)
    let code : State := { s with tum := { s.tum with pot := s.tum.pot.map fun x => if x.1 = 3 then (3, { x.2 with cls := 4 }) else x } }
    s.task 1 = some t ∧ t.trap = none
      ∧ (∀ u ∈ s.tasks, ¬ (u.2.part = t.part ∧ u.2.inst.die = t.inst.die ∧ u.2.level = t.level ∧ u.2.tenant = t.tenant ∧ u.2.state = .pageWait))
      ∧ (match s.readImage t with
        | .error d => decide (d ≠ dIntegrity)
        | .ok _ => false) = true
      ∧ (match code.readImage t with
        | .ok bs => !fine (code.checkImage 0 bs)
        | .error _ => false) = true
      ∧ (match ({ code with errs := [.hbm 0 0x30000] } : State).readImage t with
        | .error d => decide (d = dIntegrity)
        | .ok _ => false) = true := by decide +kernel

/-- A window that names a page past the image, and an image without windows. -/
theorem witness_windows : (winFault tinyImg [{ page := 1, port := 0, win := false, pat := 0 }]).isSome = true ∧ winFault tinyImg [] = none := by
  refine ⟨?_, rfl⟩
  have l : tinyImg.pages.length = 1 := rfl
  simp [winFault, l, refuseIf, List.zipIdx]

/-- The accepted image of a library that lists it. -/
theorem witness_accepted_image :
    ((scene).modPart 0 fun p => { p with lib := [{ kind := 0, hash := imageHash tinyImage 0x40, signer := [] }] }).checkImage 0 tinyImage
      = .ok (tinyImg, { kind := 0, hash := imageHash tinyImage 0x40, signer := [] }) := tiny_checks _ [] rfl

/-- A free place for a region of one page, and one of two pages linked with D = 1; a gang of one task in page-wait, and in another state. -/
theorem witness_region_place :
    let t : Task := { sceneTask with state := .pageWait, pages := [] }
    let s := during (.regionPlace 1) (scene {} t)
    s.task 1 = some t ∧ (∀ u ∈ s.gang t, u.state = .pageWait) ∧ (∃ u ∈ (scene).gang sceneTask, u.state ≠ .pageWait)
      ∧ (s.findPlace t [0] []).isSome = true ∧ (s.findPlace t [0, 1] []).isSome = true := by decide +kernel

/-- A gang without places: while a compaction moves a task, with a task to move and with none. -/
theorem witness_compaction :
    let t : Task := { sceneTask with tid := 2, state := .pageWait, pages := [] }
    let u : Task := { sceneTask with saveSlot := some (0, 0x520000), npages := 1 }
    let s : State := { during (.regionPlace 2) (scene {} u) with tasks := [(1, u), (2, t)] }
    let moving : State := { s with tasks := [(1, { u with preqAt := some 90, preqCause := 2 }), (2, t)] }
    let lone : State := { s with tasks := [(2, t)] }
    s.task 2 = some t ∧ (∀ v ∈ s.gang t, v.state = .pageWait) ∧ s.compacting 0 = false ∧ s.compactable t (s.gang t) ≠ [] ∧ moving.compacting 0 = true
      ∧ lone.compactable t (lone.gang t) = [] ∧ lone.compacting 0 = false := by decide +kernel
theorem witness_no_places (s : State) (f : Bool) : s.placeAll f [sceneTask] [] [] = none := by
  obtain ⟨r, p⟩ : ∃ r, parseImg sceneTask.img.bytes = .error r := fine_error (by decide +kernel)
  simp only [State.placeAll, State.placeTask, p]

/-- Every task's image parses in this gang, so its places are found. -/
theorem witness_place_all :
    let t : Task := { sceneTask with state := .pageWait, pages := [], img := { bytes := tinyImage } }
    ((scene {} t).placeTask t false []).isSome = true := by
  obtain ⟨x, h⟩ : ∃ x, (scene {} { sceneTask with state := .pageWait, pages := [], img := { bytes := tinyImage } }).findPlace
      { sceneTask with state := .pageWait, pages := [], img := { bytes := tinyImage } } (tinyImg.physLinks false) [] = some x := by
    rw [← Option.isSome_iff_exists]; decide +kernel
  simp only [State.placeTask, tiny_parses, h]
  rfl

/-- A checked task whose load is done, and one that is a restore; its image parses. -/
theorem witness_config_load :
    let t : Task := { sceneTask with state := .loading, loadDone := some 100, img := { bytes := tinyImage } }
    let s := during (.configLoad 1) (scene {} t)
    s.task 1 = some t ∧ t.loadDone = some 100 ∧ parseImg t.img.bytes = .ok tinyImg ∧ t.state = .loading ∧ t.restore = false ∧ 100 ≤ s.cycle
      ∧ ({ t with restore := true } : Task).restore = true := ⟨rfl, rfl, tiny_parses, rfl, rfl, by decide, rfl⟩

/-- A halted task that can end, a running one that cannot, and one that is ending. -/
theorem witness_task_end :
    let s := during (.taskEnd 1) (scene { halted := some 0 })
    let r := during (.taskEnd 1) (scene)
    let e := during (.taskEnd 1) (scene {} { sceneTask with state := .ending })
    (s.task 1).isSome = true ∧ s.canEnd sceneTask = true ∧ r.canEnd sceneTask = false ∧ (e.task 1).map (·.state) = some .ending
      ∧ e.canEnd { sceneTask with state := .ending } = false ∧ e.cutOff { sceneTask with state := .ending } = false ∧ sceneTask.dual = none := by
  decide +kernel

/-- A pre-emption request for a task in its load, one asked already, one that restarts at slice end, one with a save slot. -/
theorem witness_preempt :
    let t : Task := { sceneTask with saveSlot := some (0, 0x520000) }
    let s := during (.preemptRequest 1 1) (scene {} t)
    let r : Task := { t with rcd := { t.rcd with flags := 8 }, check := [{}] }
    let s2 := during (.preemptRequest 1 1) (scene {} r)
    s.task 1 = some t ∧ t.state = .running ∧ t.preqAt = none ∧ s.sliceRestart t = false ∧ (∀ u ∈ s.both t, u.saveSlot.isSome = true)
      ∧ (1 = 1 ∧ s2.trapped r = false ∧ s2.sliceRestart r = true) ∧ ({ t with preqAt := some 4 } : Task).preqAt.isSome = true
      ∧ ({ t with state := .loading } : Task).state = .loading := by decide +kernel

/-- A task at a pre-emption point whose pages are frozen; its restart; its forced save before its deadline, at it and after it. -/
theorem witness_saves :
    let t : Task := { sceneTask with preqAt := some 40, frozenAt := 90 }
    let f : Task := { t with preqCause := 4 }
    let s := scene { frozen := true, pdl := 64 } t
    let late : State := { s with cycle := 104 }
    s.task 1 = some t ∧ t.dual = none ∧ s.trapped t = false ∧ s.saveReady t false = true
      ∧ (scene { frozen := true } f).saveReady f true = true ∧ (scene {} f).saveReady f true = false
      ∧ t.preqCause < 4 ∧ s.cycle < s.deadlineOf t 40 ∧ late.deadlineOf t 40 ≤ late.cycle := by decide +kernel

/-- A restore whose slot is bad, one whose member a collective timed out without, and one that goes on. -/
theorem witness_restore :
    let t : Task := { sceneTask with state := .loading, restore := true, loadDone := some 100, save := [{}], preqAt := none }
    let s := during (.taskRestore 1) (scene {} t)
    s.task 1 = some t ∧ t.trap = none ∧ 100 ≤ s.cycle ∧ s.slotBad t = false ∧ s.slotBad { t with tampered := true } = true ∧ t.failed = none
      ∧ ({ t with failed := some 0 } : Task).failed = some 0 ∧ t.ovfl = false ∧ t.pages.Nodup ∧ t.phys 0 = some 0
      ∧ (({ s with cycle := 99 } : State).cycle < 100)
      ∧ (∀ p ∈ t.pages, (((s.charge t).restored t).page p).spillPos = none ∧ (((s.charge t).restored t).page p).weightPort 1 = false
          ∧ ∀ c < 8, (((s.charge t).restored t).core p c).kbsrc = [] ∧ ∀ i < 8, ((((s.charge t).restored t).core p c).lin.getD i {}).key = false) := by decide +kernel

/-- A restored link input whose recorded source is no memory of the task's ends the task (R150). -/
theorem witness_restore_keyed :
    let k : Core := { lin := ({} : Core).lin.set 2 { key := true, src := 64 } }
    let t : Task := { sceneTask with state := .loading, restore := true, loadDone := some 100, save := [{ cores := k :: (List.replicate 7 {}) }], preqAt := none }
    let s := during (.taskRestore 1) (scene {} t)
    s.task 1 = some t ∧ t.trap = none ∧ 100 ≤ s.cycle ∧ s.slotBad t = false ∧ t.failed = none
      ∧ (match (((s.charge t).restored t).readBack (s.restoredTask t)).refill (s.restoredTask t) with
        | .error c => decide (c.cls = 3 ∧ c.code = 7 ∧ c.addr = 64 ∧ c.core = 0)
        | .ok _ => false) = true := by decide +kernel

/-- A task with a lease fault waits; a task of the same tenant in page-wait holds back another's image check. -/
theorem witness_waits :
    let u : Task := { sceneTask with tid := 2, state := .pageWait }
    let t : Task := { sceneTask with state := .leaseWait, leaseOk := true }
    let s : State := { during (.imageCheck 1) (scene {} t) with tasks := [(1, t), (2, u)] }
    s.task 1 = some t ∧ t.mset = none ∧ (2, u) ∈ s.tasks ∧ u.part = t.part ∧ u.inst.die = t.inst.die ∧ u.level = t.level ∧ u.tenant = t.tenant
      ∧ u.state = .pageWait ∧ u.dual ≠ some 1 ∧ ({ t with leaseFault := some 1 } : Task).leaseFault.isSome = true := by decide +kernel

/-! ## Graph words -/

/-- The scene with instance 0 of die 0 live and in focus: g1 at page 3 of the lease, g2 a page's size, events 16 to 19. -/
def graphScene (f : GInst → GInst := id) (pg : Page := {}) (t : Task := sceneTask) : State :=
  let g : GInst := f { gen := 1, live := true, evbase := 16, evcount := 4, g := [0, vaData, 0x10000, 5] ++ List.replicate 12 0, code := [0] }
  (scene pg t).modInst 0 0 fun _ => g

/-- A task record (R230): page 1 of the lease as image address, one instance, a lease of one page; the member flag and trip counts are given. -/
def recordOf (bg : Nat := 0) (trips : Nat := 0x0001000100010001) : List Byte :=
  leBytes 4 0x4B54344B ++ leBytes 2 1 ++ leBytes 2 0 ++ leBytes 8 0xFFFF000000010000 ++ leBytes 8 0 ++ leBytes 2 0 ++ leBytes 1 bg ++ leBytes 5 0
    ++ leBytes 8 0xFFFF000000030000 ++ leBytes 8 0x10000 ++ leBytes 8 0 ++ leBytes 8 trips ++ List.replicate 192 0

/-- The error of a result. -/
def errorOf {ε α : Type} (x : Except ε α) : Option ε :=
  match x with
  | .error e => some e
  | .ok _ => none

/-- The value of a result. -/
def valueOf {ε α : Type} (x : Except ε α) : Option α :=
  match x with
  | .error _ => none
  | .ok a => some a

theorem error_of {ε α : Type} {x : Except ε α} {e : ε} (h : errorOf x = some e) : x = .error e := by
  cases x with
  | ok a => simp [errorOf] at h
  | error e => simp [errorOf] at h; rw [h]

theorem value_of {ε α : Type} {x : Except ε α} {a : α} (h : valueOf x = some a) : x = .ok a := by
  cases x with
  | ok a => simp [valueOf] at h; rw [h]
  | error e => simp [valueOf] at h

/-- Registers of the instance in focus. -/
theorem witness_graph_registers : (graphScene.finst.loops = []) ∧ (graphScene fun g => { g with loops := [{ first := 1, fin := 3, left := 2 }] }).finst.loops
    = [{ first := 1, fin := 3, left := 2 }] := by decide +kernel

/-- Accesses of GLD, GST and GCELL: a translated address of the lease, a misaligned one, one of no translated space, one that stage 1 does not map. -/
theorem witness_graph_access :
    let s := graphScene
    s.finst.phase = .ready ∧ fine (s.gAccess false vaData 8 8) = true ∧ fine (s.gAccess true vaData 8 8) = true ∧ fine (s.gAccess true vaData 16 16) = true
      ∧ errorOf (s.gAccess true (vaData + 1) 8 8) = some 1 ∧ errorOf (s.gAccess true 0xFFFF800000000000 8 8) = some 2 ∧ spaceOf (0xFFFF800000000000 : W64) ≠ .translated
      ∧ fine (({ s with hbm := [] } : State).gAccess false vaData 8 8) = false := by decide +kernel

/-- A sequencer word and a graph word whose data returns, before and at their time; a GST at its completion. -/
theorem witness_data_return :
    let s := during (.dataReturn (.page 0)) (scene { phase := .mem 100 (some (2, 7)) })
    let g := during (.dataReturn (.graph 0 0)) (graphScene fun g => { g with phase := .mem 100 (some (2, 7)) })
    let st := during (.dataReturn (.graph 0 0)) (graphScene fun g => { g with phase := .store 100 (.hbm 0 0x30000) (leBytes 8 5) })
    (s.page 0).phase = .mem 100 (some (2, 7)) ∧ (s.page 0).frozen = false ∧ 100 ≤ s.cycle
      ∧ ((scene { phase := .mem 101 none }).page 0).phase = .mem 101 none ∧ (g.inst 0 0).phase = .mem 100 (some (2, 7))
      ∧ (st.inst 0 0).phase = .store 100 (.hbm 0 0x30000) (leBytes 8 5) ∧ (st.changeHeld 0 (.hbm 0 0x30000) (leBytes 8 5)).isNone = true ∧ st.wellKept = true
      ∧ st.slotImg = [] ∧ ((st.die 0).cmprange.all fun r => decide (fld r 257 256 = 0)) = true ∧ (st.part (st.inst 0 0).part).lm.getLsbD 176 = false := by
  decide +kernel

/-- Places of a graph access: of a page that is sealed, of one that is not, of one that no page table holds, and one with an uncorrectable line. -/
theorem witness_graph_places :
    let s := graphScene
    let held : State := s.modPart 0 fun p => { p with seals := [(s.resolve 0 vaData, 0x10000)] }
    (match s.place (pintleWho 0 0 0) .write true vaData with
      | .ok (.hbm e pa _) => decide (e = 0 ∧ pa = 0x30000)
      | _ => false) = true ∧ s.sealed 0 0 vaData 8 = false ∧ held.sealed 0 0 vaData 8 = true ∧ fine (({ s with hbm := [] } : State).place (pintleWho 0 0 0) .write true vaData) = false
      ∧ s.badLoc (.hbm 0 0x30000) 8 = false ∧ ({ s with errs := [.hbm 0 0x30000] } : State).badLoc (.hbm 0 0x30000) 8 = true := by decide +kernel

/-- A record that a launch reads; one at a misaligned address; one that is not readable; a record refused with a status; a zero trip count of TASKD. -/
theorem witness_launch :
    let s := withBytes graphScene 0x30000 (recordOf)
    let bad := withBytes graphScene 0x30000 (recordOf 0 0)
    let who : Who := pintleWho 0 0 0
    vaData.toNat % 64 = 0 ∧ (vaData + 8).toNat % 64 ≠ 0 ∧ valueOf (s.ctxRead who .record vaData 256) = some (recordOf)
      ∧ fine (s.launchCheck 0 0 0 16 4 (recordOf)) = true ∧ errorOf (bad.launchCheck 0 0 0 16 4 (recordOf 0 0)) = some 0x30
      ∧ fine (({ s with hbm := [] } : State).ctxRead who .record vaData 256) = false := by decide +kernel

/-- Trip counts of TASKD: one of them 0, none of them 0; TASK has none. -/
theorem witness_trips : zeroTrip (some 0x0001000100000001) ∧ ¬ zeroTrip (some 0x0001000100010001) ∧ ¬ zeroTrip none := by
  refine ⟨⟨_, rfl, 1, by decide, by decide⟩, ?_, ?_⟩
  · rintro ⟨v, h, j, hj, e⟩
    cases h
    exact (by decide : ¬ ∃ j : Fin 4, (0x0001000100010001 : W64).extractLsb' (16 * j.val) 16 = 0) ⟨⟨j, hj⟩, e⟩
  · rintro ⟨v, h, _⟩
    cases h

/-- An open step and none; a step with a refused launch, one that does not fit, one that fits. -/
theorem witness_step :
    let l : StepLaunch := { num := 1, rcd := { bg := 0x83, trips := 0x0001000100010001 }, wins := [], pages := 41 }
    let need := fun (g : GInst) => ((g.step.filter fun l => l.rcd.bg.getLsbD 7).map fun l =>
      graphScene.demand 0 0 0 l.rcd.instances l.rcd l.pages).sum
    let s := graphScene fun g => { g with stepOpen := true, step := [l] }
    let r := graphScene fun g => { g with stepOpen := true, launches := [{ num := 1, status := 0x30, shown := 0x30, inStep := true }] }
    graphScene.finst.stepOpen = false ∧ s.finst.stepOpen = true ∧ 4 * (s.clustersOf 0 0).length < need s.finst
      ∧ need (graphScene fun g => { g with stepOpen := true, step := [{ l with pages := 40 }] }).finst ≤ 4 * (s.clustersOf 0 0).length
      ∧ (r.finst.launches.find? fun l => l.inStep && decide (l.status ≠ 0)).isSome = true ∧ l.rcd.flags.getLsbD 2 = false ∧ l.rcd.instances = 1 := by decide +kernel

/-- Events in the grant and outside it; counts of a wait. -/
theorem witness_graph_events :
    let g := graphScene.finst
    (g.evbase ≤ 19 ∧ 19 < g.evbase + g.evcount) ∧ ¬ (g.evbase ≤ 20 ∧ 20 < g.evbase + g.evcount) ∧ g.phase = .ready
      ∧ fld (0x00010013 : W32) 7 0 = 19 ∧ fld (0x00010013 : W32) 31 16 = 1 ∧ fld (0x00000013 : W32) 31 16 = 0 := by decide +kernel

/-- Launches that a WAIT finds: in an open step, refused, running, ended; a handle that names none. -/
theorem witness_wait_launch :
    let find := fun (s : State) (h : W64) => s.finst.launches.find? fun l => decide (BitVec.ofNat 64 (l.shown % 256 + l.num % 2 ^ 32 * 2 ^ 16) = h)
    let s := graphScene fun g => { g with launches := [{ num := 1, inStep := true }, { num := 2, status := 0x33, shown := 0 }, { num := 3, left := 2 }, { num := 4, bad := 1 }] }
    (find s 0x10000).map (·.inStep) = some true ∧ (find s 0x20000).map (fun l => (l.inStep, l.status)) = some (false, 0x33)
      ∧ (find s 0x30000).map (fun l => (l.inStep, l.status, l.left)) = some (false, 0, 2)
      ∧ (find s 0x40000).map (fun l => (l.inStep, l.status, l.left, l.bad)) = some (false, 0, 0, 1) ∧ find s 0x50000 = none := by decide +kernel

/-- An object that CALLG starts, in the scene with a block of 64 bytes; one that is not installed; every slot taken; the greatest depth. -/
theorem witness_callg :
    let o : GObj := { words := [0], block := 0xFFFF000000030000, bsize := 64, area := 0xFFFF000000030400 }
    let s := graphScene.modPart 0 fun p => { p with objs := assocSet p.objs (objKey 0 3) o }
    let full := s.modDie 0 fun d => { d with insts := d.insts.map fun g => { g with live := true } }
    let x : Start := { part := 0, tenant := 0, chan := 0, die := 0, obj := 3, depth := 1, parent := some 0 }
    s.obj 0 0 3 = some o ∧ o.words ≠ [] ∧ graphScene.obj 0 0 3 = none ∧ (∀ k < 64, (full.inst 0 k).live = true)
      ∧ (valueOf (s.startInst x)).map (fun y => (y.1, decide (y.1 < (y.2.die 0).insts.length), decide (0 < y.2.dies.length))) = some (1, true, true)
      ∧ graphScene.finst.depth < 4 ∧ 4 ≤ (graphScene fun g => { g with depth := 4 }).finst.depth := by decide +kernel

/-- An instance that closes with a launch not ended, one that a caller waits for, one without a caller whose ring has room. -/
theorem witness_close :
    let s := (graphScene fun g => { g with phase := .child 1 }).modInst 0 1 fun _ => { live := true, phase := .closing 7 0, parent := some 0, depth := 1 }
    let r := (graphScene fun g => { g with phase := .closing 7 0 }).modChan 0 0 fun c => { c with reg := 2 ^ 152 }
    ((s.inst 0 1).live = true ∧ (s.inst 0 1).phase = .closing 7 0 ∧ (s.inst 0 1).leases = [] ∧ (∀ l ∈ (s.inst 0 1).launches, l.left = 0)
        ∧ (s.inst 0 1).parent = some 0 ∧ (s.inst 0 0).phase = .child 1)
      ∧ ((r.inst 0 0).parent = none ∧ (r.chan 0 0).on = true ∧ (r.chan 0 0).full = false ∧ (r.chan 0 0).pending = [])
      ∧ ∃ l ∈ (graphScene fun g => { g with launches := [{ num := 1, left := 1 }] }).finst.launches, l.left ≠ 0 := by decide +kernel

/-- A waiting patch, and one of this cycle; a full ring, and one with room; a data packet, and none. -/
theorem witness_messages :
    let s := graphScene fun g => { g with patches := [(99, [(0, 5)]), (100, [(8, 6)])], data := [(3, 9)] , block := 0xFFFF000000030000 }
    let es := ((s.finst.patches.filter fun x => decide (x.1 < s.cycle))).flatMap (·.2)
    let full := graphScene.modChan 0 0 fun c => { c with reg := 2 ^ 152, dtail := 65520 }
    es = [(0, 5)]
      ∧ (es.foldlM (fun (s : State) e => s.ctxWrite (pintleWho 0 0 0) (s.finst.block + BitVec.ofNat 64 e.1) (leBytes 8 e.2.toNat)) s).isSome = true
      ∧ s.finst.data = [(3, 9)] ∧ graphScene.finst.data = [] ∧ (full.chan 0 0).on = true ∧ (full.chan 0 0).full = true
      ∧ ¬ ((graphScene.chan 0 0).on = true ∧ ((graphScene.chan 0 0).full = true ∨ (graphScene.chan 0 0).pending ≠ [])) := by decide +kernel

/-- Leases: a good range that is resident, one that is not, one outside the die, every slot taken, one refused; a slot that FREE names. -/
theorem witness_leases :
    let s := graphScene
    let g8 := (List.range 8).map fun i => (i, vaData, (0x10000 : W64))
    let free := graphScene fun g => { g with leases := [(0, vaData, 0x10000)] }
    (vaData.toNat % 65536 = 0 ∧ (0x10000 : W64).toNat % 65536 = 0) ∧ s.outside 0 vaData 0x10000 = false ∧ s.outside 0 0xFFFF7FFFFFFF0000 0x20000 = true
      ∧ (graphScene fun g => { g with leases := g8 }).finst.leases.length = 8 ∧ s.finst.leases.length < 8 ∧ fine (s.residence 0 0 0 vaData 0x10000) = true
      ∧ fine (({ s with hbm := [] } : State).residence 0 0 0 vaData 0x10000) = false ∧ s.finst.refused = false ∧ s.finst.leaseFault = none
      ∧ (graphScene fun g => { g with refused := true }).finst.refused = true ∧ (free.finst.leases.find? fun y => decide (y.1 = 0)) = some (0, vaData, 0x10000)
      ∧ (∀ x ∈ s.finst.leases, x.1 ≠ 0) := by decide +kernel

/-- Waiting trap records: an unread one, none; one that a handle names and one that it does not. -/
theorem witness_fault_words :
    let r : TrapRec := ⟨{ cls := 1, code := 3 }, 1, 0, 0, 0, 50, 0, 0⟩
    let t : Task := { sceneTask with trap := some r }
    let s := graphScene (fun g => { g with faults := [1], frdSeen := true }) {} t
    s.unread s.finst = some (t, r) ∧ graphScene.unread graphScene.finst = none ∧ s.waitingFor 0 0 1 = some (t, r.cause) ∧ s.waitingFor 0 0 2 = none
      ∧ fine (s.gAccess true vaData 64 64) = true ∧ fine (s.gAccess true (vaData + 64) 64 64) = true ∧ fine (s.gAccess true (vaData + 4) 64 64) = false := by
  decide +kernel

/-- Lengths of a padded byte string, of a little-endian number, of a signature, of a receipt without entries. -/
theorem sized_length (n : Nat) (l : List Byte) : (Config.sized n l).length = n := by
  simp [Config.sized]

theorem length_leBytes (n : Nat) : ∀ v, (leBytes n v).length = n := by
  induction n with
  | zero => intro v; rfl
  | succ n ih => intro v; simp [leBytes, ih]

theorem signature_length (b : List Byte) (m n : Nat) : (Config.signature b m n).length = 16608 := sized_length _ _

theorem receipt_length (s : State) (part tenant : Nat) : (s.receipt false part tenant []).length = s.tum.nonce.length + 16832 := by
  unfold State.receipt
  generalize (if false = true then ((0 : W64), (0 : W64), (0 : W64)) else (assocGet s.tum.tenants (16 * part + tenant)).getD (0, 0, 0)) = q
  obtain ⟨a, b, c⟩ := q
  simp only [List.length_append, signature_length, Config.identifier, sized_length, length_leBytes, List.length_replicate, List.flatten_nil, List.length_nil, List.length_cons]
  omega

theorem no_usage (s : State) (part tenant : Nat) (h : s.tum.usage = []) : s.tenantReceipt part tenant = s.receipt false part tenant [] := by
  have e : ∀ l : List Nat, l.filterMap (fun _ => (none : Option (List Byte))) = [] := by
    intro l
    induction l with
    | nil => rfl
    | cons a l ih => exact ih
  simp [State.tenantReceipt, h, e]

/-- A receipt's address: aligned and writable, misaligned, not writable. -/
theorem witness_receipt :
    let s := graphScene
    (s.tenantReceipt 0 0).length = s.tum.nonce.length + 16832 ∧ s.tum.nonce = [] ∧ pieces 2 vaData 16832 = [(vaData, 16832)]
      ∧ spaceOf vaData = .translated ∧ s.sealed 0 0 vaData 16832 = false ∧ vaData.toNat % 64 = 0 ∧ (vaData + 8).toNat % 64 ≠ 0
      ∧ (valueOf (s.place (pintleWho 0 0 0) .write true vaData)).map (fun p => match p with
        | .hbm _ _ e => e.cls
        | .peer _ _ => 99) = some 0
      ∧ fine (({ s with hbm := [] } : State).place (pintleWho 0 0 0) .write true vaData) = false := by
  refine ⟨(congrArg _ (no_usage _ 0 0 rfl)).trans (receipt_length _ 0 0), ?_⟩
  decide +kernel

/-! ## Commands and packets -/

/-- A mailbox of a function whose input of n bytes starts with the given ones, the rest 0: at page 3 of the device, which the function owns. -/
def tumScene (fn : Nat) (x : List Byte) (n : Nat) (t : Task := sceneTask) : State :=
  let s := withBytes (scene {} t) 0x30000 (leBytes 8 n ++ x)
  let s1 : State := { s with tum := { s.tum with pot := s.tum.pot.map fun y => if y.1 = 3 then (3, { cls := 0, owner := fnOwner fn }) else y, queue := [fn] } }
  s1.setTmbx fn (BitVec.ofNat 128 vaData.toNat)

/-- Is this the input of the mailbox, read behind its length? -/
def inputFits (s : State) (fn : Nat) (x : List Byte) : Bool :=
  decide (x.length ≤ 2 ^ 32) && decide ((valueOf (s.tumRead fn (mailAt s fn) 8)).map leNat = some x.length)
    && decide (valueOf (s.tumRead fn (mailAt s fn + 8) x.length) = some x)

theorem input_fits {s : State} {fn : Nat} {x : List Byte} (h : inputFits s fn x = true) : inputIs s fn x := by
  simp only [inputFits, Bool.and_eq_true, decide_eq_true_eq, Option.map_eq_some_iff] at h
  obtain ⟨⟨h1, b, h2, h3⟩, h4⟩ := h
  exact ⟨h1, ⟨b, value_of h2, h3⟩, value_of h4⟩

/-- Bytes past every listed one read as zero, where no page shows a save slot and no compression range is set. -/
theorem zeros_past (s : State) (d : Nat) (h : ∀ pa, s.slotByte d pa = none ∧ s.cmpAt d pa = none) (n : Nat) : ∀ pa,
    (s.hbm.all fun c => decide (c.1 < hbmKey d pa)) = true → s.committedN d pa n = List.replicate n 0 := by
  have low : ∀ (m : List Host.Cell) x, (m.all fun c => decide (c.1 < x)) = true → cellGet m x = 0 := by
    intro m x
    induction m with
    | nil => intro _; rfl
    | cons c m ih =>
      intro hc
      obtain ⟨k, v⟩ := c
      simp only [List.all_cons, Bool.and_eq_true, decide_eq_true_eq] at hc
      simp only [cellGet]
      rw [if_neg (by omega), if_neg (by omega)]
      exact ih hc.2
  induction n with
  | zero => intro pa _; rfl
  | succ n ih =>
    intro pa hp
    have e : s.committed d pa = 0 := by
      simp only [State.committed, (h pa).1, (h pa).2]
      exact low _ _ hp
    have q : (s.hbm.all fun c => decide (c.1 < hbmKey d (pa + 1))) = true := by
      rw [List.all_eq_true] at hp ⊢
      intro c hc
      have := of_decide_eq_true (hp c hc)
      simp only [hbmKey] at this
      exact decide_eq_true (by simp only [hbmKey]; omega)
    simp [State.committedN, e, ih (pa + 1) q, List.replicate_succ]

/-- Reading a first part and the rest. -/
theorem committed_split (s : State) (d k n : Nat) : ∀ pa, s.committedN d pa (k + n) = s.committedN d pa k ++ s.committedN d (pa + k) n := by
  induction k with
  | zero => intro pa; simp [State.committedN]
  | succ k ih =>
    intro pa
    rw [show k + 1 + n = k + n + 1 by omega]
    simp [State.committedN, ih (pa + 1), show pa + 1 + k = pa + (k + 1) by omega]

/-- The read of an input that lies in one page. -/
theorem one_page {s : State} {fn : Nat} {a : W64} {n d pa : Nat} (h : s.fnPages fn a n = some [(d, pa, n)]) (e : s.errs = []) :
    s.tumRead fn a n = .ok (s.committedN d pa n) := by
  simp [State.tumRead, h, State.placesBad, e]

/-- An input of n bytes whose first k are given and the rest 0, in one page of die 0. -/
theorem long_input {s : State} {fn n k pa : Nat} {x : List Byte} (hx : x.length = k) (hk : k + n ≤ 2 ^ 32)
    (h0 : (valueOf (s.tumRead fn (mailAt s fn) 8)).map leNat = some (k + n))
    (hp : s.fnPages fn (mailAt s fn + 8) (k + n) = some [(0, pa, k + n)]) (he : s.errs = []) (ht : s.slotImg = []) (hc : ((s.die 0).cmprange.all fun r => decide (fld r 257 256 = 0)) = true)
    (first : s.committedN 0 pa k = x) (past : (s.hbm.all fun c => decide (c.1 < hbmKey 0 (pa + k))) = true) :
    inputIs s fn (x ++ List.replicate n 0) := by
  have len : (x ++ List.replicate n 0).length = k + n := by simp [hx]
  simp only [Option.map_eq_some_iff] at h0
  obtain ⟨b, h2, h3⟩ := h0
  refine ⟨by omega, ⟨b, value_of h2, by omega⟩, ?_⟩
  rw [len, one_page hp he, committed_split, first, zeros_past s 0 (fun q => ⟨?_, ?_⟩) n _ past]
  · simp [State.slotByte, ht]
  · simp only [List.all_eq_true, decide_eq_true_eq] at hc
    have none_ : (s.die 0).cmpAt q = none := by
      simp only [Die.cmpAt, Option.map_eq_none_iff, List.find?_eq_none]
      rintro ⟨r, i⟩ hr
      simp [hc r (List.fst_mem_of_mem_zipIdx hr)]
    simp [State.cmpAt, none_]

/-- Commands that a caller may issue and may not; a length that is read, one that is not, one that is wrong. -/
theorem witness_commands :
    (∃ c ∈ commands, c.2.1 = false) ∧ (∃ c ∈ commands, c.2.1 = true) ∧ (valueOf ((tumScene 1 [] 3).tumRead 1 (mailAt (tumScene 1 [] 3) 1) 8)).map leNat = some 3
      ∧ errorOf (({ tumScene 1 [] 3 with hbm := [] } : State).tumRead 1 (mailAt (tumScene 1 [] 3) 1) 8) = some 5
      ∧ (3 < 65 ∧ 1 ≤ 16 ∧ (tumScene 1 [] 3).parts.length = 16) :=
  ⟨⟨(.cLibadd, false, true, 17044, false), by simp [commands], rfl⟩, ⟨(.cIdent, true, true, 0, false), by simp [commands], rfl⟩, by decide +kernel⟩

/-- IDENT without input; ATTEST of partition 0 and of a partition that is not one. -/
theorem witness_ident : inputFits (tumScene 1 [] 0) 1 [] = true := by decide +kernel
theorem witness_attest :
    let x := List.replicate 64 5 ++ [0]
    let y := List.replicate 64 5 ++ [16]
    inputFits (tumScene 1 x 65) 1 x = true ∧ inputFits (tumScene 1 y 65) 1 y = true ∧ x.length = 65 ∧ leAt x 64 1 = 0 ∧ leAt y 64 1 = 16 := by decide +kernel

/-- A scene without tasks whose mailbox has a long input: its first bytes and how many follow, all 0. -/
def longScene (fn : Nat) (x : List Byte) (n : Nat) : State := { tumScene fn x (x.length + n) with tasks := [], slotImg := [] }

theorem long_scene (fn n : Nat) (x : List Byte) (h : x.length + n ≤ 2 ^ 32)
    (h0 : ((valueOf ((longScene fn x n).tumRead fn (mailAt (longScene fn x n) fn) 8)).map leNat = some (x.length + n)
      ∧ (longScene fn x n).fnPages fn (mailAt (longScene fn x n) fn + 8) (x.length + n) = some [(0, 0x30008, x.length + n)]
      ∧ (longScene fn x n).errs = [] ∧ ((longScene fn x n).die 0).cmprange.all (fun r => decide (fld r 257 256 = 0)) = true
      ∧ (longScene fn x n).committedN 0 0x30008 x.length = x
      ∧ ((longScene fn x n).hbm.all fun c => decide (c.1 < hbmKey 0 (0x30008 + x.length))) = true)) :
    inputIs (longScene fn x n) fn (x ++ List.replicate n 0) :=
  long_input rfl h h0.1 h0.2.1 h0.2.2.1 rfl h0.2.2.2.1 h0.2.2.2.2.1 h0.2.2.2.2.2

/-- FWSTAGE of 16,608 bytes by the operator; FWSWITCH with a staged slot and without. -/
theorem witness_fwstage : inputIs (longScene 0 [] 16608) 0 ([] ++ List.replicate 16608 0) := long_scene 0 16608 [] (by decide) (by decide +kernel)
theorem witness_fwswitch :
    inputFits (tumScene 0 [] 0) 0 [] = true ∧ fld (tumScene 0 [] 0).dev.fwst 1 1 = 0 ∧ fld (setFld (tumScene 0 [] 0).dev.fwst 1 1 1) 1 1 ≠ 0 := by decide +kernel

/-- LIBADD without entries, and of a length that no list of entries has; LIBREVOKE. -/
theorem witness_libadd : inputIs (longScene 1 [] 17044) 1 ([] ++ List.replicate 17044 0) := long_scene 1 17044 [] (by decide) (by decide +kernel)
theorem witness_libadd_shape (k : Nat) : leAt (List.replicate 17044 (0 : Byte)) 432 4 = 0 ∧ (17044 = 436 + 49 * 0 + 16608) ∧ (17045 ≠ 436 + 49 * k + 16608 ∨ k ≠ 0) := by
  refine ⟨?_, by decide, by omega⟩
  simp only [leAt, List.drop_replicate, List.take_replicate]
  rfl
theorem witness_librevoke : inputFits (tumScene 1 [] 48) 1 (List.replicate 48 0) = true := by decide +kernel

/-- PAGESET of page 3 to class C, of a misaligned page, of a page that is not there, to a class that is not listed. -/
theorem witness_pageset :
    let x := fun (a : W64) (c : Nat) => leBytes 8 a.toNat ++ leBytes 8 1 ++ leBytes 1 c ++ leBytes 2 0
    let s := fun a c => tumScene 1 (x a c) 19
    inputFits (s vaData 4) 1 (x vaData 4) = true ∧ (s vaData 4).fnRange 1 vaData 1 = some [(0, 3)]
      ∧ (s vaData 4).transition 1 ((s vaData 4).potAt 0 0x30000) 4 0 = some (some { cls := 4, owner := 0 }, false)
      ∧ (s vaData 5).transition 1 ((s vaData 5).potAt 0 0x30000) 5 0 = none
      ∧ inputFits (s (vaData + 8) 4) 1 (x (vaData + 8) 4) = true ∧ (vaData + 8).toNat % 65536 ≠ 0
      ∧ (s vaData 4).fnRange 1 0xFFFF800000000000 1 = none := by decide +kernel

/-- MODELOPEN of a header that is shaped and asks for no measurement; one whose first byte is wrong; 64 open images. -/
theorem witness_modelopen :
    inputIs (longScene 1 [0x4B, 0x34, 0x4D, 0x44, 1, 0] 19210) 1 ([0x4B, 0x34, 0x4D, 0x44, 1, 0] ++ List.replicate 19210 0)
      ∧ inputIs (longScene 1 [0] 19215) 1 ([0] ++ List.replicate 19215 0) :=
  ⟨long_scene 1 19210 _ (by decide) (by decide +kernel), long_scene 1 19215 _ (by decide) (by decide +kernel)⟩
theorem witness_modelopen_header :
    let h : List Byte := [0x4B, 0x34, 0x4D, 0x44, 1, 0] ++ List.replicate 506 0
    (([0x4B, 0x34, 0x4D, 0x44, 1, 0] : List Byte) ++ List.replicate 19210 0).take 512 = h
      ∧ (h.take 4 = [0x4B, 0x34, 0x4D, 0x44] ∧ leAt h 4 2 = 1 ∧ (h.drop 0x148).all (fun b => decide (b = 0)) = true)
      ∧ digestOk ((h.drop 0x18).take 48) [] = true ∧ digestOk ((h.drop 0x48).take 48) [] = true
      ∧ digestOk ([(1 : Byte)] ++ List.replicate 47 0) [] = false ∧ (longScene 1 [] 0).tum.debug = false ∧ (longScene 1 [] 0).tum.models.length < 64 := by
  refine ⟨?_, by decide +kernel⟩
  rw [List.take_append, List.take_replicate]
  rfl

/-- Open images and sessions of partition 0: image 2 with one filled page, session 5 and session 6, which has moved away. -/
def openScene (x : List Byte) : State :=
  let s := tumScene 1 x x.length
  { s with tum := { s.tum with
      models := [{ part := 0, idx := 2, header := List.replicate 0x138 0 ++ leBytes 4 1 ++ leBytes 4 4, pages := [(0, 2)] }]
      sessions := [{ id := 0, part := 0, tenant := 0 }, { id := 5, part := 0, tenant := 0 }, { id := 6, part := 0, tenant := 0, enc := false }] } }

/-- MODELCLOSE, SESSOPEN, SESSCLOSE, OWNRECEIPT, EXPORT, LINKUP: an input that fits, of an open image or session and of none, in use and not. -/
theorem witness_short_commands :
    let s := openScene [2]
    let idle : State := { s with tasks := [] }
    inputFits s 1 [2] = true ∧ (s.model 0 2).isSome = true ∧ s.model 0 3 = none ∧ s.leased 0 2 none = true ∧ idle.leased 0 2 none = false
      ∧ inputFits (openScene [5, 0]) 1 [5, 0] = true ∧ (s.openSess 0 5).map (·.enc) = some true ∧ (s.openSess 0 6).map (·.enc) = some false ∧ s.openSess 0 7 = none
      ∧ inputFits (openScene [0, 5, 0, 1, 0]) 1 [0, 5, 0, 1, 0] = true
      ∧ inputFits (openScene (1 :: leBytes 8 vaData.toNat)) 1 (1 :: leBytes 8 vaData.toNat) = true
      ∧ inputFits (tumScene 0 [63] 1) 0 [63] = true ∧ inputFits (tumScene 0 [64] 1) 0 [64] = true
      ∧ fine (s.tumWrite 1 vaData [1, 2]) = true := by decide +kernel

/-- Links: none secured, and one secured to device 1. -/
theorem witness_peer :
    (scene).peerUp 1 = false ∧ ({ scene with dev := { (scene).dev with links := (scene).dev.links.set 0 (2 + 4) } } : State).peerUp 1 = true
      ∧ ((openScene []).model 0 2).map Model.podOk = some true := by decide +kernel

/-- A session and an image that a pod peer exports, with a place here: session 1 is not open, session 5 is, and the image carries the flag pod. -/
theorem witness_imports :
    let s := openScene []
    let header := List.replicate 0x138 0 ++ leBytes 4 1
    (∀ y ∈ s.tum.sessions, y.id ≠ 1) ∧ (∃ y ∈ s.tum.sessions, y.id = 5) ∧ leAt header 0x138 4 % 2 = 1 ∧ s.tum.models.length < 64 ∧ s.model 0 0 = none
      ∧ (s.model 0 2).isSome = true := by decide +kernel

/-- SESSOPEN: the lowest free session number, which no open session has. -/
theorem witness_sessopen :
    let s := openScene []
    (∀ y ∈ s.tum.sessions, y.id ≠ 1) ∧ (∃ y ∈ s.tum.sessions, y.id = 0) ∧ inputIs (longScene 1 [0] 1664) 1 ([0] ++ List.replicate 1664 0)
      ∧ inputIs (longScene 1 [16] 1664) 1 ([16] ++ List.replicate 1664 0) :=
  ⟨by decide, by decide, long_scene 1 1664 _ (by decide) (by decide +kernel), long_scene 1 1664 _ (by decide) (by decide +kernel)⟩

/-- REPLYCLOSE of session 5 over no page, its record at the page of the mailbox. -/
theorem witness_replyclose :
    let x := leBytes 2 5 ++ leBytes 8 0xFFFF000000020000 ++ leBytes 8 0 ++ leBytes 8 0 ++ leBytes 8 (vaData.toNat + 0x100)
    let s := openScene x
    inputFits s 1 x = true ∧ x.length = 34 ∧ leAt x 0 2 = 5 ∧ leAt x 2 8 % 65536 = 0 ∧ s.fnRange 1 0xFFFF000000020000 0 = some []
      ∧ s.fnRange 1 0xFFFF000000020000 1 = some [(0, 2)] ∧ s.placesBad [] = false ∧ fine (s.tumWrite 1 (vaData + 0x100) [1, 2, 3]) = true := by decide +kernel

/-- MODELFILL of one chunk of image 2 to page 2, which is of class G, from a place of two pages. -/
theorem witness_modelfill :
    let x := [(2 : Byte)] ++ leBytes 8 0xFFFF000000001000 ++ leBytes 8 65552 ++ leBytes 8 0xFFFF000000020000 ++ leBytes 8 1
    let s := openScene x
    inputFits s 1 x = true ∧ x.length = 33 ∧ (s.model 0 (leAt x 0 1)).map (fun m => decide (m.filled + leAt x 25 8 ≤ m.chunks)) = some true ∧ leAt x 9 8 = 65552
      ∧ leAt x 17 8 % 65536 = 0 ∧ fine (s.tumRead 1 0xFFFF000000001000 65552) = true ∧ s.fnRange 1 0xFFFF000000020000 1 = some [(0, 2)]
      ∧ (s.potAt 0 0x20000).map (fun e => (e.cls, e.owner)) = some (0, 0) ∧ s.inCmp 0 2 = false ∧ (s.potAt 0 0x50000).isNone = true := by decide +kernel

/-- A packet of channel 0 of partition 0: revision, type, seq 1, and its body from byte 16. -/
def hostPacket (rev ty : Nat) (body : List Byte) : HostPacket :=
  { bits := BitVec.ofNat 512 (leNat (leBytes 2 rev ++ leBytes 1 ty ++ leBytes 1 0 ++ leBytes 4 1 ++ leBytes 8 0 ++ body)) }

/-- A graph image of one END word (R83), with its hash from byte 16. -/
def endImage : List Byte :=
  let h := leBytes 4 0x5247344B ++ leBytes 2 1 ++ leBytes 2 0 ++ leBytes 4 1 ++ leBytes 4 0
  let w := leBytes 8 0
  h ++ imageHash (h ++ List.replicate 48 0 ++ w) 16 ++ w

/-- The graph scene with channel 0 open for tenant 0 and seq 1 expected; page 3 is of class C and may hold an image that the library lists. -/
def packetScene (f : GInst → GInst := id) (image : List Byte := []) : State :=
  let s := withBytes (graphScene f) 0x30000 image
  let s1 := (s.modChan 0 0 fun c => { c with reg := BitVec.ofNat 512 (2 ^ 152 + 2 ^ 256) }).modPart 0 fun p =>
    { p with lib := [{ kind := 1, hash := imageHash image 16, signer := [] }] }
  { s1 with dev := { s1.dev with ident := 0x0F000000 }
            tum := { s1.tum with pot := s1.tum.pot.map fun x => if x.1 = 3 then (3, { x.2 with cls := if image = [] then 0 else 4 }) else x } }

/-- A packet of the expected seq, one of another revision; an open channel and a closed one. -/
theorem witness_packet :
    let p := hostPacket 1 1 []
    ((packetScene).chan 0 0).on = true ∧ leAt (packetBytes p) 0 2 = 1 ∧ leAt (packetBytes p) 4 4 = fld ((packetScene).chan 0 0).reg 287 256
      ∧ leAt (packetBytes (hostPacket 2 1 [])) 0 2 = 2 ∧ ((packetScene).chan 0 0).faulted = false ∧ (scene.chan 0 0).on = false
      ∧ ((packetScene.modChan 0 0 fun c => { c with faulted := true }).chan 0 0).faulted = true := by decide +kernel

/-- An install of object 3 on die 0 and of no object; an image that passes, and none at the address. -/
theorem witness_install :
    let body := leBytes 2 3 ++ leBytes 1 0 ++ leBytes 1 0 ++ leBytes 4 7 ++ leBytes 8 vaData.toNat ++ leBytes 8 0xFFFF000000000400 ++ leBytes 4 64 ++ leBytes 4 0
      ++ leBytes 8 0xFFFF000000000800
    let p := hostPacket 1 1 body
    let bs := packetBytes p
    let s1 := taken p (packetScene id endImage)
    let who : Who := packetWho 0 0 0
    leAt bs 16 2 = 3 ∧ leAt bs 18 1 < 4 ∧ s1.dev.ident.getLsbD 24 = true ∧ leAt bs 24 8 = vaData.toNat ∧ valueOf (s1.graphImage who vaData) = some (some [0])
      ∧ fine ((taken p packetScene).graphImage who vaData) = false ∧ leAt bs 40 4 = 64 ∧ s1.inGeneric who 0xFFFF000000000400 64 = true
      ∧ s1.inGeneric who 0xFFFF000000000800 512 = true ∧ s1.inGeneric who 0xFFFF800000000000 64 = false ∧ (∀ g ∈ s1.liveOf 0 0 3, g.ver = 0)
      ∧ s1.graphWords 0 0 3 + 1 ≤ 65536 := by decide +kernel

/-- Patch entries of a launch or a patch packet: one that is aligned and inside its block; none where an entry is malformed. -/
theorem witness_entries :
    let bs := leBytes 4 8 ++ leBytes 4 0 ++ leBytes 8 5
    entriesAt (packetScene id bs) (packetWho 0 0 0) vaData 0 64 [] ∧ (∀ l, ¬ entriesAt packetScene (packetWho 0 0 0) (vaData + 8) 1 64 l) := by
  refine ⟨⟨by decide, by decide, rfl, [], ?_, fun i h => absurd h (Nat.not_lt_zero i)⟩, ?_⟩
  · exact value_of (by decide +kernel)
  · rintro l ⟨h, _⟩
    exact absurd h (by decide)
theorem witness_entry :
    let bs := leBytes 4 8 ++ leBytes 4 0 ++ leBytes 8 5
    let s := { packetScene id bs with tum := (scene).tum }
    entriesAt s (packetWho 0 0 0) vaData 1 64 [(8, 5)] := by
  refine ⟨by decide, by decide, rfl, leBytes 4 8 ++ leBytes 4 0 ++ leBytes 8 5, value_of (by decide +kernel), fun i h => ?_⟩
  obtain rfl : i = 0 := by omega
  decide +kernel

/-- An object that a launch starts and one that is not installed; the instance that a handle names, with room for messages and without. -/
theorem witness_launch_packet :
    let o : GObj := { words := [0], block := 0xFFFF000000000400, bsize := 64, area := 0xFFFF000000000800 }
    let s := packetScene.modPart 0 fun p => { p with objs := assocSet p.objs (objKey 0 3) o }
    let x : Start := { part := 0, tenant := 0, chan := 0, die := 0, obj := 3 }
    (valueOf (s.startInst x)).map (·.1) = some 1 ∧ errorOf (packetScene.startInst x) = some 0x40 := by decide +kernel
theorem witness_handle :
    let h := 256
    let g := (packetScene).inst (h % 4) (h / 4 % 64)
    let full := packetScene fun g => { g with data := List.replicate 16 (1, 2), patches := List.replicate 16 (1, []) }
    (g.live = true ∧ g.gen = h / 256 % 2 ^ 24 ∧ g.part = 0 ∧ g.tenant = 0 ∧ g.data.length < 16 ∧ g.patches.length < 16)
      ∧ 16 ≤ (full.inst 0 0).data.length ∧ 16 ≤ (full.inst 0 0).patches.length ∧ ((packetScene).inst 0 1).live = false := by decide +kernel

/-! ## Registers, events, resets, the whole machine -/

/-- The rows of a write. -/
theorem witness_write_rows : (.rRegisterWrite, fun _ => True) ∈ writeRows := by simp [writeRows]

/-- The registers of a hit: none, staged, written. -/
def hitOf : Hit → Nat × List Reg
  | .none => (0, [])
  | .stage r _ => (1, [r.reg])
  | .write rs => (2, rs.map (·.1.reg))

/-- A write that takes effect, one that waits, one of a wrong size, at a misaligned offset, of a function whose partition is not enabled. -/
theorem witness_hits :
    let s := scene
    let w : RegWr := { fn := 1, off := 0x80, size := 8, val := 5 }
    (regAt 1 0x80 = some ⟨.lm 0, 0x80, 32⟩ ∧ 8 < 32 ∧ 0x80 + 8 < 0x80 + 32) ∧ hitOf (s.hit w) = (1, [.lm 0]) ∧ hitOf (s.hit { w with off := 0x98 }) = (2, [.lm 0])
      ∧ hitOf (s.hit { w with fn := 2 }) = (0, []) ∧ regAt 1 0x70 = some ⟨.colltmo 0, 0x70, 8⟩ ∧ s.enabled 0 = true ∧ s.enabled 1 = false
      ∧ ¬ ((2 : Nat) = 4 ∨ (2 : Nat) = 8) ∧ (0x84 : Nat) % 8 ≠ 0 := by decide +kernel

/-- A channel that a write creates, one that it leaves off, one that it closes, one whose head it moves, one it asks to resync. -/
theorem witness_channels :
    let s := scene
    let o := s.modChan 0 0 fun c => { c with reg := 2 ^ 152 }
    let v : BitVec 512 := BitVec.ofNat 512 (2 ^ 152 + 2 ^ 136)
    (0 < s.parts.length ∧ 0 < (s.part 0).chans.length ∧ (s.chan 0 0).reg.getLsbD 152 = false ∧ (s.chan 0 0).pending = [] ∧ v.getLsbD 152 = true ∧ v.getLsbD 224 = false
        ∧ fld v 151 136 = 1 ∧ s.enabled 0 = true)
      ∧ (fld (BitVec.ofNat 512 (2 ^ 152) : BitVec 512) 151 136 ≠ 1 ∧ (o.chan 0 0).reg.getLsbD 152 = true ∧ (o.chan 0 0).pending = []
        ∧ (0 : BitVec 512).getLsbD 152 = false ∧ (BitVec.ofNat 512 (2 ^ 152 + 2 ^ 224) : BitVec 512).getLsbD 224 = true) := by decide +kernel

/-- A partition write that is refused, one that disables the partition, one that takes a cluster away. -/
theorem witness_partition :
    let s := scene
    (s.partDie 0 0).part.getLsbD 32 = true ∧ (0x2FF : BitVec 512).getLsbD 32 = false ∧ 64 < fld (BitVec.ofNat 512 (2 ^ 16 + 64 * 2 ^ 22) : BitVec 512) 21 16 + fld (BitVec.ofNat 512 (2 ^ 16 + 64 * 2 ^ 22) : BitVec 512) 28 22
      ∧ ((List.range 16).all fun m => decide (m = 0) || (List.range 10).all fun c => !s.ownsCluster m 0 c) = true
      ∧ fld (0x1000003FE : BitVec 512) 21 16 + fld (0x1000003FE : BitVec 512) 28 22 = 0 ∧ (0x1000003FE : BitVec 512).getLsbD 32 = true ∧ s.ownsCluster 0 0 0 = true := by decide +kernel

/-- An invalidation whose ticket moves on, and one still under way. -/
theorem witness_invalidate :
    let s := scene
    let busy := s.modPartDie 0 0 fun r => { r with s1inv := 2 ^ 112, s2inv := 2 ^ 112 }
    fld (s.partDie 0 0).s1inv 127 112 = fld (s.partDie 0 0).s1inv 143 128 ∧ fld (s.partDie 0 0).s2inv 127 112 = fld (s.partDie 0 0).s2inv 143 128
      ∧ fld (2 ^ 112 : BitVec 512) 127 112 ≠ fld (s.partDie 0 0).s1inv 143 128 ∧ fld (busy.partDie 0 0).s1inv 127 112 ≠ fld (busy.partDie 0 0).s1inv 143 128
      ∧ fld (busy.partDie 0 0).s2inv 127 112 ≠ fld (busy.partDie 0 0).s2inv 143 128 ∧ 0 < (s.part 0).dies.length := by decide +kernel

/-- A lease fault of stage 1 that the lessee answers, and of stage 2 that the operator answers. -/
theorem witness_lfack :
    let t : Task := { sceneTask with state := .leaseWait, leaseFault := some 1 }
    let s := scene {} t
    s.task (fld (1 : BitVec 512) 31 0) = some t ∧ t.leaseFault = some 1 ∧ t.part = 1 - 1 ∧ ({ t with leaseFault := some 2 } : Task).leaseFault = some 2 := by decide +kernel

/-- The example of R425, worked out there: a ring of 4, changes to pages 0 to 5 of one sector each; the flip that ends the quiesce copies all six whole. -/
theorem witness_final_round :
    let lm : BitVec 256 := BitVec.ofNat 256 (0x100000 + 4 * 2 ^ 64 + 0x200000 * 2 ^ 112 + 2 ^ 176)
    let s := scene.modPart 0 fun p => { p with lm := lm }
    let pages := (List.range 6).map fun i => (i, ({ cls := 0, owner := 0 } : PotE))
    let u : State := (List.range 6).foldl (fun s i => s.logDirty 0 0 i [i]) { s with tum := { s.tum with pot := pages } }
    let full := (u.finalRound 0).map fun (m : Moved) => (m.page, m.mask.toNat)
    let named := ((u.modPart 0 fun p => { p with lm := setFld p.lm 177 177 0 }).finalRound 0).map fun (m : Moved) => (m.page, m.mask.toNat)
    (u.part 0).lm.getLsbD 177 = true ∧ full = (List.range 6).map (fun i => (i, 2 ^ 512 - 1)) ∧ named = (List.range 4).map fun i => (i, 2 ^ i) := by
  decide +kernel

/-- Writes of lm: a flip, a quiesce that was not set. -/
theorem witness_lm :
    (2 ^ 179 : BitVec 512).getLsbD 179 = true ∧ (2 ^ 179 : BitVec 512).getLsbD 180 = false ∧ (2 ^ 180 : BitVec 512).getLsbD 180 = true ∧ ((scene).part 0).lm.getLsbD 180 = false := by
  decide +kernel

/-- Ways of a retention register: twelve, the most, and one more than are left. -/
theorem witness_retain :
    let r := fun (v : BitVec 512) => take (0 : BitVec 192) v (bitMask 63 9 + bitMask 127 73 + bitMask 136 128)
    let sl := (scene).slice 0 0
    let full := sl.setRetain 1 (r (BitVec.ofNat 512 (2 ^ 73 + 2 ^ 128)))
    retWays (r (BitVec.ofNat 512 (2 ^ 73 + 12 * 2 ^ 128))) = 12 ∧ sl.total 0 + retOwns (r (BitVec.ofNat 512 (2 ^ 73 + 12 * 2 ^ 128))) ≤ 12
      ∧ 12 < full.total 0 + retOwns (r (BitVec.ofNat 512 (2 ^ 73 + 12 * 2 ^ 128))) := by decide +kernel

/-- A compression range that a write sets, one whose pair is not listed, one over a keyed page. -/
theorem witness_cmprange :
    let s := scene
    let new := fun (v : Nat) => setFld (take (0 : BitVec 320) (BitVec.ofNat 512 v) (bitMask 63 16 + bitMask 127 80 + bitMask 191 144 + bitMask 255 201 + bitMask 259 256)) 260 260 0
    let pair := fun (r : BitVec 320) => decide (fld r 259 258 ≤ 2 ∧ (fld r 257 256 ≤ 1 ∨ (fld r 257 256 = 2 ∧ fld r 259 258 = 0)))
    pair (new (2 ^ 80 + 2 ^ 256)) = true ∧ pair (new (2 ^ 80 + 3 * 2 ^ 258)) = false ∧ pair (new (2 ^ 80 + 2 ^ 257 + 2 ^ 258)) = false
      ∧ ((s.die 0).slices.all fun sl => sl.lines.isEmpty) = true ∧ (s.tum.pot.all fun y => decide (y.2.cls = 0)) = true := by decide +kernel

/-- A spill region that a partition owns, and one it does not; a save area with a task that holds it, and with none. -/
theorem witness_areas :
    let s := scene
    let v : BitVec 512 := BitVec.ofNat 512 (3 * 2 ^ 16 + 2 ^ 64)
    s.spillOwned 0 v = true ∧ s.spillOwned 1 v = false ∧ fld v 63 50 = 0 ∧ (s.part 0).vstat.getLsbD 63 = false ∧ sceneTask.state = .running
      ∧ ({ sceneTask with state := .loading } : Task).state = .loading := by decide +kernel

/-- A page migration of page 3 to page 5, which no partition owns: a leaf table at page 0 of the partition's stage 2. -/
def migScene (m : Mig := {}) (ev : Ev := .migrationRound 0 0) : State :=
  let s := during ev { scene with hbm := [(hbmKey 0 0, 3), (hbmKey 0 2, 3), (hbmKey 0 0x10000, 1), (hbmKey 0 0x10002, 2), (hbmKey 0 0x20000, 1)] }
  s.modDie 0 fun x => { x with mig := x.mig.set 0 m }

/-- A migration register of page 3 to page 5 with its leaf at address 0, in a state. -/
def migReg (state : Nat) : BitVec 256 := BitVec.ofNat 256 (3 * 2 ^ 16 + 5 * 2 ^ 80 + 8 * 2 ^ 192 + 4 * 2 ^ 200 + state * 2 ^ 204)

/-- A migration register that starts, one that is refused, one that already runs, one that only takes its fields. -/
theorem witness_mig_write :
    let s := migScene
    let r := migReg 0
    s.migOk 0 r = true ∧ (scene).migOk 0 r = false ∧ fld ((s.die 0).mig.getD 0 {}).reg 206 204 = 0 ∧ fld ((migReg 1).setWidth 512) 206 204 = 1
      ∧ fld (((migScene { reg := migReg 1 }).die 0).mig.getD 0 {}).reg 206 204 = 1 := by decide +kernel

/-- Rounds of a migration: before its time, a sector among others, the last sector; its final round; none under way. -/
theorem witness_migration :
    let s := migScene { reg := migReg 1, todo := [4, 5], due := 100 }
    let f := migScene { reg := migReg 2, due := 100 } (.migrationFinalRound 0 0)
    s.migPages (s.mig 0 0) = some ((0, 3), (0, 5)) ∧ fld (s.mig 0 0).reg 206 204 = 1 ∧ (s.mig 0 0).due ≤ s.cycle ∧ s.cycle < ({ reg := migReg 1, due := 101 } : Mig).due
      ∧ (s.mig 0 0).todo = [4, 5] ∧ f.migPages (f.mig 0 0) = some ((0, 3), (0, 5)) ∧ fld (f.mig 0 0).reg 206 204 = 2 ∧ (f.mig 0 0).due ≤ f.cycle
      ∧ fld (migReg 2) 206 204 ≠ 1 ∧ fld (migReg 1) 206 204 ≠ 2 := by decide +kernel

/-- Waits of an event: of a page with and without a dual copy, of an instance; a count that covers them and one that does not. -/
theorem witness_event_grant :
    let s := during (.eventGrant 0 16) (graphScene fun g => { g with phase := .queued })
    let q := fun (x : Waiter) (n : W32) => s.modEvent 0 16 fun e => { e with count := n, queue := [(x, 2)] }
    let d := (q (.page 1 0) 2).modTask 1 fun t => { t with dual := some 2 }
    (((q (.page 1 0) 2).part 0).event 16).queue = [(.page 1 0, 2)] ∧ (((q (.page 1 0) 2).part 0).event 16).count.toNat = 2 ∧ (((q (.page 1 0) 1).part 0).event 16).count.toNat < 2
      ∧ ((q (.page 1 0) 2).task 1).map (·.dual) = some none ∧ (d.task 1).map (·.dual) = some (some 2) ∧ ((q (.graph 0 0) 2).inst 0 0).phase = .queued := by decide +kernel

/-- A TLB of 32,768 entries, pinned or not. -/
theorem witness_full_tlb :
    let e : TlbE := { part := 0, tenant := 0, vpn := 9, lpn := 9, out := 9, wr := true }
    let d := fun (p : Bool) => scene.modDie 0 fun x => { x with tlb := List.replicate 32768 { e with pinned := p } }
    (∀ p, 32768 ≤ ((d p).die 0).tlb.length) ∧ (∃ y ∈ ((d false).die 0).tlb, y.pinned = false) ∧ (∀ y ∈ ((d true).die 0).tlb, y.pinned = true) ∧ 0 < (d true).dies.length := by
  refine ⟨fun p => ?_, ?_, ?_, by decide +kernel⟩
  · show 32768 ≤ (List.replicate 32768 _).length
    exact Nat.le_of_eq List.length_replicate.symm
  · refine ⟨{ part := 0, tenant := 0, vpn := 9, lpn := 9, out := 9, wr := true, pinned := false }, ?_, rfl⟩
    show _ ∈ List.replicate 32768 _
    rw [List.mem_replicate]; exact ⟨by omega, rfl⟩
  · intro y hy
    replace hy : y ∈ List.replicate 32768 _ := hy
    rw [List.mem_replicate] at hy; rw [hy.2]

/-- A walk that returns a translation, one that faults, one under way. -/
theorem witness_walk :
    let q : WalkReq := { part := 0, tenant := 0, vpn := 3 }
    let s := during (.remoteWalkComplete 0 q) (scene.modDie 0 fun x => { x with walks := [(100, q)] })
    fine (s.walk 0 0 0 3) = true ∧ fine (({ s with hbm := [] } : State).walk 0 0 0 3) = false ∧ (∃ y ∈ (s.die 0).walks, y.2 = q ∧ y.1 ≤ s.cycle)
      ∧ (s.die 0).tlb.length < 32768 ∧ ((100 : Nat), q).1 ≤ s.cycle ∧ (∀ y ∈ ((scene).die 0).walks, y.2 = q → (scene).cycle < y.1) := by decide +kernel

/-- An invalidation whose acknowledgement is due, and one that is not, of each stage. -/
theorem witness_inv_ack :
    let s := during (.invalidationAck 0 0 1) (scene.modDie 0 fun x => { x with invs := [{ part := 0, stage := 1, due := 100 }, { part := 0, stage := 2, due := 101 }] })
    (∃ i ∈ (s.die 0).invs, i.part = 0 ∧ i.stage = 1 ∧ i.due ≤ s.cycle) ∧ (∀ i ∈ (s.die 0).invs, i.part = 0 → i.stage = 2 → s.cycle < i.due) ∧ 0 < s.dies.length
      ∧ 0 < s.parts.length ∧ 0 < (s.part 0).dies.length := by decide +kernel

/-- A reduction on its way to the page of a covered entry holds the acknowledgement back, before and after the entries have gone. -/
theorem witness_inv_waits :
    let e : TlbE := { part := 0, tenant := 0, vpn := 3, lpn := 3, out := 3, wr := true }
    let red : RedEntry := { va := vaData, loc := .hbm 0 0x30000, cell := false, ty := 0, addends := [1] }
    let u := (scene.modCore 0 0 fun k => { k with redq := [red] }).modDie 0 fun x => { x with tlb := [e], invs := [{ part := 0, stage := 1, due := 100 }] }
    let s := u.modPartDie 0 0 fun r => { r with s1inv := setFld r.s1inv 127 112 1 }
    e.part = 0 ∧ invCovers 1 (s.partDie 0 0).s1inv e = true ∧ s.reaching 0 [e.out] = true ∧ (scene).reaching 0 [e.out] = false := by decide +kernel

/-- Link 0 secured to device 1. -/
def linked (s : State) : State := { s with dev := { s.dev with links := s.dev.links.set 0 (2 + 4) } }

/-- Device 0 of a domain, with link 0 to device 1. -/
def domainScene (s : State := scene) : State :=
  let s1 := linked s
  { s1 with dev := { s1.dev with domid := 0 } }

/-- Flits on a secured link of a domain and without one: to a translated address of the partition, to one that is not, one that the owner forwards, with and
without a permission of the page's owner; a bad one; a link that is not secured. -/
theorem witness_flits :
    let s := domainScene
    let wide := s.modDie 0 fun x => { x with tlb := [{ part := 0, tenant := 0, vpn := 3, lpn := 3, out := 4 * 2 ^ 32 + 3, wr := true }] }
    let here := fun (s : State) (wr : Bool) (va : W64) => match s.inbound 0 wr none va with
      | .ok (.here d pa) => (1, d, pa)
      | .ok (.onward _ _) => (2, 0, 0)
      | .error _ => (0, 0, 0)
    (fld (s.dev.links.getD 0 0) 1 0 = 2 ∧ fld s.dev.domid 13 0 ≠ 0x3FFF ∧ fld (linked scene).dev.domid 13 0 = 0x3FFF)
      ∧ here s true 0x0000000000030000 = (1, 0, 0x30000) ∧ here s false 0x0000000000030000 = (1, 0, 0x30000) ∧ here s true 0xFFFF800000000000 = (0, 0, 0)
      ∧ here wide true 0x0000000000030000 = (2, 0, 0)
      ∧ flitAsks (.read 0 0x30000 4) ≠ [] ∧ (s.localDie ((0x30000 : W64).toNat / 2 ^ 48) = some 0 ∧ fine (s.potCheck 0 0 .read false true 0 0x30000) = true
          ∧ fine (s.potCheck 1 16 .read false true 0 0x30000) = false)
      ∧ fld ((scene).dev.links.getD 0 0) 1 0 ≠ 2 ∧ (0x30000 : W64).toNat % 65536 + 4 ≤ 65536 ∧ ({ good := false, body := .signal 0 16 1 } : Flit).good = false := by
  decide +kernel

/-- A datagram in order on a secured port, and one out of order. -/
theorem witness_datagrams :
    let s : State := { scene with dev := { (scene).dev with links := (scene).dev.links.set 48 2 } }
    let x : Datagram := { qp := 5, seq := 0, addr := vaData, data := [1, 2] }
    fld (s.dev.links.getD (48 + 0) 0) 1 0 = 2 ∧ x.good = true ∧ x.seq = (assocGet s.dgrams x.qp).getD 0 ∧ ({ x with seq := 1 } : Datagram).seq ≠ (assocGet s.dgrams x.qp).getD 0
      ∧ fld ((scene).dev.links.getD 48 0) 1 0 ≠ 2 := by decide +kernel

/-- A task whose XLD has waited past the domain's limit for device 1, and before it; a graph word that has waited so; a key update after 2^32 flits. -/
theorem witness_domain :
    let u : HeldUnit := .seq 0
    let t : Task := { sceneTask with held := [(u, 4)] }
    let word : W64 := BitVec.ofNat 64 (0x0F * 2 ^ 56 + 2 ^ 46 + 2 ^ 32)
    let pg : Page := { seqMem := [word], nwords := 1, x := [0, 0x0004000000030000] ++ List.replicate 30 0 }
    let s : State := { scene pg t with cycle := 2 ^ 25, dev := { (scene).dev with domid := 0 }, noRoute := [1] }
    let g0 := graphScene fun g => { g with heldSince := some 4, g := g.g.set 1 0x0004000000030000, code := [BitVec.ofNat 64 (0x08 * 2 ^ 58 + 2 ^ 50)] }
    let g : State := { g0 with tasks := [], cycle := 2 ^ 25, dev := { g0.dev with domid := 0 }, noRoute := [1] }
    s.tasks = [(1, t)] ∧ (s.heldFor t u).map (·.1) = some 1 ∧ fld s.dev.domlto 31 0 = 0x4000 ∧ 4 + 0x4000 * 1024 ≤ s.cycle
      ∧ ({ s with cycle := 5 } : State).cycle < 4 + 0x4000 * 1024 ∧ (∀ d < 4, ∀ k < 64, (s.inst d k).heldSince = none)
      ∧ ((g.graphHeld 0 0).map (·.1) = some 1 ∧ (g.inst 0 0).heldSince = some 4 ∧ ∀ e < 4, ∀ j < 64, (e, j) ≠ (0, 0) → (g.inst e j).heldSince = none)
      ∧ 2 ^ 32 ≤ (assocGet [(3, 2 ^ 32)] 3).getD 0 ∧ (assocGet (scene).rxFlits 3).getD 0 < 2 ^ 32 := by decide +kernel

/-- A PCIe entry inside one sector of a partition's page, one that crosses a sector, one that is refused; a debug read when unlocked and locked. -/
theorem witness_pcie :
    let s := scene
    (vaData.toNat % 128 + 2 ≤ 128 ∧ s.fnPlace 1 vaData true = some (0, 0x30000)) ∧ 128 < (vaData + 127).toNat % 128 + 2 ∧ s.fnPlace 1 0xFFFF800000000000 true = none
      ∧ s.tum.debug = false ∧ ({ s.tum with debug := true } : Tumbler).debug = true ∧ HwSite.hbm 0 5 ∉ s.soft := by decide +kernel

/-- A firmware switch under way, before its deadline and at it. -/
theorem witness_firmware :
    let s : State := during .fwHeartbeat { scene with tum := { (scene).tum with fwDue := some 101 } }
    s.tum.fwDue = some 101 ∧ s.cycle < 101 ∧ ({ s with cycle := 101 } : State).cycle ≥ 101 := by decide +kernel

/-- Resets of a partition's function and of the device. -/
theorem witness_resets : (during (.vfFlr 0) scene).focus.ev = .vfFlr 0 ∧ 0 < (scene).parts.length ∧ (during .pf0Flr scene).focus.ev = .pf0Flr
    ∧ (during .coldReset scene).focus.ev = .coldReset := ⟨rfl, by decide, rfl, rfl⟩

/-- A well-formed instruction with an encoding, and a code that decodes. -/
theorem witness_encoding :
    (Instr.eAdd { d := 5, a := 3, b := 61, c := 0, fwd := 2, vm := 2, ty := 6 }).wf = true
      ∧ encode (.eAdd { d := 5, a := 3, b := 61, c := 0, fwd := 2, vm := 2, ty := 6 }) = some (.elem 0x04287E8056) := by decide +kernel

/-- Turns of each kind whose bits decode: the sequencer's word and its end, an element word, a graph word, a command and an unknown one, a packet, a write, an event, a landing. -/
theorem witness_turns :
    let s : State := { seqScene 0x0008000100000000 with agenda := [.seq 0] }
    let s0 : State := { s with agenda := [] }
    s0.seqRuns 0 = true ∧ (s.page 0).pc.toNat < (s.page 0).nwords ∧ (match decode (.seq ((s.page 0).seqMem.getD (s.page 0).pc.toNat 0)) with
        | .ok _ => true
        | .error _ => false) = true
      ∧ ((seqScene 0 { pc := 1 }).seqRuns 0 = true ∧ (scene { pc := 0 }).seqRuns 0 = true ∧ ((scene).page 0).nwords ≤ ((scene).page 0).pc.toNat) := by decide +kernel
theorem witness_word_turn :
    let t : Task := { sceneTask with waves := [{ at_ := 100, live := true, sched := false, slot := 0, tag := 0, iv := 0 }] }
    let s := scene { cores := { ctab := List.replicate 64 0x0004287E8056, hist := List.replicate 32 { live := true } } :: List.replicate 7 {} } t
    (s.wordFocus 0 0 0).isSome = true ∧ (match decode (.elem 0x04287E8056) with
      | .ok _ => true
      | .error _ => false) = true := by decide +kernel
theorem witness_graph_turn :
    let s := graphScene
    (s.inst 0 0).runs = true ∧ (s.inst 0 0).pc < (s.inst 0 0).code.length ∧ (match decode (.graph ((s.inst 0 0).code.getD (s.inst 0 0).pc 0)) with
      | .ok _ => true
      | .error _ => false) = true := by decide +kernel
theorem witness_command_turn :
    let s := (tumScene 1 [] 0).setTmbx 1 (BitVec.ofNat 128 (vaData.toNat + 2 ^ 64))
    let u := (tumScene 1 [] 0).setTmbx 1 (BitVec.ofNat 128 (vaData.toNat + 0xFF * 2 ^ 64))
    s.tum.queue.head? = some 1 ∧ fld (s.tmbx 1) 71 64 = 1 ∧ fld (u.tmbx 1) 71 64 = 0xFF := by decide +kernel
theorem witness_packet_turn :
    let s := packetScene.modChan 0 0 fun c => { c with reg := BitVec.ofNat 512 (2 ^ 152 + 2 ^ 192 + 2 ^ 256 + vaData.toNat) }
    (s.chan 0 0).takes = true ∧ (s.fnRead 1 (BitVec.ofNat 64 (fld (s.chan 0 0).reg 63 0 + 64 * ((s.chan 0 0).hhead % (s.chan 0 0).size))) 64).isSome = true
      ∧ (s.chan 0 0).queued = [] ∧ s.quiesced 0 = false
      ∧ (s.modPart 0 fun p => { p with lm := setFld p.lm 180 180 1 }).quiesced 0 = true := by
  decide +kernel
/-- A packet that its channel queued. -/
theorem witness_queued_packet :
    let s := packetScene.modChan 0 0 fun c => { c with queued := [0] }
    (s.chan 0 0).acts = true ∧ (s.chan 0 0).queued = [0] ∧ s.quiesced 0 = false := by decide +kernel
/-- Pintles that hold for a firmware switch. -/
theorem witness_pintles_hold : ({ scene with tum := { (scene).tum with hold := 101 } } : State).cycle < 101 := by decide +kernel

/-- A step that stops: bits of the sequencer plane that are no instruction of it. -/
theorem witness_stop : (match step { seqScene 0xFF00000000000000 with agenda := [.seq 0] } with
    | .fault (.reservedWord n) => n = 1
    | _ => False) := by
  have h : (match step { seqScene 0xFF00000000000000 with agenda := [.seq 0] } with
    | .fault (.reservedWord n) => n
    | _ => 99) = 1 := by decide +kernel
  revert h
  split <;> simp

/-- Memories in canonical form; a state that a step takes to another. -/
theorem witness_memory :
    Memory.wf [(3, (5 : Byte))] = true ∧ (scene).wellKept = true ∧ ((scene).die 0).cmprange.all (fun r => decide (fld r 257 256 = 0)) = true
      ∧ ((scene).part 0).lm.getLsbD 176 = false := by decide +kernel
theorem witness_step_next : ∃ t, step scene = .next t := ⟨_, rfl⟩

/-- A scalar word that runs. -/
theorem witness_scalar_frame : ∃ t, exec (.sXadd { xd := 3, xa := 1, mod := 1, imm := 12 }) (seqScene) = .next t := ⟨_, rfl⟩

/-! ## Single steps with results worked out by hand from the rules -/

/-- A field of the next state. -/
def after {α : Type} (o : Res) (f : State → α) : Option α :=
  match o with
  | .next t => some (f t)
  | _ => none

/-- The lanes of the newest result in flight on core 0 of page 0. -/
def newest (s : State) : Option (W32 × W32) :=
  ((s.core 0 0).flight.filterMap fun f => match f.act with
    | .result r => some (laneOf r.lanes 0, laneOf r.lanes 15)
    | _ => none).getLast?

/-- v0 holds x in every lane, v1 holds y. -/
def two (x y : W32) : State :=
  coreScene { v := { lanes := mkLanes fun _ => x, valid := 0xFFFF } :: { lanes := mkLanes fun _ => y, valid := 0xFFFF } :: List.replicate 38 {} }


/-- R106, R46: i32 wraps; R45: the elements of i8×4 do not carry into each other. -/
theorem test_add_wraps : after (exec (.eAdd { d := 8, a := 0, b := 1, ty := 0 }) (two 0xFFFFFFFF 2)) newest = some (some (1, 1)) := by decide +kernel
theorem test_add_bytes : after (exec (.eAdd { d := 8, a := 0, b := 1, ty := 6 }) (two 0x7FFF7F01 0x01010101)) newest = some (some (0x80008002, 0x80008002)) := by
  decide +kernel
theorem test_sub_borrows : after (exec (.eSub { d := 8, a := 0, b := 1, ty := 0 }) (two 1 2)) newest = some (some (0xFFFFFFFF, 0xFFFFFFFF)) := by decide +kernel
/-- The signed and the unsigned high half of -1 × 2. -/
theorem test_mulh : after (exec (.eMulh { d := 8, a := 0, b := 1, ty := 0 }) (two 0xFFFFFFFF 2)) newest = some (some (0xFFFFFFFF, 0xFFFFFFFF)) := by decide +kernel
theorem test_mulhu : after (exec (.eMulhu { d := 8, a := 0, b := 1, ty := 0 }) (two 0xFFFFFFFF 2)) newest = some (some (1, 1)) := by decide +kernel
/-- A signed and an unsigned comparison of -1 with 2. -/
theorem test_min_signed : after (exec (.eMin { d := 8, a := 0, b := 1, ty := 0 }) (two 0xFFFFFFFF 2)) newest = some (some (0xFFFFFFFF, 0xFFFFFFFF)) := by decide +kernel
theorem test_minu : after (exec (.eMinu { d := 8, a := 0, b := 1, ty := 0 }) (two 0xFFFFFFFF 2)) newest = some (some (2, 2)) := by decide +kernel
/-- 1.0 + 2^-24 lies halfway and goes to the even 1.0; 1.0 + 3 × 2^-24 goes up to the even 1.0 + 2^-22. -/
theorem test_fadd_even : after (exec (.eFadd { d := 8, a := 0, b := 1, ty := 1 }) (two 0x3F800000 0x33800000)) newest = some (some (0x3F800000, 0x3F800000)) := by
  decide +kernel
theorem test_fadd_up : after (exec (.eFadd { d := 8, a := 0, b := 1, ty := 1 }) (two 0x3F800000 0x34400000)) newest = some (some (0x3F800002, 0x3F800002)) := by
  decide +kernel
/-- (1 + 2^-12)^2 - (1 + 2^-11) = 2^-24, rounded once. -/
theorem test_fma_once :
    after (exec (.eFma { d := 8, a := 0, b := 0, c := 1, ty := 1 }) (two 0x3F800800 0xBF801000)) newest = some (some (0x33800000, 0x33800000)) := by decide +kernel

/-! Sequencer and graph words. -/

/-- Register n of page 0. -/
def xr (n : Nat) (s : State) : W64 := (s.page 0).x.getD n 0

theorem test_xadd : after (exec (.sXadd { xd := 5, xa := 1, mod := 1, imm := 0xFFFFFFFF }) (seqScene)) (xr 5) = some 0xFFFF00000002FFFF := by decide +kernel
theorem test_xsub_wraps : after (exec (.sXsub { xd := 5, xa := 0, xb := 3 }) (seqScene)) (xr 5) = some 0xFFFFFFFFFFFF0000 := by decide +kernel
theorem test_xli_sign : after (exec (.sXli { xd := 5, mod := 1, imm := 0x80000000 }) (seqScene)) (xr 5) = some 0xFFFFFFFF80000000 := by decide +kernel
theorem test_x0_stays : after (exec (.sXadd { xd := 0, xa := 1, mod := 1, imm := 1 }) (seqScene)) (fun s => (xr 0 s, (s.page 0).pc)) = some (0, 1) := by decide +kernel
theorem test_halt : after (exec (.sHalt { imm := 7 }) (seqScene)) (fun s => ((s.page 0).halted, (s.page 0).pc)) = some (some 7, 0) := by decide +kernel
theorem test_gsub : after (exec (.gGsub { gd := 4, ga := 3, gb := 2 }) graphScene) (fun s => ((s.inst 0 0).g.getD 4 0, (s.inst 0 0).pc)) = some (0xFFFFFFFFFFFF0005, 1) := by
  decide +kernel
theorem test_gcmp_signed : after (exec (.gGcmp { gd := 4, ga := 1, gb := 3, mod := 2 * 2 }) graphScene) (fun s => (s.inst 0 0).g.getD 4 0) = some 1 := by decide +kernel

/-- R303, R396: a request whose translation is not held starts one walk of its page and waits for it; a second request joins that walk; a held
translation costs nothing. -/
theorem test_walks :
    let w : Who := { part := 0, tenant := 0, home := 0, die := 0, port := 0 }
    let r := scene.noteWalk w 0xFFFF000000030000
    let q := r.1.noteWalk w 0xFFFF000000030040
    let e : TlbE := { part := 0, tenant := 0, vpn := 3, lpn := 3, out := 3, wr := true }
    r.2 = 400 ∧ (r.1.die 0).walks.length = 1 ∧ q.2 = 400 ∧ (q.1.die 0).walks.length = 1
      ∧ ((scene.modDie 0 fun x => { x with tlb := [e] }).noteWalk w 0xFFFF000000030000).2 = 0 := by decide +kernel
end Sys2Proof.Tests
end

section
/-! PROOF. The byte memory (log 2): a byte reads as last written, and two canonical memories that read alike are equal. A commit to HBM
writes its bytes, but first turns the ciphertext of every save slot page it touches into ordinary bytes (R383, log 25), so the other bytes of
such a page do not keep what the storage held under the ciphertext. -/
namespace Sys2Proof.Machine

/-! Reading after writing. -/

/-- A byte reads as it was last written; every other byte reads as before. -/
theorem cellGet_cellSet {m : List Host.Cell} (a x : Nat) (b : Byte) (w : Memory.wf m = true) :
    cellGet (cellSet m a b) x = if x = a then b else cellGet m x := by
  suffices all : ∀ {m : List Host.Cell} {n : Nat}, cellsFrom n m = true → cellGet (cellSet m a b) x = if x = a then b else cellGet m x from all w
  intro m n w
  induction m generalizing n with
  | nil => grind [cellGet, cellSet]
  | cons c r ih =>
    obtain ⟨k, v⟩ := c
    simp only [cellsFrom, Bool.and_eq_true, decide_eq_true_eq] at w
    obtain ⟨-, hr⟩ := w
    have below : x ≤ k → cellGet r x = 0 := fun h => cellGet_below (by omega) hr
    have tail := ih hr
    rcases Nat.lt_trichotomy a k with before | same | after
    · grind [cellGet, cellSet]
    · grind [cellGet, cellSet]
    · rw [cellSet, if_neg (by omega), if_neg (by omega), cellGet, cellGet, tail]
      grind

/-- Bytes written from an address on read as written; every other byte reads as before. -/
theorem cellGet_cellsWrite {m : List Host.Cell} (a x : Nat) (bs : List Byte) (w : Memory.wf m = true) :
    cellGet (cellsWrite m a bs) x = if a ≤ x ∧ x < a + bs.length then bs.getD (x - a) 0 else cellGet m x := by
  induction bs generalizing m a with
  | nil => rw [if_neg (by simp)]; rfl
  | cons b r ih =>
    rw [cellsWrite, ih (a + 1) (wf_cellSet a b w), cellGet_cellSet a x b w, List.length_cons]
    rcases Nat.lt_trichotomy x a with h | rfl | h
    · rw [if_neg (by omega), if_neg (by omega), if_neg (by omega)]
    · rw [if_neg (by omega), if_pos rfl, if_pos (by omega), Nat.sub_self, List.getD_cons_zero]
    · obtain ⟨i, rfl⟩ : ∃ i, x = a + 1 + i := ⟨x - (a + 1), by omega⟩
      rw [show a + 1 + i - (a + 1) = i by omega, show a + 1 + i - a = i + 1 by omega, List.getD_cons_succ, if_neg (by omega : ¬ a + 1 + i = a)]
      exact ite_congr (propext (by omega)) (fun _ => rfl) (fun _ => rfl)

/-- Two memories in canonical form that read alike are equal. -/
theorem eq_of_cellGet_eq {m n : List Host.Cell} (wm : Memory.wf m = true) (wn : Memory.wf n = true)
    (h : ∀ x, cellGet m x = cellGet n x) : m = n := by
  suffices all : ∀ {m n : List Host.Cell} {k : Nat}, cellsFrom k m = true → cellsFrom k n = true → (∀ x, cellGet m x = cellGet n x) → m = n from
    all wm wn h
  intro m n k wm wn h
  induction m generalizing n k with
  | nil =>
    cases n with
    | nil => rfl
    | cons c r =>
      obtain ⟨a, v⟩ := c
      have := h a
      simp_all [cellsFrom, cellGet]
  | cons c r ih =>
    obtain ⟨a, v⟩ := c
    cases n with
    | nil =>
      have := h a
      simp_all [cellsFrom, cellGet]
    | cons c' r' =>
      obtain ⟨a', v'⟩ := c'
      simp only [cellsFrom, Bool.and_eq_true, decide_eq_true_eq] at wm wn
      obtain ⟨⟨-, hv⟩, wr⟩ := wm
      obtain ⟨⟨-, hv'⟩, wr'⟩ := wn
      have first : a = a' := by
        have ha := h a
        have ha' := h a'
        grind [cellGet]
      subst first
      have value : v = v' := by simpa [cellGet] using h a
      have rest : r = r' := ih wr wr' fun x => by
        rcases Nat.lt_or_ge a x with hx | hx
        · have hx' := h x
          grind [cellGet]
        · rw [cellGet_below (by omega) wr, cellGet_below (by omega) wr']
      rw [value, rest]

/-! Storage of bytes on a die without compression ranges. -/

/-- No compression range of the die is on (R293). -/
def State.Uncompressed (s : State) (d : Nat) : Prop := ∀ r ∈ (s.die d).cmprange, fld r 257 256 = 0

theorem State.Uncompressed.cmpAt_eq_none {s : State} {d : Nat} (h : s.Uncompressed d) (pa : Nat) : s.cmpAt d pa = none := by
  have off : (s.die d).cmpAt pa = none := by
    simp only [Die.cmpAt, Option.map_eq_none_iff, List.find?_eq_none]
    rintro ⟨r, i⟩ hr
    simp [h r (List.fst_mem_of_mem_zipIdx hr)]
  unfold State.cmpAt
  split
  · rfl
  · exact off

/-- Bytes given their physical addresses from pa on. -/
def placed (pa : Nat) (bs : List Byte) : List (Nat × Byte) := bs.zipIdx.map fun x => (pa + x.2, x.1)

theorem placed_cons (pa : Nat) (b : Byte) (bs : List Byte) : placed pa (b :: bs) = (pa, b) :: placed (pa + 1) bs := by
  simp [placed, List.zipIdx_succ, Nat.add_assoc, Nat.add_comm 1]

/-- Storing placed bytes one by one writes them from their storage address on. -/
theorem foldl_cellSet_placed (d pa : Nat) (bs : List Byte) (m : List Host.Cell) :
    (placed pa bs).foldl (fun h x => cellSet h (hbmKey d x.1) x.2) m = cellsWrite m (hbmKey d pa) bs := by
  induction bs generalizing m pa with
  | nil => rfl
  | cons b r ih => rw [placed_cons, List.foldl_cons, ih, cellsWrite, hbmKey, hbmKey, Nat.add_assoc]

theorem State.putBytes_placed {s : State} {d : Nat} (h : s.Uncompressed d) (pa : Nat) (bs : List Byte) :
    s.putBytes d (placed pa bs) = { s with hbm := cellsWrite s.hbm (hbmKey d pa) bs } := by
  have plain : ((placed pa bs).filter fun x => (s.cmpAt d x.1).isNone) = placed pa bs := by simp [h.cmpAt_eq_none]
  have lines : ((placed pa bs).filterMap fun x => (s.cmpAt d x.1).map fun y => (y.1, y.2, (x.1 - fld y.2 63 0) / 512)) = [] := by
    simp [h.cmpAt_eq_none]
  simp only [State.putBytes, plain, lines, foldl_cellSet_placed]
  rfl

/-! Save slot pages that a write touches (R383). -/

/-- The ciphertext that page i of a save slot shows. -/
def slotPageBytes (tid i gen : Nat) : List Byte := (List.range 65536).map fun j => Config.saveCipher tid (i * 65536 + j) gen

theorem cipherBytes_eq_placed (key tid i gen : Nat) : cipherBytes key tid i gen = placed (key % 2 ^ 32 * 65536) (slotPageBytes tid i gen) := by
  unfold cipherBytes
  apply List.ext_getElem <;> simp [placed, slotPageBytes]

/-- The save slot pages that hold one of the addresses. -/
def touchedSlots (img : List (Nat × Nat × Nat × Nat)) (d : Nat) (pas : List Nat) : List (Nat × Nat × Nat × Nat) :=
  img.filter fun x => pas.any fun pa => decide (x.1 = pageKey d (pa / 65536))

/-- A memory after the ciphertext of one save slot page has become ordinary bytes of a die. -/
def showSlot (d : Nat) (m : List Host.Cell) (x : Nat × Nat × Nat × Nat) : List Host.Cell :=
  cellsWrite m (hbmKey d (x.1 % 2 ^ 32 * 65536)) (slotPageBytes x.2.1 x.2.2.1 x.2.2.2)

theorem wf_showSlot (d : Nat) (x : Nat × Nat × Nat × Nat) {m : List Host.Cell} (w : Memory.wf m = true) : Memory.wf (showSlot d m x) = true :=
  wf_cellsWrite _ _ w

/-- Byte j of a page whose ciphertext has become ordinary bytes. -/
theorem cellGet_showSlot {m : List Host.Cell} (w : Memory.wf m = true) (d key tid i gen : Nat) {j : Nat} (h : j < 65536) :
    cellGet (showSlot d m (key, tid, i, gen)) (hbmKey d (key % 2 ^ 32 * 65536) + j) = Config.saveCipher tid (i * 65536 + j) gen := by
  have shown : (slotPageBytes tid i gen).getD j 0 = Config.saveCipher tid (i * 65536 + j) gen := by simp [slotPageBytes, h]
  have size : (slotPageBytes tid i gen).length = 65536 := by simp [slotPageBytes]
  simp only [showSlot]
  rw [cellGet_cellsWrite _ _ _ w, if_pos (by omega), Nat.add_sub_cancel_left, shown]

theorem State.unveilPage_eq {s : State} {d : Nat} (h : s.Uncompressed d) (key tid i gen : Nat) :
    s.unveilPage d key tid i gen = { s with slotImg := s.slotImg.filter fun y => decide (y.1 ≠ key)
                                            hbm := showSlot d s.hbm (key, tid, i, gen) } := by
  have h' : ({ s with slotImg := s.slotImg.filter fun y => decide (y.1 ≠ key) } : State).Uncompressed d := h
  rw [State.unveilPage, cipherBytes_eq_placed, showSlot]
  generalize slotPageBytes tid i gen = bs
  exact State.putBytes_placed h' _ bs

/-- Steps that change the memory and the list of save slot pages alone change these alone together. -/
theorem State.foldl_hbm_slotImg {α : Type} {d : Nat} {f : State → α → State} {g : List Host.Cell → α → List Host.Cell}
    (hf : ∀ (s : State) x, s.Uncompressed d → ∃ img, f s x = { s with hbm := g s.hbm x, slotImg := img }) (l : List α) {s : State}
    (h : s.Uncompressed d) : ∃ img, l.foldl f s = { s with hbm := l.foldl g s.hbm, slotImg := img } := by
  induction l generalizing s with
  | nil => exact ⟨s.slotImg, rfl⟩
  | cons x l ih =>
    obtain ⟨img, first⟩ := hf s x h
    have h' : ({ s with hbm := g s.hbm x, slotImg := img } : State).Uncompressed d := h
    rw [List.foldl_cons, List.foldl_cons, first]
    exact ih h'

/-- What a write shows of save slots changes the memory and the list of save slot pages alone. -/
theorem State.unveil_eq {s : State} {d : Nat} (h : s.Uncompressed d) (pas : List Nat) :
    ∃ img, s.unveil d pas = { s with hbm := (touchedSlots s.slotImg d pas).foldl (showSlot d) s.hbm, slotImg := img } :=
  State.foldl_hbm_slotImg (fun _ x u => ⟨_, State.unveilPage_eq u x.1 x.2.1 x.2.2.1 x.2.2.2⟩) _ h

/-! What a commit leaves of the storage before it writes. -/

/-- What a change keeps of an element, it keeps of every element of the list. -/
theorem getD_modAt_of_keeps {α β : Type} (g : α → β) {f : α → α} (keeps : ∀ a, g (f a) = g a) (l : List α) (i k : Nat) (a : α) :
    g ((modAt l i f).getD k a) = g (l.getD k a) := by
  induction l generalizing i k with
  | nil => rfl
  | cons b r ih =>
    cases i with
    | zero => cases k <;> simp [modAt, keeps]
    | succ i => cases k with
      | zero => rfl
      | succ k => exact ih i k

/-- Two states with the same bytes of HBM, save slot pages, compression ranges and dirty log registers. -/
structure State.SameStorage (s t : State) : Prop where
  hbm : t.hbm = s.hbm
  slotImg : t.slotImg = s.slotImg
  cmprange : ∀ d, (t.die d).cmprange = (s.die d).cmprange
  lm : ∀ n, (t.part n).lm = (s.part n).lm

namespace State.SameStorage

theorem refl (s : State) : s.SameStorage s := ⟨rfl, rfl, fun _ => rfl, fun _ => rfl⟩

theorem trans {s t u : State} (h : s.SameStorage t) (k : t.SameStorage u) : s.SameStorage u :=
  ⟨k.hbm.trans h.hbm, k.slotImg.trans h.slotImg, fun d => (k.cmprange d).trans (h.cmprange d), fun n => (k.lm n).trans (h.lm n)⟩

theorem of_eq {s t : State} (hbm : t.hbm = s.hbm) (slotImg : t.slotImg = s.slotImg) (dies : t.dies = s.dies) (parts : t.parts = s.parts) :
    s.SameStorage t :=
  ⟨hbm, slotImg, fun d => by simp [State.die, dies], fun n => by simp [State.part, parts]⟩

theorem foldl {α : Type} {f : State → α → State} (l : List α) (hf : ∀ (s : State) x, s.SameStorage (f s x)) (s : State) :
    s.SameStorage (l.foldl f s) :=
  List.foldlRecOn l f (refl s) fun _ h x _ => h.trans (hf _ x)

theorem modPart (s : State) (n : Nat) {f : Part → Part} (keeps : ∀ p, (f p).lm = p.lm) : s.SameStorage (s.modPart n f) :=
  ⟨rfl, rfl, fun _ => rfl, fun k => getD_modAt_of_keeps Part.lm keeps s.parts n k {}⟩

theorem modDie (s : State) (n : Nat) {f : Die → Die} (keeps : ∀ x, (f x).cmprange = x.cmprange) : s.SameStorage (s.modDie n f) :=
  ⟨rfl, rfl, fun k => getD_modAt_of_keeps Die.cmprange keeps s.dies n k {}, fun _ => rfl⟩

theorem modTask (s : State) (n : Nat) (f : Task → Task) : s.SameStorage (s.modTask n f) := of_eq (by simp) (by simp) (by simp) (by simp)

theorem raise (s : State) (n : Nat) (c : Cause) : s.SameStorage (s.raise n c) := of_eq (by simp) (by simp) (by simp) (by simp)

theorem displace (s : State) (d sector k : Nat) : s.SameStorage (s.displace d sector k) := modDie s d fun _ => rfl

/-- The list of version sectors is no part of the storage. -/
theorem setVsects {s t : State} (h : s.SameStorage t) (vs : List VSect) : s.SameStorage { t with vsects := vs } :=
  h.trans (of_eq rfl rfl rfl rfl)

theorem addSector {s t : State} {v : VSect} (h : s.addSector v = some t) : s.SameStorage t := by
  unfold State.addSector at h
  dsimp only at h
  split at h
  · obtain rfl := Option.some.inj h
    exact (displace ..).setVsects _
  · split at h
    · obtain rfl := Option.some.inj h
      exact ((refl s).setVsects _).trans (modPart _ _ fun _ => rfl)
    · cases h

theorem countVofl (s : State) (part : Nat) : s.SameStorage (s.countVofl part) := modPart s part fun _ => rfl

theorem needSnapshot (s : State) (part d k : Nat) (not : List Nat) : s.SameStorage (s.needSnapshot part d k not).1 := by
  unfold State.needSnapshot
  split
  · exact refl s
  · split
    · rename_i h
      exact addSector h
    · refine foldl _ (fun s t => ?_) s
      split
      · exact (countVofl s part).trans (raise ..)
      · exact modTask ..

theorem needSnapshots (s : State) (part d : Nat) (pas not : List Nat) : s.SameStorage (s.needSnapshots part d pas not).1 :=
  List.foldlRecOn (motive := fun x : State × Bool => s.SameStorage x.1) _ _ (refl s) fun _ h x _ => h.trans (needSnapshot _ part d x not)

theorem snapshot (s : State) (part d : Nat) (pas not : List Nat) : s.SameStorage (s.snapshot part d pas not) := of_eq rfl rfl rfl rfl

theorem tamper (s : State) (d : Nat) (pas : List Nat) : s.SameStorage (s.tamper d pas) := by
  unfold State.tamper
  split
  · exact of_eq rfl rfl rfl rfl
  · exact refl s

theorem mend (s : State) (d : Nat) (bs : List (Nat × Byte)) : s.SameStorage (s.mend d bs) := by
  unfold State.mend
  split
  · exact refl s
  · exact of_eq rfl rfl rfl rfl

theorem markMig (s : State) (d page : Nat) (ks : List Nat) : s.SameStorage (s.markMig d page ks) := modDie s d fun _ => rfl

theorem uncompressed {s t : State} (h : s.SameStorage t) {d : Nat} (u : s.Uncompressed d) : t.Uncompressed d := by
  unfold State.Uncompressed
  rw [h.cmprange d]
  exact u

end State.SameStorage

/-! A commit to HBM. -/

/-- With the partition's dirty log off nothing is logged (R424). -/
theorem State.logDirty_of_off {s : State} {part : Nat} (h : (s.part part).lm.getLsbD 176 = false) (d page : Nat) (ks : List Nat) :
    s.logDirty part d page ks = s := by
  simp only [State.logDirty, h, Bool.false_eq_true, if_false]

/-- Without compression a change alters the bytes it names (R295). -/
theorem State.altered_of_uncompressed {s : State} {d : Nat} (u : s.Uncompressed d) (bs : List (Nat × Byte)) :
    s.altered d bs = bs.map (·.1) := by
  simp [State.altered, u.cmpAt_eq_none]

/-- Storing bytes shows the save slot pages they touch and then writes them; of the rest only error sites change. -/
theorem State.store_placed {s : State} {d : Nat} (u : s.Uncompressed d) (pa : Nat) (bs : List Byte) :
    ∃ img, s.store d (placed pa bs) =
      { s.mend d (placed pa bs) with
        hbm := cellsWrite ((touchedSlots s.slotImg d ((placed pa bs).map (·.1))).foldl (showSlot d) s.hbm) (hbmKey d pa) bs, slotImg := img } := by
  have same := State.SameStorage.mend s d (placed pa bs)
  obtain ⟨img, shown⟩ := State.unveil_eq (same.uncompressed u) ((placed pa bs).map (·.1))
  refine ⟨img, ?_⟩
  have u' : ({ s.mend d (placed pa bs) with
      hbm := (touchedSlots s.slotImg d ((placed pa bs).map (·.1))).foldl (showSlot d) s.hbm, slotImg := img } : State).Uncompressed d :=
    same.uncompressed u
  rw [State.store, shown, same.hbm, same.slotImg, State.putBytes_placed u']

/-- The dirty log being off, what follows the storage of a commit leaves the storage alone (R405, R424). -/
theorem State.SameStorage.logs {s : State} {part : Nat} (off : (s.part part).lm.getLsbD 176 = false) (d : Nat) (secs : Nat → List Nat)
    (pages : List Nat) : s.SameStorage (pages.foldl (fun s pg => (s.logDirty part d pg (secs pg)).markMig d pg (secs pg)) s) :=
  List.foldlRecOn pages _ (refl s) fun t h pg _ => by
    rw [State.logDirty_of_off (by rw [h.lm part]; exact off)]
    exact h.trans (markMig ..)

/-- A commit shows the save slot pages it touches and then writes its bytes. -/
theorem State.commitLoc_hbm {s : State} {part d : Nat} (u : s.Uncompressed d) (off : (s.part part).lm.getLsbD 176 = false) (pa : Nat)
    (bs : List Byte) : (s.commitLoc part (.hbm d pa) bs).hbm =
      cellsWrite ((touchedSlots s.slotImg d ((placed pa bs).map (·.1))).foldl (showSlot d) s.hbm) (hbmKey d pa) bs := by
  change (s.commitBytes part d (placed pa bs)).hbm = _
  simp only [State.commitBytes, State.altered_of_uncompressed u]
  generalize hpas : (placed pa bs).map (·.1) = pas
  generalize hs1 : ((s.needSnapshots part d pas []).1.snapshot part d pas []).tamper d pas = s1
  have before : s.SameStorage s1 :=
    hs1 ▸ ((SameStorage.needSnapshots ..).trans (SameStorage.snapshot ..)).trans (SameStorage.tamper ..)
  obtain ⟨img, stored⟩ := State.store_placed (before.uncompressed u) pa bs
  have log : ((s1.store d (placed pa bs)).part part).lm = (s.part part).lm := by
    rw [stored]
    exact (before.trans (SameStorage.mend ..)).lm part
  rw [(SameStorage.logs (log ▸ off) d _ _).hbm, stored, before.hbm, before.slotImg, hpas]

/-! Save slot pages in the way of a commit. -/

/-- A commit that touches no save slot page writes its bytes and no other byte. -/
theorem State.cellGet_commitLoc_of_no_slot {s : State} {part d pa : Nat} {bs : List Byte} (w : Memory.wf s.hbm = true) (u : s.Uncompressed d)
    (off : (s.part part).lm.getLsbD 176 = false) (free : touchedSlots s.slotImg d ((placed pa bs).map (·.1)) = []) (k : Nat) :
    cellGet (s.commitLoc part (.hbm d pa) bs).hbm k
      = if hbmKey d pa ≤ k ∧ k < hbmKey d pa + bs.length then bs.getD (k - hbmKey d pa) 0 else cellGet s.hbm k := by
  rw [State.commitLoc_hbm u off, free]
  exact cellGet_cellsWrite _ k bs w

/-- A save has written page 0 of die 0 (R383), and the storage under the ciphertext of its byte 1 holds another value. -/
def savedPage : State := { ({} : State).writeSlot 0 0 [(0, 0)] with hbm := cellSet [] 1 (Config.saveCipher 0 1 0 + 1) }

theorem savedPage_slotImg : savedPage.slotImg = [(pageKey 0 0, 0, 0, 0)] := by simp [savedPage, State.writeSlot]

theorem savedPage_wf : Memory.wf savedPage.hbm = true := wf_cellSet 1 _ rfl

/-- Every field of a zero register is zero. -/
theorem fld_zero {n : Nat} (hi lo : Nat) : fld (0 : BitVec n) hi lo = 0 := by simp [fld, bitsOf]

theorem savedPage_uncompressed : savedPage.Uncompressed 0 := by
  have ranges : (savedPage.die 0).cmprange = List.replicate 8 0 := rfl
  intro r hr
  rw [ranges] at hr
  rw [List.eq_of_mem_replicate hr, fld_zero]

theorem savedPage_log_off : (savedPage.part 0).lm.getLsbD 176 = false := by
  have zero : (savedPage.part 0).lm = 0 := rfl
  rw [zero]
  exact BitVec.getLsbD_zero

/-- A commit of byte 0 of that page makes byte 1 the ciphertext that the page showed. -/
theorem cellGet_commitLoc_savedPage : cellGet (savedPage.commitLoc 0 (.hbm 0 0) [0]).hbm 1 = Config.saveCipher 0 1 0 := by
  have touched : touchedSlots savedPage.slotImg 0 ((placed 0 [0]).map (·.1)) = [(pageKey 0 0, 0, 0, 0)] := by
    simp [savedPage_slotImg, touchedSlots, placed]
  rw [State.commitLoc_hbm savedPage_uncompressed savedPage_log_off, touched, List.foldl_cons, List.foldl_nil,
    cellGet_cellsWrite _ _ _ (wf_showSlot _ _ savedPage_wf), if_neg (by simp [hbmKey])]
  exact cellGet_showSlot savedPage_wf 0 (pageKey 0 0) 0 0 0 (j := 1) (by omega)

/-- Refutes O57: its first three clauses hold (`cellGet_cellSet`, `cellGet_cellsWrite`, `eq_of_cellGet_eq`); its last fails in a state where a
save has written a page of HBM. A commit into that page turns the page's ciphertext into ordinary bytes (R383, log 25), so the storage of
the bytes beside the written one changes. The clause holds where no save slot page is touched (`State.cellGet_commitLoc_of_no_slot`). -/
theorem not_memoryReadsWhatWasWritten : ¬ Obligations.MemoryReadsWhatWasWritten := by
  unfold Obligations.MemoryReadsWhatWasWritten
  rintro ⟨-, -, -, commits⟩
  have kept := commits savedPage 0 0 0 [0] savedPage_wf savedPage_uncompressed savedPage_log_off 1
  rw [cellGet_commitLoc_savedPage, if_neg (by simp [hbmKey]), savedPage, cellGet_cellSet 1 1 _ rfl, if_pos rfl] at kept
  simp at kept

end Sys2Proof.Machine
end

section
/-! PROOF. What a word with one result per lane delivers (R21, R94, R95). -/
namespace Sys2Proof.Machine
open Sys2Proof.Claims

/-! Lanes, bits and flags of a result. -/

/-- Lane 0 of a value is its lowest word, lane i is lane i - 1 of the part above it. -/
theorem extractLane_append {n i : Nat} {x : BitVec n} {y v : W32} (lowest : i = 0 → y = v)
    (above : i ≠ 0 → x.extractLsb' (32 * (i - 1)) 32 = v) :
    (x ++ y).extractLsb' (32 * i) 32 = v := by
  cases i with
  | zero => rw [BitVec.extractLsb'_append_eq_of_add_le (by omega), Nat.mul_zero, BitVec.extractLsb'_eq_self, lowest rfl]
  | succ i => rw [BitVec.extractLsb'_append_eq_of_le (by omega), Nat.mul_succ, Nat.add_sub_cancel, ← above (by omega), Nat.add_sub_cancel]

theorem laneOf_mkLanes (f : Nat → W32) {i : Nat} (h : i < 16) : laneOf (mkLanes f) i = f i := by
  unfold laneOf mkLanes
  iterate 15 refine extractLane_append (fun _ => congrArg f (by omega)) fun _ => ?_
  obtain rfl : i = 15 := by omega
  exact BitVec.extractLsb'_eq_self

/-- The number whose bit i is f i, for the bits below n. -/
def bitSum (f : Nat → Bool) (n : Nat) : Nat := (List.range n).foldl (fun m i => m + (f i).toNat * 2 ^ i) 0

theorem bitSum_succ (f : Nat → Bool) (n : Nat) : bitSum f (n + 1) = 2 ^ n * (f n).toNat + bitSum f n := by
  rw [bitSum, List.range_succ, List.foldl_append, List.foldl_cons, List.foldl_nil, Nat.add_comm, Nat.mul_comm]
  rfl

theorem bitSum_lt (f : Nat → Bool) (n : Nat) : bitSum f n < 2 ^ n := by
  induction n with
  | zero => exact Nat.one_pos
  | succ n ih =>
    rw [bitSum_succ, Nat.pow_succ]
    have top : 2 ^ n * (f n).toNat ≤ 2 ^ n * 1 := Nat.mul_le_mul_left _ (Bool.toNat_le _)
    omega

theorem testBit_bitSum (f : Nat → Bool) {n i : Nat} (h : i < n) : (bitSum f n).testBit i = f i := by
  induction n with
  | zero => omega
  | succ n ih =>
    rw [bitSum_succ, Nat.testBit_two_pow_mul_add _ (bitSum_lt f n)]
    split
    · exact ih ‹_›
    · obtain rfl : i = n := by omega
      rw [Nat.sub_self]
      cases f i <;> rfl

theorem getLsbD_mkBits (f : Nat → Bool) {i : Nat} (h : i < 16) : (mkBits f).getLsbD i = f i := by
  have bits : mkBits f = BitVec.ofNat 16 (bitSum f 16) := rfl
  rw [bits, BitVec.getLsbD_ofNat, testBit_bitSum f h, decide_eq_true h, Bool.true_and]

/-- A flag is raised when it was raised before or a lane whose effect occurs raises it. -/
theorem getLsbD_foldl_flags (l : List Nat) (eff : Nat → Bool) (g : Nat → FlagSet) (f : FlagSet) (k : Nat) :
    (l.foldl (fun f i => if eff i then f ||| g i else f) f).getLsbD k = (f.getLsbD k || l.any fun i => eff i && (g i).getLsbD k) := by
  induction l generalizing f with
  | nil => exact (Bool.or_false _).symm
  | cons i l ih =>
    rw [List.foldl_cons, ih, List.any_cons]
    cases eff i with
    | false => simp only [Bool.false_eq_true, if_false, Bool.false_and, Bool.false_or]
    | true => simp only [if_true, BitVec.getLsbD_or, Bool.true_and, Bool.or_assoc]

/-! From the operands to the pipeline. -/

theorem State.keyCheck_of_unkeyed {s : State} {op : Nat} {w : EWord} (h : s.unkeyed op w = true) : s.keyCheck op w = s := by
  rw [State.unkeyed, ← List.not_any_eq_all_not, Bool.not_eq_true'] at h
  simp only [State.keyCheck, h, Bool.and_false, Bool.false_eq_true, if_false]

theorem lt_sixteen_of_mem_lanesOf {w : EWord} {i : Nat} (h : i ∈ lanesOf w) : i < 16 := by
  have lt := List.mem_range.mp h
  split at lt <;> omega

/-- The result that a live word issues from its lanes. -/
def liveResult (s : State) (w : EWord) (x : Lanes × W16 × W16 × FlagSet) : Result :=
  { reg := (destOf s.fcore w).1, sides := (destOf s.fcore w).2.1, narrow := (destOf s.fcore w).2.2, odd := s.fcore.odd s.focus,
    lanes := x.1, valid := x.2.1, mask := x.2.2.1, flags := x.2.2.2 }

theorem State.issue_of_live {s : State} (live : s.focus.live = true) (op : Nat) (w : EWord) (x : Lanes × W16 × W16 × FlagSet) :
    s.issue op w x.1 x.2.1 x.2.2.1 x.2.2.2 = s.launchAct (latOf op) (.result (liveResult s w x)) := if_pos live

/-- A live word without a keyed operand issues its lanes at the latency of its opcode, and does nothing else. -/
theorem State.genOp_of_live {s : State} {op : Nat} {w : EWord} (h : liveWord op w s) (ok : Srcs → Nat → Bool)
    (comp : Srcs → Nat → W32 × FlagSet) :
    s.genOp op w ok comp = s.launchAct (latOf op) (.result (liveResult s w
      (vmLanes w (ok (s.srcs op w)) (fun i => decide ((s.srcs op w).c.lane i ≠ 0)) (comp (s.srcs op w))))) := by
  obtain ⟨live, unkeyed⟩ := h
  rw [← State.issue_of_live live]
  exact congrArg (fun t : State => t.issue op w _ _ _ _) (State.keyCheck_of_unkeyed unkeyed)

/-- The side effect of a lane occurs where a claim about the word says that the lane stands (R21). -/
theorem effect_eq_laneStands (w : EWord) (r : Srcs) (ok : Nat → Bool) (i : Nat) :
    effect w.vm ok (fun i => decide (r.c.lane i ≠ 0)) i = laneStands w r ok i := rfl

theorem liveResult_carries (s : State) (w : EWord) (r : Srcs) (ok : Nat → Bool) (comp : Nat → W32 × FlagSet) :
    (liveResult s w (vmLanes w ok (fun i => decide (r.c.lane i ≠ 0)) comp)).carries s w r ok comp := by
  refine ⟨rfl, rfl, rfl, rfl, fun i hi => ?_, fun k _ => ?_⟩
  · have lt := lt_sixteen_of_mem_lanesOf hi
    have inside : i < if isScalar w then 1 else 16 := List.mem_range.mp hi
    simp only [liveResult, vmLanes, laneOf_mkLanes _ lt, getLsbD_mkBits _ lt, inside, if_true, decide_true, Bool.true_and,
      effect_eq_laneStands, and_self]
  · have unraised : (0 : FlagSet).getLsbD k = false := BitVec.getLsbD_zero
    simp only [liveResult, vmLanes, getLsbD_foldl_flags, unraised, Bool.false_or]
    rw [Bool.eq_iff_iff, List.any_eq_true, List.any_eq_true]
    refine exists_congr fun i => and_congr_right fun hi => ?_
    rw [decide_eq_true (List.mem_range.mp hi), Bool.true_and, effect_eq_laneStands]

/-- A live word without a keyed operand delivers, at the latency of its opcode, what its entry computes from its sources. -/
theorem State.genOp_delivers {s : State} {op : Nat} {w : EWord} (h : liveWord op w s) (ok : Srcs → Nat → Bool)
    (comp : Srcs → Nat → W32 × FlagSet) :
    Delivers (.next (s.genOp op w ok comp)) s (latOf op) w (s.srcs op w) (ok (s.srcs op w)) (comp (s.srcs op w)) :=
  ⟨_, liveResult_carries s w _ _ _, congrArg _ (State.genOp_of_live h ok comp)⟩

end Sys2Proof.Machine
end

section
/-! PROOF. The cross-lane reductions (R66, R110, R122). -/
namespace Sys2Proof.Machine
open Sys2Proof.Claims

/-! The tree of R66. A property of a group of inputs and its combined value that holds of one input and passes from two neighbouring groups to
their union holds of all present inputs and the value at the root. -/

section Tree
variable {α : Type} {f : α → α → α} {P : List α → α → Prop}

/-- One node of a level joins two neighbours. -/
theorem treeLevel_cons_cons (f : α → α → α) (x y : Option α) (r : List (Option α)) :
    treeLevel f (x :: y :: r) = Option.merge f x y :: treeLevel f r := by
  cases x <;> cases y <;> rfl

theorem length_treeLevel (f : α → α → α) : ∀ xs : List (Option α), (treeLevel f xs).length = (xs.length + 1) / 2
  | [] => by simp only [treeLevel, List.length_nil]
  | [x] => by cases x <;> simp only [treeLevel, List.length_singleton]
  | x :: y :: r => by
    rw [treeLevel_cons_cons, List.length_cons, length_treeLevel f r, List.length_cons, List.length_cons]
    omega

/-- A node stands for a group of inputs: an absent one for no input, a present one for a group with the property. -/
def StandsFor (P : List α → α → Prop) (g : List α) (o : Option α) : Prop := o.elim (g = []) (P g)

theorem StandsFor.merge (join : ∀ g h x y, P g x → P h y → P (g ++ h) (f x y)) {g h : List α} {a b : Option α} (hg : StandsFor P g a)
    (hh : StandsFor P h b) : StandsFor P (g ++ h) (Option.merge f a b) := by
  cases a with
  | none =>
    obtain rfl : g = [] := hg
    cases b <;> exact hh
  | some x =>
    cases b with
    | none =>
      obtain rfl : h = [] := hh
      rwa [List.append_nil]
    | some y => exact join g h x y hg hh

/-- A list of nodes that stand, one after the other, for consecutive groups of the inputs. -/
inductive Level (P : List α → α → Prop) : List α → List (Option α) → Prop where
  | nil : Level P [] []
  | cons {g l : List α} {x : Option α} {r : List (Option α)} : StandsFor P g x → Level P l r → Level P (g ++ l) (x :: r)

/-- A level keeps the inputs and their order, and the property. -/
theorem Level.treeLevel (join : ∀ g h x y, P g x → P h y → P (g ++ h) (f x y)) :
    ∀ {l : List α} {xs : List (Option α)}, Level P l xs → Level P l (treeLevel f xs)
  | _, [], level => level
  | _, [x], level => by cases x <;> exact level
  | _, x :: y :: r, level => by
    obtain _ | ⟨hx, rest⟩ := level
    obtain _ | ⟨hy, rest⟩ := rest
    rw [treeLevel_cons_cons, ← List.append_assoc]
    exact .cons (hx.merge join hy) (rest.treeLevel join)

/-- The leaves stand for the present inputs, each for itself. -/
theorem Level.leaves (single : ∀ x, P [x] x) (xs : List (Option α)) : Level P (xs.filterMap id) xs := by
  induction xs with
  | nil => exact .nil
  | cons x xs ih =>
    cases x with
    | none => exact .cons (g := []) rfl ih
    | some x => exact .cons (g := [x]) (single x) ih

/-- A single node stands for all the inputs. -/
theorem Level.root {l : List α} {x : Option α} (level : Level P l [x]) : StandsFor P l x := by
  obtain _ | ⟨stands, rest⟩ := level
  obtain _ | _ := rest
  rwa [List.append_nil]

/-- The root of the tree stands for the present inputs, in their order. -/
theorem tree16_standsFor (single : ∀ x, P [x] x) (join : ∀ g h x y, P g x → P h y → P (g ++ h) (f x y)) {xs : List (Option α)}
    (len : xs.length = 16) : StandsFor P (xs.filterMap id) (tree16 f xs) := by
  have level := ((((Level.leaves single xs).treeLevel join).treeLevel join).treeLevel join).treeLevel join
  have one : (treeLevel f (treeLevel f (treeLevel f (treeLevel f xs)))).length = 1 := by simp only [length_treeLevel, len]
  obtain ⟨root, isRoot⟩ := List.length_eq_one_iff.mp one
  rw [isRoot] at level
  rw [tree16, isRoot]
  exact level.root

end Tree

/-! The lanes a reduction takes (R110). -/

/-- Where a condition gives the present inputs, they are those that meet it. -/
theorem filterMap_map_ite {α : Type} (p : Nat → Prop) [DecidablePred p] (g : Nat → α) (l : List Nat) :
    (l.map fun i => if p i then some (g i) else none).filterMap id = (l.filter fun i => decide (p i)).map g := by
  induction l with
  | nil => rfl
  | cons i l ih =>
    by_cases h : p i
    · rw [List.map_cons, if_pos h, List.filterMap_cons_some (f := id) rfl, ih, List.filter_cons, if_pos (decide_eq_true h), List.map_cons]
    · rw [List.map_cons, if_neg h, List.filterMap_cons_none (f := id) rfl, ih, List.filter_cons, if_neg (fun holds => h (of_decide_eq_true holds))]

theorem filterMap_present (w : EWord) (a : VReg) : (present w a).filterMap id = (takes w a).map a.lane := by
  rw [present, filterMap_map_ite, takes]
  simp only [Bool.decide_or, Bool.decide_eq_true, Bool.or_assoc]

theorem length_present (w : EWord) (a : VReg) : (present w a).length = 16 := by rw [present, List.length_map, List.length_range]

/-- The root of an integer reduction stands for the taken lanes. -/
theorem tree16_present_standsFor {f : W32 → W32 → W32} {P : List W32 → W32 → Prop} (single : ∀ x, P [x] x)
    (join : ∀ g h x y, P g x → P h y → P (g ++ h) (f x y)) (w : EWord) (a : VReg) :
    StandsFor P ((takes w a).map a.lane) (tree16 f (present w a)) :=
  filterMap_present w a ▸ tree16_standsFor single join (length_present w a)

/-! Integer reductions. -/

theorem tree16_add_eq_sum (w : EWord) (a : VReg) : (tree16 (fun x y => x + y) (present w a)).getD 0 = ((takes w a).map a.lane).sum := by
  have stands := tree16_present_standsFor (f := fun x y => x + y) (P := fun l x => x = l.sum) (fun _ => List.sum_singleton.symm)
    (by rintro g h _ _ rfl rfl; exact List.sum_append.symm) w a
  revert stands
  cases tree16 (fun x y => x + y) (present w a) with
  | none =>
    intro absent
    have empty : (takes w a).map a.lane = [] := absent
    rw [empty]
    rfl
  | some x => exact id

/-- A word of the list whose key no word of the list exceeds. -/
def IsTop (key : W32 → Int) (l : List W32) (x : W32) : Prop := x ∈ l ∧ ∀ y ∈ l, key y ≤ key x

theorem IsTop.single (key : W32 → Int) (x : W32) : IsTop key [x] x :=
  ⟨List.mem_singleton_self x, fun _ mem => Int.le_of_eq (congrArg key (List.mem_singleton.mp mem))⟩

theorem IsTop.join {key : W32 → Int} {g h : List W32} {x y : W32} (hx : IsTop key g x) (hy : IsTop key h y) :
    IsTop key (g ++ h) (if key x < key y then y else x) := by
  obtain ⟨memx, topx⟩ := hx
  obtain ⟨memy, topy⟩ := hy
  split
  · refine ⟨List.mem_append_right _ memy, fun z hz => ?_⟩
    obtain hz | hz := List.mem_append.mp hz
    · have := topx z hz
      omega
    · exact topy z hz
  · refine ⟨List.mem_append_left _ memx, fun z hz => ?_⟩
    obtain hz | hz := List.mem_append.mp hz
    · exact topx z hz
    · have := topy z hz
      omega

/-- The tree of the larger key ends in a taken lane that no taken lane exceeds, or in zero with no lane taken. -/
theorem tree16_top {f : W32 → W32 → W32} {key : W32 → Int} (larger : ∀ x y, f x y = if key x < key y then y else x) (w : EWord) (a : VReg) :
    (∀ i ∈ takes w a, key (a.lane i) ≤ key ((tree16 f (present w a)).getD 0))
      ∧ if takes w a = [] then (tree16 f (present w a)).getD 0 = 0 else ∃ i ∈ takes w a, a.lane i = (tree16 f (present w a)).getD 0 := by
  have stands := tree16_present_standsFor (f := f) (P := IsTop key) (IsTop.single key) (fun g h x y hx hy => larger x y ▸ hx.join hy) w a
  revert stands
  cases tree16 f (present w a) with
  | none =>
    intro absent
    have empty : takes w a = [] := List.map_eq_nil_iff.mp absent
    rw [if_pos empty, empty]
    exact ⟨fun _ mem => absurd mem List.not_mem_nil, rfl⟩
  | some x =>
    rintro ⟨mem, top⟩
    obtain ⟨i, hi, rfl⟩ := List.mem_map.mp mem
    rw [if_neg (List.ne_nil_of_mem hi)]
    exact ⟨fun j hj => top _ (List.mem_map_of_mem hj), i, hi, rfl⟩

/-- R110: RSUM is the tree of sums, RMAX the tree of the larger key toInt, RMIN that of the larger key -toInt. -/
theorem integerReductionsCombineTheTakenLanes : IntegerReductionsCombineTheTakenLanes := by
  refine fun w s => ⟨fun h => ?_, fun h => ?_, fun h => ?_⟩
  · simp only [← tree16_add_eq_sum]
    exact State.genOp_delivers h _ _
  · obtain ⟨bound, taken⟩ := tree16_top (f := fun x y => if x.toInt < y.toInt then y else x) (key := BitVec.toInt) (fun _ _ => rfl) w
      (s.srcs 0x29 w).a
    exact ⟨_, State.genOp_delivers h _ _, bound, taken⟩
  · obtain ⟨bound, taken⟩ := tree16_top (f := fun x y => if y.toInt < x.toInt then y else x) (key := fun x => -x.toInt)
      (fun _ _ => by simp only [Int.neg_lt_neg_iff]) w (s.srcs 0x2A w).a
    exact ⟨_, State.genOp_delivers h _ _, fun i hi => Int.neg_le_neg_iff.mp (bound i hi), taken⟩

/-! Floating reductions. -/

/-- The leaves of a floating reduction: the taken lanes, with no flag raised. -/
theorem map_present (w : EWord) (a : VReg) :
    ((present w a).map fun o => o.map fun x => (x, (0 : FlagSet)))
      = (List.range 16).map fun i => if i ∈ takes w a then some (a.lane i, (0 : FlagSet)) else none := by
  rw [present, List.map_map]
  refine List.map_congr_left fun i hi => ?_
  have taken : i ∈ takes w a ↔ w.vm = 1 ∨ w.vm = 3 ∨ a.ok i = true := by
    simp only [takes, List.mem_filter, hi, true_and, Bool.or_eq_true, decide_eq_true_eq, or_assoc]
  simp only [Function.comp, taken, apply_ite (Option.map fun x : W32 => (x, (0 : FlagSet))), Option.map_some, Option.map_none]

/-- A floating reduction delivers the value at the root of its tree, a NaN made canonical. -/
theorem State.freduceOp_delivers {s : State} {op : Nat} {w : EWord} (h : liveWord op w s)
    (f : Nat → W32 × FlagSet → W32 × FlagSet → W32 × FlagSet) :
    let r := s.srcs op w
    Delivers (.next (s.freduceOp op w f)) s (latOf op) w r (fun _ => decide (r.a.valid ≠ 0)) fun _ => laneTree w r.a (f r.rm) := by
  simp only [laneTree, ← map_present]
  exact State.genOp_delivers h _ _

/-- R122: the three words are one reduction with the node of R66 that each names. -/
theorem floatReductionsUseTheFixedTree : FloatReductionsUseTheFixedTree := fun _ _ =>
  ⟨fun h => State.freduceOp_delivers h addF32, fun h => State.freduceOp_delivers h fun _ => mmF32 true,
    fun h => State.freduceOp_delivers h fun _ => mmF32 false⟩

/-- Settles O3: every reduction is one word with a result per lane (`State.genOp_delivers`), and the root of its tree stands for the taken lanes
(`tree16_standsFor`). -/
theorem reductionsCombineTheTakenLanes : Obligations.ReductionsCombineTheTakenLanes :=
  ⟨integerReductionsCombineTheTakenLanes, floatReductionsUseTheFixedTree⟩

end Sys2Proof.Machine
end

section
/-! PROOF. The decoder and the encoder (R67, R71, R74, R76, R272, R432): fields and opcode come out of a word as they went in, the opcode maps
and the encoder name the same opcode for an instruction, and a word decodes exactly when none of its fields is at fault. -/
namespace Sys2Proof
open Machine

/-! Words and their fields. -/

@[simp] theorem opcode_packElem (op : BitVec 7) (w : EWord) : (packElem op w).extractLsb' 33 7 = op := by
  simp (disch := omega) only [packElem, BitVec.extractLsb'_append_eq_of_le, BitVec.extractLsb'_eq_self, Nat.reduceSub]

@[simp] theorem elemFields_packElem (op : BitVec 7) (w : EWord) : elemFields (packElem op w) = w := by
  simp (disch := omega) only [packElem, elemFields, BitVec.extractLsb'_append_eq_of_le, BitVec.extractLsb'_append_eq_of_add_le,
    BitVec.extractLsb'_eq_self, Nat.reduceSub]

@[simp] theorem packElem_elemFields (b : BitVec 40) : packElem (b.extractLsb' 33 7) (elemFields b) = b := by
  simp (disch := omega) only [packElem, elemFields, BitVec.extractLsb'_append_extractLsb'_eq_extractLsb']
  exact BitVec.extractLsb'_eq_self

@[simp] theorem opcode_packSeq (op : BitVec 8) (w : SWord) : (packSeq op w).extractLsb' 56 8 = op := by
  simp (disch := omega) only [packSeq, BitVec.extractLsb'_append_eq_of_le, BitVec.extractLsb'_eq_self, Nat.reduceSub]

@[simp] theorem seqFields_packSeq (op : BitVec 8) (w : SWord) : seqFields (packSeq op w) = w := by
  simp (disch := omega) only [packSeq, seqFields, BitVec.extractLsb'_append_eq_of_le, BitVec.extractLsb'_append_eq_of_add_le,
    BitVec.extractLsb'_eq_self, Nat.reduceSub]

@[simp] theorem packSeq_seqFields (b : BitVec 64) : packSeq (b.extractLsb' 56 8) (seqFields b) = b := by
  simp (disch := omega) only [packSeq, seqFields, BitVec.extractLsb'_append_extractLsb'_eq_extractLsb']
  exact BitVec.extractLsb'_eq_self

@[simp] theorem opcode_packGraph (op : BitVec 6) (w : GWord) : (packGraph op w).extractLsb' 58 6 = op := by
  simp (disch := omega) only [packGraph, BitVec.extractLsb'_append_eq_of_le, BitVec.extractLsb'_eq_self, Nat.reduceSub]

@[simp] theorem graphFields_packGraph (op : BitVec 6) (w : GWord) : graphFields (packGraph op w) = w := by
  simp (disch := omega) only [packGraph, graphFields, BitVec.extractLsb'_append_eq_of_le, BitVec.extractLsb'_append_eq_of_add_le,
    BitVec.extractLsb'_eq_self, Nat.reduceSub]

@[simp] theorem packGraph_graphFields (b : BitVec 64) : packGraph (b.extractLsb' 58 6) (graphFields b) = b := by
  simp (disch := omega) only [packGraph, graphFields, BitVec.extractLsb'_append_extractLsb'_eq_extractLsb']
  exact BitVec.extractLsb'_eq_self

/-! When a word decodes. -/

theorem firstFault_eq_none {fs : List (Nat × Nat)} : firstFault fs = none ↔ fs = [] := by
  cases fs with
  | nil => exact ⟨fun _ => rfl, fun _ => rfl⟩
  | cons f fs =>
    rw [firstFault]
    split
    · simp
    · split <;> simp

theorem settle_eq_ok {plane : Nat} {faults : List (Nat × Nat)} {named : Option Instr} {i : Instr} :
    settle plane faults named = .ok i ↔ faults.isEmpty = true ∧ named = some i := by
  rw [List.isEmpty_iff, ← firstFault_eq_none]
  unfold settle
  cases firstFault faults <;> cases named <;> simp

theorem decode_elem_eq_ok {b : BitVec 40} {i : Instr} :
    decode (.elem b) = .ok i ↔
      (elemFaults (b.extractLsb' 33 7).toNat (elemFields b)).isEmpty = true ∧ elemInstr (b.extractLsb' 33 7).toNat (elemFields b) = some i :=
  settle_eq_ok

theorem decode_seq_eq_ok {b : BitVec 64} {i : Instr} :
    decode (.seq b) = .ok i ↔
      (seqFaults (b.extractLsb' 56 8).toNat (seqFields b)).isEmpty = true ∧ seqInstr (b.extractLsb' 56 8).toNat (seqFields b) = some i :=
  settle_eq_ok

theorem decode_graph_eq_ok {b : BitVec 64} {i : Instr} :
    decode (.graph b) = .ok i ↔
      (graphFaults (b.extractLsb' 58 6).toNat (graphFields b)).isEmpty = true
        ∧ graphInstr (b.extractLsb' 58 6).toNat (graphFields b) = some i :=
  settle_eq_ok

theorem decode_command_eq_ok {c : BitVec 8} {fn : Nat} {i : Instr} :
    decode (.command c fn) = .ok i ↔ commandInstr c.toNat fn = some i := by
  simp only [decode]
  cases commandInstr c.toNat fn <;> simp

theorem decode_packElem {op : BitVec 7} {w : EWord} {i : Instr} (clean : (elemFaults op.toNat w).isEmpty = true)
    (named : elemInstr op.toNat w = some i) : decode (.elem (packElem op w)) = .ok i := by
  simp only [decode_elem_eq_ok, opcode_packElem, elemFields_packElem, clean, named, and_self]

theorem decode_packSeq {op : BitVec 8} {w : SWord} {i : Instr} (clean : (seqFaults op.toNat w).isEmpty = true)
    (named : seqInstr op.toNat w = some i) : decode (.seq (packSeq op w)) = .ok i := by
  simp only [decode_seq_eq_ok, opcode_packSeq, seqFields_packSeq, clean, named, and_self]

theorem decode_packGraph {op : BitVec 6} {w : GWord} {i : Instr} (clean : (graphFaults op.toNat w).isEmpty = true)
    (named : graphInstr op.toNat w = some i) : decode (.graph (packGraph op w)) = .ok i := by
  simp only [decode_graph_eq_ok, opcode_packGraph, graphFields_packGraph, clean, named, and_self]

/-! Decode of encode: for each constructor of the plane, the opcode that the encoder gives it names it in the opcode map. -/

theorem decode_encode_elem {i : Instr} {b : BitVec 40} (wf : i.wf = true) (code : encode i = some (.elem b)) : decode (.elem b) = .ok i := by
  cases i <;> cases code <;> exact decode_packElem wf rfl

theorem decode_encode_seq {i : Instr} {b : BitVec 64} (wf : i.wf = true) (code : encode i = some (.seq b)) : decode (.seq b) = .ok i := by
  cases i <;> cases code
  case sEcollSum.refl | sEcollGather.refl | sEcollBcast.refl | sEcryptEnc.refl | sEcryptDec.refl =>
    obtain ⟨clean, sub⟩ := Bool.and_eq_true_iff.mp wf
    exact decode_packSeq clean (by simp [seqInstr, of_decide_eq_true sub])
  all_goals exact decode_packSeq wf rfl

theorem decode_encode_graph {i : Instr} {b : BitVec 64} (wf : i.wf = true) (code : encode i = some (.graph b)) :
    decode (.graph b) = .ok i := by
  cases i <;> cases code
  case gWaitEvent.refl | gWaitLaunch.refl | gFaultackEnd.refl | gFaultackResume.refl =>
    obtain ⟨clean, sub⟩ := Bool.and_eq_true_iff.mp wf
    exact decode_packGraph clean (by simp [graphInstr, of_decide_eq_true sub])
  all_goals exact decode_packGraph wf rfl

theorem decode_encode_command {i : Instr} {c : BitVec 8} {fn : Nat} (code : encode i = some (.command c fn)) :
    decode (.command c fn) = .ok i := by
  cases i <;> cases code <;> rfl

/-- A packet is the instruction of its type byte (R273). -/
theorem decode_encode_packet {i : Instr} {p : HostPacket} (wf : i.wf = true) (code : encode i = some (.packet p)) :
    decode (.packet p) = .ok i := by
  cases i <;> cases code <;> have kind := of_decide_eq_true (Bool.and_eq_true_iff.mp wf).2
  case hUnknownPacketType.refl =>
    simp only [decode, packetInstr]
    rw [if_neg (by omega), if_neg (by omega), if_neg (by omega), if_neg (by omega)]
  all_goals simp [decode, packetInstr, kind]

/-- Decoding gives a well-formed instruction back, plane by plane. -/
theorem decode_encode {i : Instr} {c : Code} (wf : i.wf = true) (code : encode i = some c) : decode c = .ok i := by
  cases c with
  | elem b => exact decode_encode_elem wf code
  | seq b => exact decode_encode_seq wf code
  | graph b => exact decode_encode_graph wf code
  | command c fn => exact decode_encode_command code
  | packet p => exact decode_encode_packet wf code

/-! Encode of decode: each opcode of a map is the opcode that the encoder gives the instruction it names. -/

theorem encode_elemInstr {op : Nat} {w : EWord} {i : Instr} (named : elemInstr op w = some i) :
    encode i = some (.elem (packElem (BitVec.ofNat 7 op) w)) := by
  revert named
  fun_cases elemInstr op w <;> rintro ⟨⟩ <;> rfl

theorem encode_seqInstr {op : Nat} {w : SWord} {i : Instr} (named : seqInstr op w = some i) :
    encode i = some (.seq (packSeq (BitVec.ofNat 8 op) w)) := by
  revert named
  fun_cases seqInstr op w <;> rintro ⟨⟩ <;> rfl

theorem encode_graphInstr {op : Nat} {w : GWord} {i : Instr} (named : graphInstr op w = some i) :
    encode i = some (.graph (packGraph (BitVec.ofNat 6 op) w)) := by
  revert named
  fun_cases graphInstr op w <;> rintro ⟨⟩ <;> rfl

theorem encode_commandInstr {c fn : Nat} {i : Instr} (named : commandInstr c fn = some i) :
    encode i = some (.command (BitVec.ofNat 8 c) fn) := by
  revert named
  fun_cases commandInstr c fn <;> rintro ⟨⟩ <;> rfl

theorem encode_packetInstr (p : HostPacket) : encode (packetInstr p) = some (.packet p) := by
  fun_cases packetInstr p <;> rfl

/-- A code that decodes is the one encoding of its instruction, plane by plane. -/
theorem encode_decode {c : Code} {i : Instr} (read : decode c = .ok i) : encode i = some c := by
  cases c with
  | elem b =>
    rw [encode_elemInstr (decode_elem_eq_ok.mp read).2, BitVec.ofNat_toNat, BitVec.setWidth_eq, packElem_elemFields]
  | seq b =>
    rw [encode_seqInstr (decode_seq_eq_ok.mp read).2, BitVec.ofNat_toNat, BitVec.setWidth_eq, packSeq_seqFields]
  | graph b =>
    rw [encode_graphInstr (decode_graph_eq_ok.mp read).2, BitVec.ofNat_toNat, BitVec.setWidth_eq, packGraph_graphFields]
  | command c fn =>
    rw [encode_commandInstr (decode_command_eq_ok.mp read), BitVec.ofNat_toNat, BitVec.setWidth_eq]
  | packet p =>
    obtain rfl : packetInstr p = i := Except.ok.inj read
    exact encode_packetInstr p

/-- Settles O54: `decode_encode` from instructions to codes, `encode_decode` back. -/
theorem decodeOfEncodeIsTheInstruction : Obligations.DecodeOfEncodeIsTheInstruction :=
  ⟨fun _ _ => decode_encode, fun _ _ => encode_decode⟩

/-- Settles O53: each word is an opcode with its fields, none of them at fault; the last three opcodes are reserved. -/
theorem wordsDecodeToTheirInstruction : Obligations.WordsDecodeToTheirInstruction :=
  ⟨decode_packElem (op := 0x33) (w := { d := 2, a := 43, b := 60, c := 2, fwd := 4, vm := 2, ty := 1 }) rfl rfl,
   decode_packElem (op := 0x02) (w := { d := 5, a := 3, b := 61, c := 0, fwd := 2, vm := 2, ty := 6 }) rfl rfl,
   decode_packSeq (op := 0x02) (w := { xd := 3, xa := 4, mod := 1, imm := 12 }) rfl rfl,
   decode_packSeq (op := 0x00) (w := { xd := 1, mod := 1 }) rfl rfl,
   decode_packGraph (op := 0x01) (w := { gd := 3, imm := 0x40 }) rfl rfl,
   decode_packGraph (op := 0x20) (w := { gd := 10, imm := 0x100 }) rfl rfl,
   decode_encode_command rfl,
   fun _ read => absurd (decode_elem_eq_ok.mp read).2 nofun, fun _ read => absurd (decode_seq_eq_ok.mp read).2 nofun,
   fun _ read => absurd (decode_graph_eq_ok.mp read).2 nofun⟩

end Sys2Proof
end

section
/-! PROOF. The scalar words of a sequencer (R75, R151, R154). -/
namespace Sys2Proof.Machine
open Sys2Proof.Claims

/-- A word of one cycle completes in the cycle in which it issues (R151). -/
theorem State.scalar_one_completes {s : State} (ready : s.fpage.phase = .ready) (w : SWord) (v : W64) :
    Completes (.next (s.scalar w 1 v)) s fun pg => pg.setX w.xd v := by
  simp only [Completes, State.scalar, State.holdFor, ready, Nat.le_refl, if_true, State.onPage]

/-- A word of three cycles that issues holds for two more (R151). -/
theorem State.scalar_three_of_ready {s : State} (ready : s.fpage.phase = .ready) (w : SWord) (v : W64) :
    s.scalar w 3 v = s.modPage s.focus.page fun pg => { pg with phase := .until (s.cycle + 2) } := by
  simp [State.scalar, State.holdFor, ready, State.onPage]

/-- A word that holds completes in its last cycle (R151). -/
theorem State.scalar_last_completes {s : State} {c : Nat} (held : s.fpage.phase = .until c) (last : c ≤ s.cycle) (w : SWord) (n : Nat) (v : W64) :
    Completes (.next (s.scalar w n v)) s fun pg => pg.setX w.xd v := by
  simp only [Completes, State.scalar, State.holdFor, held, last, if_true, State.onPage]

theorem State.scalar_of_held {s : State} {c : Nat} (held : s.fpage.phase = .until c) (before : s.cycle < c) (w : SWord) (n : Nat) (v : W64) :
    s.scalar w n v = s := by
  simp only [State.scalar, State.holdFor, held, Nat.not_le.mpr before, if_false]

/-- A shift by bits(b, 5, 0) (R154). -/
theorem toNat_and_63 (b : W64) : (b &&& 63).toNat = b.toNat % 64 := Nat.and_two_pow_sub_one_eq_mod b.toNat 6

/-- Each one-cycle scalar word gives xd the value of R154. -/
theorem exec_scalarWords : ∀ x ∈ scalarWords, ∀ (w : SWord) (s : State), exec (x.1 w) s = .next (s.scalar w 1 (x.2 w s)) := by
  simp only [scalarWords, List.forall_mem_cons]
  refine ⟨?xli, ?xlih, ?xadd, ?xsub, ?xand, ?xior, ?xxor, ?xshl, ?xshr, ?xsra, ?xmin, ?xmax, ?xslt, ?xsel, nofun⟩ <;> intro w s
  case xlih => rw [← BitVec.setWidth_eq_extractLsb' (by omega)]; rfl
  case xshl => rw [BitVec.shiftLeft_eq', toNat_and_63]; rfl
  case xshr => rw [BitVec.ushiftRight_eq', toNat_and_63]; rfl
  case xsra => rw [BitVec.sshiftRight', toNat_and_63]; rfl
  case xsel => rw [← BitVec.setWidth_eq_extractLsb' (by omega), ← ite_not]; rfl
  all_goals rfl

/-- Settles O15: a one-cycle word completes at once, XMUL holds two cycles and completes in the third. -/
theorem scalarWordsWriteTheirResult : Obligations.ScalarWordsWriteTheirResult :=
  ⟨fun x mem w s ready => exec_scalarWords x mem w s ▸ State.scalar_one_completes ready w _,
   fun w _ => ⟨fun ready => congrArg _ (State.scalar_three_of_ready ready w _), fun _ held =>
    ⟨fun last => State.scalar_last_completes held last w 3 _, fun before => congrArg _ (State.scalar_of_held held before w 3 _)⟩⟩⟩

end Sys2Proof.Machine
end

section
/-! PROOF. No meaning stops: each instruction answers a next state, and a step stops only where bits decode to no instruction (R78). -/
namespace Sys2Proof.Machine

/-- Every meaning ends in a next state: those that branch on the state do so at the end of each of their branches. -/
theorem exec_next (i : Instr) (s : State) : ∃ t, exec i s = .next t := by
  cases i <;> dsimp only [exec]
  -- element words
  case' eLanei w => fun_cases execELanei w s
  case' eSteer w => fun_cases execESteer w s
  case' eTrapif w => fun_cases execETrapif w s
  case' eSt w => fun_cases execESt w s
  case' eSrd w => fun_cases execESrd w s
  case' eSwr w => fun_cases execESwr w s
  case' eSskip w => fun_cases execESskip w s
  case' eWld w => fun_cases execEWld w s
  case' eWsel w => fun_cases execEWsel w s
  case' eSmac w => fun_cases execESmac w s
  case' eSdrn w => fun_cases execESdrn w s
  case' eFeed w => fun_cases execEFeed w s
  case' eWrctl w => fun_cases execEWrctl w s
  -- sequencer words, tile macros and engine commands
  case' sXld w => fun_cases execSXld w s
  case' sXst w => fun_cases execSXst w s
  case' sKrun w => fun_cases execSKrun w s
  case' sHalt w => fun_cases execSHalt w s
  case' sSsend w => fun_cases execSSsend w s
  case' sLsync w => fun_cases execSLsync w s
  case' sSige w => fun_cases execSSige w s
  case' sWaite w => fun_cases execSWaite w s
  case' sMshp w => fun_cases execSMshp w s
  case' sSpset w => fun_cases execSSpset w s
  case' sWin w => fun_cases execSWin w s
  case' sUnpin w => fun_cases execSUnpin w s
  case' sCfill w => fun_cases execSCfill w s
  case' sCellinit w => fun_cases execSCellinit w s
  case' sXcell w => fun_cases execSXcell w s
  -- graph words
  case' gEndstep w => fun_cases execGEndstep w s
  case' gWaitEvent w => fun_cases execGWaitEvent w s
  case' gWaitLaunch w => fun_cases execGWaitLaunch w s
  case' gGld w => fun_cases execGGld w s
  case' gGst w => fun_cases execGGst w s
  case' gGcell w => fun_cases execGGcell w s
  case' gCallg w => fun_cases execGCallg w s
  case' gPatch w => fun_cases execGPatch w s
  case' gMsg w => fun_cases execGMsg w s
  case' gRcv w => fun_cases execGRcv w s
  case' gLease w => fun_cases execGLease w s
  case' gFree w => fun_cases execGFree w s
  case' gReceipt w => fun_cases execGReceipt w s
  case' gFaultrd w => fun_cases execGFaultrd w s
  -- commands
  case' cModelfill w => fun_cases execCModelfill w s
  case' cLinkup w => fun_cases execCLinkup w s
  -- events
  case' vVfFlr => fun_cases execVVfFlr s
  case' vPf0Flr => fun_cases execVPf0Flr s
  case' vColdReset => fun_cases execVColdReset s
  case' vInvalidationAck => fun_cases execVInvalidationAck s
  case' vMigrationRound => fun_cases execVMigrationRound s
  case' vMigrationFinalRound => fun_cases execVMigrationFinalRound s
  case' vFwHeartbeat => fun_cases execVFwHeartbeat s
  case' vFwSwitchDeadline => fun_cases execVFwSwitchDeadline s
  case' vIntervalDecide => fun_cases execVIntervalDecide s
  case' vKernelEnd => fun_cases execVKernelEnd s
  case' vMacroElement => fun_cases execVMacroElement s
  case' vEngineElement => fun_cases execVEngineElement s
  case' vCollContribution => fun_cases execVCollContribution s
  case' vCollTimeout => fun_cases execVCollTimeout s
  case' vPortFetch => fun_cases execVPortFetch s
  case' vPortWriteout => fun_cases execVPortWriteout s
  case' vDrainRecordWrite => fun_cases execVDrainRecordWrite s
  case' vWeightPortBeat => fun_cases execVWeightPortBeat s
  case' vReductionSend => fun_cases execVReductionSend s
  case' vSteerArrival => fun_cases execVSteerArrival s
  case' vEventGrant => fun_cases execVEventGrant s
  case' vLocalBoundary => fun_cases execVLocalBoundary s
  case' vGroupBoundary => fun_cases execVGroupBoundary s
  case' vTrapFreeze => fun_cases execVTrapFreeze s
  case' vFaultDeadline => fun_cases execVFaultDeadline s
  case' vTaskSelect => fun_cases execVTaskSelect s
  case' vTaskAging => fun_cases execVTaskAging s
  case' vDeficitCharge => fun_cases execVDeficitCharge s
  case' vPriorityPreempt => fun_cases execVPriorityPreempt s
  case' vLeaseResident => fun_cases execVLeaseResident s
  case' vImageCheck => fun_cases execVImageCheck s
  case' vRegionPlace => fun_cases execVRegionPlace s
  case' vConfigLoad => fun_cases execVConfigLoad s
  case' vTaskEnd => fun_cases execVTaskEnd s
  case' vPreemptRequest => fun_cases execVPreemptRequest s
  case' vCooperativeSave => fun_cases execVCooperativeSave s
  case' vForcedSave => fun_cases execVForcedSave s
  case' vSliceEndRestart => fun_cases execVSliceEndRestart s
  case' vTaskRestore => fun_cases execVTaskRestore s
  case' vL2Fill => fun_cases execVL2Fill s
  case' vExpanderDeliver => fun_cases execVExpanderDeliver s
  case' vLinkFail => fun_cases execVLinkFail s
  case' vDomainLinkTimeout => fun_cases execVDomainLinkTimeout s
  case' vFlitReceive => fun_cases execVFlitReceive s
  case' vLinkKeyUpdate => fun_cases execVLinkKeyUpdate s
  case' vEthernetDatagram => fun_cases execVEthernetDatagram s
  case' vPatrolScrub => fun_cases execVPatrolScrub s
  case' vClockChange => fun_cases execVClockChange s
  case' vRemoteWalkComplete => fun_cases execVRemoteWalkComplete s
  case' vDataReturn => fun_cases execVDataReturn s
  case' vRouteComesBack => fun_cases execVRouteComesBack s
  case' vSoftError => fun_cases execVSoftError s
  case' vDebugPortRead => fun_cases execVDebugPortRead s
  case' vPcieSectorEntry => fun_cases execVPcieSectorEntry s
  all_goals exact ⟨_, rfl⟩

/-- Bits that are no instruction complete as an unknown command, or stop with the fault of their plane. -/
theorem State.badCode_cases (s : State) (c : Code) : (∃ t, s.badCode c = .next t) ∨ ∃ plane, s.badCode c = .fault (.reservedWord plane) := by
  cases c with
  | command c fn => exact .inl ⟨_, rfl⟩
  | elem b => exact .inr ⟨_, rfl⟩
  | seq b => exact .inr ⟨_, rfl⟩
  | graph b => exact .inr ⟨_, rfl⟩
  | packet p => exact .inr ⟨_, rfl⟩

/-- A step answers a next state, or it stops at bits that its turn fetched and that decode to no instruction. -/
theorem step_cases (s : State) :
    (∃ t, step s = .next t) ∨ ∃ t rest c s1 e plane, s.agenda = t :: rest ∧ ({ s with agenda := rest } : State).fetch t = .code c s1
      ∧ decode c = .error e ∧ step s = .fault (.reservedWord plane) := by
  fun_cases step s with
  | case1 => exact .inl ⟨_, rfl⟩
  | case2 => exact .inl ⟨_, rfl⟩
  | case3 t rest agenda i s1 fetched => exact .inl (exec_next i s1)
  | case4 t rest agenda c s1 fetched i good => exact .inl (exec_next i s1)
  | case5 t rest agenda c s1 fetched e bad =>
    obtain next | ⟨plane, stops⟩ := s1.badCode_cases c
    · exact .inl next
    · exact .inr ⟨t, rest, c, s1, e, plane, agenda, fetched, bad, stops⟩

/-- Settles O56: `exec_next` for the instructions, `step_cases` for the step. -/
theorem noInstructionStops : Obligations.NoInstructionStops := by
  refine ⟨exec_next, fun s r refused => ?_, fun s f stopped => ?_⟩
  · obtain ⟨t, next⟩ | ⟨_, _, _, _, _, _, -, -, -, stops⟩ := step_cases s
    · exact nomatch next.symm.trans refused
    · exact nomatch stops.symm.trans refused
  · obtain ⟨t, next⟩ | ⟨t, rest, c, s1, e, plane, agenda, fetched, bad, stops⟩ := step_cases s
    · exact nomatch next.symm.trans stopped
    · exact ⟨t, rest, c, s1, e, plane, agenda, fetched, bad, Host.Outcome.fault.inj (stopped.symm.trans stops)⟩

end Sys2Proof.Machine
end

section
/-! PROOF. Integer and lane words (R95, R98 to R101, R103): a word that computes lane by lane delivers its function of the lanes, and the functions
that the model computes on numbers are those that the claims state on words. -/
namespace Sys2Proof.Machine
open Sys2Proof.Claims

/-! Words that compute lane by lane. -/

/-- A word of this opcode and latency computes each result lane from that lane of its first operands (R95). -/
def ComputesLanes (word : EWord → Instr) (op lat reads : Nat) (fn : EWord → Nat → W32 → W32 → W32 → W32 × FlagSet) : Prop :=
  (elemForm op).map (fun form => (form.lat, decide (form.b = 1), decide (form.c = 2))) = some (lat, decide (2 ≤ reads), decide (3 ≤ reads))
    ∧ ∀ w s, exec (word w) s = .next (s.laneOp op w (fn w))

/-- Such a word delivers its function of the operands it reads. -/
theorem ComputesLanes.delivers {word : EWord → Instr} {op lat reads : Nat} {fn : EWord → Nat → W32 → W32 → W32 → W32 × FlagSet}
    (computes : ComputesLanes word op lat reads fn) {w : EWord} {s : State} (h : liveWord op w s) :
    let r := s.srcs op w
    Delivers (exec (word w) s) s lat w r
      (fun i => r.a.ok i && (decide (reads < 2) || r.b.ok i) && (decide (reads < 3) || r.c.ok i))
      fun i => fn w r.rm (r.a.lane i) (r.b.lane i) (r.c.lane i) := by
  obtain ⟨formed, meaning⟩ := computes
  obtain ⟨form, named, fields⟩ := Option.map_eq_some_iff.mp formed
  obtain ⟨atLat, useB, useC⟩ : form.lat = lat ∧ decide (form.b = 1) = decide (2 ≤ reads) ∧ decide (form.c = 2) = decide (3 ≤ reads) := by
    simpa only [Prod.mk.injEq] using fields
  have latency : latOf op = lat := by simp only [latOf, named, atLat]
  have whole := State.genOp_delivers h
    (fun r i => r.a.ok i && (!decide (2 ≤ reads) || r.b.ok i) && (!decide (3 ≤ reads) || r.c.ok i))
    (fun r i => fn w r.rm (r.a.lane i) (r.b.lane i) (r.c.lane i))
  rw [latency] at whole
  simp only [← decide_not, Nat.not_le] at whole
  rw [meaning]
  simp only [State.laneOp, named, useB, useC, ← decide_not, Nat.not_le]
  exact whole

/-! Integer functions at a width (R98, R99, R101). -/

/-- A function on numbers computes on words, at every width, a function of words. -/
def Represents (f : Nat → Nat → Nat → Nat) (g : WidthFn) : Prop :=
  ∀ (n : Nat) (x y : BitVec n), BitVec.ofNat n (f n x.toNat y.toNat) = g n x y

/-- The signed reading of a word's number is the signed value of the word. -/
theorem sx_toNat {n : Nat} (x : BitVec n) : sx n x.toNat = x.toInt := by
  have low : x.toNat % 2 ^ n = x.toNat := Nat.mod_eq_of_lt x.isLt
  have lowInt : (x.toNat : Int) % 2 ^ n = x.toNat := by exact_mod_cast congrArg Nat.cast low
  have half : x.toNat < 2 ^ (n - 1) ↔ 2 * x.toNat < 2 ^ n := by
    cases n with
    | zero => have := x.isLt; omega
    | succ n => rw [Nat.pow_succ, Nat.add_sub_cancel]; omega
  have power : ((2 ^ n : Nat) : Int) = 2 ^ n := Int.natCast_pow 2 n
  rw [BitVec.toInt_eq_toNat_cond, sx]
  simp only [low, lowInt, half, power]

theorem ofNat_toNat_self {n : Nat} (x : BitVec n) : BitVec.ofNat n x.toNat = x := by rw [BitVec.ofNat_toNat, BitVec.setWidth_eq]

theorem represents_add : Represents (fun _ x y => x + y) fun _ x y => x + y := fun _ x y => by
  rw [BitVec.ofNat_add, ofNat_toNat_self, ofNat_toNat_self]

theorem represents_sub : Represents (fun n x y => x + (2 ^ n - y)) fun _ x y => x - y := fun _ x y =>
  BitVec.eq_of_toNat_eq (by rw [BitVec.toNat_sub, BitVec.toNat_ofNat, Nat.add_comm])

theorem represents_neg : Represents (fun n x _ => 2 ^ n - x) fun _ x _ => -x := fun _ x _ =>
  BitVec.eq_of_toNat_eq (by rw [BitVec.toNat_neg, BitVec.toNat_ofNat])

theorem represents_abs : Represents (fun n x _ => (sx n x).natAbs) fun _ x _ => if x.slt 0 then -x else x := fun n x _ => by
  have sign : x.slt 0 = decide (x.toInt < 0) := by rw [BitVec.slt_eq_decide, show (0 : BitVec n).toInt = 0 from BitVec.toInt_zero]
  dsimp only
  rw [sx_toNat, ← BitVec.ofInt_natCast, sign]
  by_cases negative : x.toInt < 0
  · rw [Int.ofNat_natAbs_of_nonpos (Int.le_of_lt negative), BitVec.ofInt_neg, BitVec.ofInt_toInt, decide_eq_true negative, if_pos rfl]
  · rw [Int.natAbs_of_nonneg (Int.not_lt.mp negative), BitVec.ofInt_toInt, decide_eq_false negative, if_neg Bool.false_ne_true]

/-- A choice between the operands by a comparison. -/
theorem represents_choose {p : Nat → Nat → Nat → Prop} [∀ n x y, Decidable (p n x y)] {q : (n : Nat) → BitVec n → BitVec n → Bool}
    (same : ∀ n (x y : BitVec n), p n x.toNat y.toNat ↔ q n x y = true) :
    Represents (fun n x y => if p n x y then y else x) fun n x y => if q n x y then y else x := fun n x y => by
  simp only [same, apply_ite (BitVec.ofNat n), ofNat_toNat_self]

/-- A comparison delivers 1 or 0. -/
theorem represents_compare {p : Nat → Nat → Nat → Prop} [∀ n x y, Decidable (p n x y)] {q : (n : Nat) → BitVec n → BitVec n → Prop}
    [∀ n x y, Decidable (q n x y)] (same : ∀ n (x y : BitVec n), p n x.toNat y.toNat ↔ q n x y) :
    Represents (fun n x y => (decide (p n x y)).toNat) fun n x y => if q n x y then 1 else 0 := fun n x y => by
  dsimp only
  by_cases holds : q n x y
  · rw [decide_eq_true ((same n x y).mpr holds), if_pos holds]; rfl
  · rw [decide_eq_false (mt (same n x y).mp holds), if_neg holds]; rfl

theorem sx_lt_iff_slt (n : Nat) (x y : BitVec n) : sx n x.toNat < sx n y.toNat ↔ x.slt y = true := by
  rw [sx_toNat, sx_toNat, BitVec.slt_iff_toInt_lt]

theorem sx_le_iff_sle (n : Nat) (x y : BitVec n) : sx n x.toNat ≤ sx n y.toNat ↔ x.sle y = true := by
  rw [sx_toNat, sx_toNat, BitVec.sle_iff_toInt_le]

theorem toNat_lt_iff_ult (n : Nat) (x y : BitVec n) : x.toNat < y.toNat ↔ x.ult y = true := BitVec.ult_iff_toNat_lt.symm

theorem toNat_le_iff_ule (n : Nat) (x y : BitVec n) : x.toNat ≤ y.toNat ↔ x.ule y = true := BitVec.ule_iff_toNat_le.symm

theorem represents_cmpne : Represents (fun _ x y => (decide (x ≠ y)).toNat) fun _ x y => if x = y then 0 else 1 := fun n x y => by
  simp only [← ite_not (p := x = y)]
  exact represents_compare (p := fun _ x y => x ≠ y) (q := fun _ x y => ¬ x = y) (fun _ _ _ => not_congr BitVec.toNat_inj) n x y

/-! The four bytes of a lane. -/

theorem toNat_append_eq_add {m n : Nat} (x : BitVec m) (y : BitVec n) : (x ++ y).toNat = x.toNat * 2 ^ n + y.toNat := by
  rw [BitVec.toNat_append, ← Nat.shiftLeft_add_eq_or_of_lt y.isLt, Nat.shiftLeft_eq]

theorem ofNat_bytes (b0 b1 b2 b3 : BitVec 8) :
    BitVec.ofNat 32 (b0.toNat + b1.toNat * 256 + b2.toNat * 65536 + b3.toNat * 16777216) = b3 ++ b2 ++ b1 ++ b0 := by
  apply BitVec.eq_of_toNat_eq
  simp only [toNat_append_eq_add, BitVec.toNat_ofNat]
  have := b0.isLt; have := b1.isLt; have := b2.isLt; have := b3.isLt
  omega

theorem byte_eq_toNat (x : W32) (i : Nat) : x.toNat / 256 ^ i % 256 = (x.extractLsb' (8 * i) 8).toNat := by
  rw [BitVec.extractLsb'_toNat, Nat.shiftRight_eq_div_pow, Nat.pow_mul]

/-- An integer operation of the model is the claimed function on the lane or on each of its bytes. -/
theorem intOp_eq_widthLane {f : Nat → Nat → Nat → Nat} {g : WidthFn} (h : Represents f g) (ty : BitVec 3) (x y : W32) :
    intOp ty f x y = widthLane ty g x y := by
  have byte : ∀ i, f 8 (x.toNat / 256 ^ i % 256) (y.toNat / 256 ^ i % 256) % 256
      = (g 8 (x.extractLsb' (8 * i) 8) (y.extractLsb' (8 * i) 8)).toNat := fun i => by
    rw [byte_eq_toNat, byte_eq_toNat, ← h, BitVec.toNat_ofNat]
  unfold intOp widthLane
  split
  · simp only [perByte, byte, ofNat_bytes]
  · exact h 32 x y

/-- Every integer word of a width computes, on each lane or byte, a function on numbers that represents its claimed one. -/
theorem widthWords_compute : ∀ x ∈ widthWords, ∃ f, Represents f x.2.2.2 ∧
    ComputesLanes x.1 x.2.1 1 (if x.2.2.1 then 2 else 1) fun w _ a b _ => (intOp w.ty f a b, 0) := by
  simp only [widthWords, List.forall_mem_cons, List.not_mem_nil, false_imp_iff, implies_true, and_true]
  exact ⟨⟨_, represents_add, rfl, fun _ _ => rfl⟩,
    ⟨_, represents_sub, rfl, fun _ _ => rfl⟩,
    ⟨_, represents_choose fun n x y => sx_lt_iff_slt n y x, rfl, fun _ _ => rfl⟩,
    ⟨_, represents_choose sx_lt_iff_slt, rfl, fun _ _ => rfl⟩,
    ⟨_, represents_choose fun n x y => toNat_lt_iff_ult n y x, rfl, fun _ _ => rfl⟩,
    ⟨_, represents_choose toNat_lt_iff_ult, rfl, fun _ _ => rfl⟩,
    ⟨_, represents_abs, rfl, fun _ _ => rfl⟩,
    ⟨_, represents_neg, rfl, fun _ _ => rfl⟩,
    ⟨_, represents_compare fun _ _ _ => BitVec.toNat_inj, rfl, fun _ _ => rfl⟩,
    ⟨_, represents_cmpne, rfl, fun _ _ => rfl⟩,
    ⟨_, represents_compare sx_lt_iff_slt, rfl, fun _ _ => rfl⟩,
    ⟨_, represents_compare sx_le_iff_sle, rfl, fun _ _ => rfl⟩,
    ⟨_, represents_compare toNat_lt_iff_ult, rfl, fun _ _ => rfl⟩,
    ⟨_, represents_compare toNat_le_iff_ule, rfl, fun _ _ => rfl⟩⟩

/-- Settles O1: each word computes lane by lane (`widthWords_compute`) a function that is the claimed one on the lane and on its bytes
(`intOp_eq_widthLane`). -/
theorem integerWordsDeliverTheirFunction : Obligations.IntegerWordsDeliverTheirFunction := by
  rintro x mem w s - h
  obtain ⟨f, represents, computes⟩ := widthWords_compute x mem
  have delivers := computes.delivers h
  simp only [intOp_eq_widthLane represents] at delivers
  cases reads : x.2.2.1 <;> simpa [reads] using delivers

/-! Lane functions (R98, R100). -/

theorem toNat_count (x : W32) : (x &&& 31).toNat = shiftCount x := by
  rw [BitVec.toNat_and, shiftCount]
  exact Nat.and_two_pow_sub_one_eq_mod x.toNat 5

/-- The high half of a 64-bit product. -/
theorem mulh_eq (x y : W32) : BitVec.ofInt 32 (x.toInt * y.toInt / 2 ^ 32) = (x.signExtend 64 * y.signExtend 64).extractLsb' 32 32 := by
  have product : x.signExtend 64 * y.signExtend 64 = BitVec.ofInt 64 (x.toInt * y.toInt) := (BitVec.ofInt_mul ..).symm
  rw [product]
  generalize x.toInt * y.toInt = p
  apply BitVec.eq_of_toNat_eq
  rw [BitVec.extractLsb'_toNat, BitVec.toNat_ofInt, BitVec.toNat_ofInt, Nat.shiftRight_eq_div_pow]
  omega

theorem mulhu_eq (x y : W32) : BitVec.ofNat 32 (x.toNat * y.toNat / 2 ^ 32) = (x.zeroExtend 64 * y.zeroExtend 64).extractLsb' 32 32 := by
  have product : x.zeroExtend 64 * y.zeroExtend 64 = BitVec.ofNat 64 (x.toNat * y.toNat) := by
    rw [BitVec.ofNat_mul, BitVec.ofNat_toNat, BitVec.ofNat_toNat]
  rw [product]
  generalize x.toNat * y.toNat = p
  apply BitVec.eq_of_toNat_eq
  rw [BitVec.extractLsb'_toNat, BitVec.toNat_ofNat, BitVec.toNat_ofNat, Nat.shiftRight_eq_div_pow]
  omega

/-- Scanning from bit n down finds the highest one bit of a word that has none above n. -/
theorem clzAuxRec_eq_log2 {w : Nat} (x : BitVec w) (nonzero : x.toNat ≠ 0) {n : Nat} (small : x.toNat < 2 ^ (n + 1)) :
    x.clzAuxRec n = BitVec.ofNat w (w - 1 - x.toNat.log2) := by
  induction n with
  | zero =>
    have one : x.toNat = 1 := by omega
    have bit : x.getLsbD 0 = true := by rw [BitVec.getLsbD, one]; rfl
    rw [BitVec.clzAuxRec_zero, if_pos bit, one]; rfl
  | succ n ih =>
    rw [BitVec.clzAuxRec_succ]
    split
    next bit =>
      have top : x.toNat.log2 = n + 1 := (Nat.log2_eq_iff nonzero).mpr ⟨Nat.ge_two_pow_of_testBit bit, small⟩
      rw [top]
    next bit => exact ih (Nat.lt_pow_two_of_testBit _ fun i above => by
        rcases Nat.eq_or_lt_of_le above with rfl | above
        · exact Bool.eq_false_iff.mpr bit
        · exact Nat.testBit_lt_two_pow (Nat.lt_of_lt_of_le small (Nat.pow_le_pow_right Nat.two_pos above)))

theorem clz32_eq (x : W32) : BitVec.ofNat 32 (clz32 x) = x.clz := by
  unfold clz32
  split
  next zero => exact (BitVec.clz_eq_iff_eq_zero.mpr zero).symm
  next nonzero => exact (clzAuxRec_eq_log2 x (fun zero => nonzero (BitVec.eq_of_toNat_eq zero)) x.isLt).symm

/-- Counting by addition is counting. -/
theorem foldl_add_toNat (p : Nat → Bool) (l : List Nat) (n : Nat) : l.foldl (fun n i => n + (p i).toNat) n = n + l.countP p := by
  induction l generalizing n with
  | nil => rfl
  | cons i l ih =>
    rw [List.foldl_cons, ih, List.countP_cons, Nat.add_assoc, Nat.add_comm (l.countP p)]
    cases p i <;> rfl

theorem popc32_eq (x : W32) : popc32 x = (List.range 32).countP fun i => x.getLsbD i := by
  rw [popc32, foldl_add_toNat, Nat.zero_add]

/-- Every lane word computes its claimed function on each lane. -/
theorem laneWords_compute : ∀ x ∈ laneWords, ∃ f : W32 → W32 → W32 → W32, (∀ a b c, f a b c = x.2.2.2 a b c) ∧
    ComputesLanes x.1 x.2.1 1 x.2.2.1 fun _ _ a b c => (f a b c, 0) := by
  simp only [laneWords, List.forall_mem_cons, List.not_mem_nil, false_imp_iff, implies_true, and_true]
  exact ⟨⟨_, fun _ _ _ => rfl, rfl, fun _ _ => rfl⟩,
    ⟨_, fun _ _ _ => rfl, rfl, fun _ _ => rfl⟩,
    ⟨_, fun x y _ => mulh_eq x y, rfl, fun _ _ => rfl⟩,
    ⟨_, fun x y _ => mulhu_eq x y, rfl, fun _ _ => rfl⟩,
    ⟨_, fun _ _ _ => rfl, rfl, fun _ _ => rfl⟩,
    ⟨_, fun _ _ _ => rfl, rfl, fun _ _ => rfl⟩,
    ⟨_, fun _ _ _ => rfl, rfl, fun _ _ => rfl⟩,
    ⟨_, fun _ _ _ => rfl, rfl, fun _ _ => rfl⟩,
    ⟨_, fun _ _ _ => rfl, rfl, fun _ _ => rfl⟩,
    ⟨_, fun _ _ _ => rfl, rfl, fun _ _ => rfl⟩,
    ⟨_, fun x y _ => by rw [BitVec.shiftLeft_eq', toNat_count], rfl, fun _ _ => rfl⟩,
    ⟨_, fun x y _ => by rw [BitVec.ushiftRight_eq', toNat_count], rfl, fun _ _ => rfl⟩,
    ⟨_, fun x y _ => by rw [BitVec.sshiftRight', toNat_count], rfl, fun _ _ => rfl⟩,
    ⟨_, fun x y _ => by rw [toNat_count], rfl, fun _ _ => rfl⟩,
    ⟨_, fun x _ _ => clz32_eq x, rfl, fun _ _ => rfl⟩,
    ⟨_, fun x _ _ => congrArg (BitVec.ofNat 32) (popc32_eq x), rfl, fun _ _ => rfl⟩⟩

/-- Settles O2: each word computes its claimed function lane by lane (`laneWords_compute`). -/
theorem laneWordsDeliverTheirFunction : Obligations.LaneWordsDeliverTheirFunction := by
  intro x mem w s h
  obtain ⟨f, same, computes⟩ := laneWords_compute x mem
  have delivers := computes.delivers h
  simp only [same] at delivers
  exact delivers

end Sys2Proof.Machine
end

section
/-! PROOF. What a word with a register result leaves as it was until the result lands (R94). -/
namespace Sys2Proof.Machine
open Sys2Proof.Claims

/-- The word puts one entry into the pipeline of the core in focus, and does nothing else. -/
def OnlyLaunches (o : Res) (s : State) : Prop := ∃ lat act, o = .next (s.launchAct lat act)

/-! A launch keeps every other part of the state. -/

theorem launchAct_page_ne (s : State) (lat : Nat) (a : LandAct) {p : Nat} (h : p ≠ s.focus.page) : (s.launchAct lat a).page p = s.page p :=
  s.page_modCore_ne _ _ h

theorem launchAct_core_ne (s : State) (lat : Nat) (a : LandAct) {p c : Nat} (h : (p, c) ≠ (s.focus.page, s.focus.core)) :
    (s.launchAct lat a).core p c = s.core p c :=
  s.core_modCore_ne _ h

/-- A core of the page in focus out of range reads the same before and after a change of it. -/
theorem Page.core_setCore_of_le (pg : Page) {c : Nat} (k : Core) (h : pg.cores.length ≤ c) : (pg.setCore c k).core c = pg.core c := by
  rw [Page.core, Page.core, Page.setCore, List.set_eq_of_length_le h]

/-- Every core keeps all but its pipeline. -/
theorem launchAct_settled (s : State) (lat : Nat) (a : LandAct) (p c : Nat) : ((s.launchAct lat a).core p c).settled = (s.core p c).settled := by
  by_cases own : (p, c) = (s.focus.page, s.focus.core)
  · obtain ⟨rfl, rfl⟩ := Prod.mk.inj own
    by_cases inside : s.focus.core < (s.page s.focus.page).cores.length
    · rw [State.launchAct, State.core_modCore_self s _ _ inside]
      rfl
    · rw [State.core, State.launchAct, State.modCore, State.page_setCore_self, Page.core_setCore_of_le _ _ (Nat.le_of_not_lt inside), State.core]
  · rw [launchAct_core_ne s lat a own]

theorem launchAct_keepsBytes (s : State) (lat : Nat) (a : LandAct) : KeepsBytes s (s.launchAct lat a)
  | .hbm _ _ => rfl
  | .scratch p c o => congrArg (cellGet · o) (congrArg Core.sp (launchAct_settled s lat a p c) :)
  | .constant p c o => congrArg (cellGet · o) (congrArg Core.cc (launchAct_settled s lat a p c) :)
  | .device _ _ => rfl

/-- A launch changes the pipeline of the core in focus alone. -/
theorem launchAct_keeps (s : State) (lat : Nat) (a : LandAct) :
    let t := s.launchAct lat a
    t.offPages = s.offPages ∧ KeepsBytes s t
      ∧ (∀ p, p ≠ s.focus.page → t.page p = s.page p)
      ∧ (∀ c, c ≠ s.focus.core → t.core s.focus.page c = s.core s.focus.page c)
      ∧ t.fcore.settled = s.fcore.settled
      ∧ { t.page s.focus.page with cores := [] } = { s.page s.focus.page with cores := [] } := by
  refine ⟨rfl, launchAct_keepsBytes s lat a, fun p other => launchAct_page_ne s lat a other, fun c other => ?_, launchAct_settled s lat a _ _, ?_⟩
  · exact launchAct_core_ne s lat a fun same => other (Prod.mk.inj same).2
  · rw [State.launchAct, State.modCore, State.page_setCore_self]
    rfl

/-! The words with a register result launch it. -/

/-- A word without a keyed operand, or a void one. -/
def Quiet (op : Nat) (w : EWord) (s : State) : Prop := s.unkeyed op w = true ∨ s.focus.live = false

theorem Quiet.keyCheck {op : Nat} {w : EWord} {s : State} (h : Quiet op w s) : s.keyCheck op w = s := by
  obtain unkeyed | void := h
  · exact State.keyCheck_of_unkeyed unkeyed
  · simp only [State.keyCheck, void, Bool.false_and, Bool.false_eq_true, if_false]

theorem State.issue_onlyLaunches (s : State) (op : Nat) (w : EWord) (lanes : Lanes) (valid mask : W16) (flags : FlagSet) :
    OnlyLaunches (.next (s.issue op w lanes valid mask flags)) s := by
  obtain ⟨r, issued⟩ := s.issue_eq op w lanes valid mask flags
  exact ⟨_, _, congrArg _ issued⟩

theorem Quiet.genOp_onlyLaunches {op : Nat} {w : EWord} {s : State} (h : Quiet op w s) (ok : Srcs → Nat → Bool)
    (comp : Srcs → Nat → W32 × FlagSet) : OnlyLaunches (.next (s.genOp op w ok comp)) s := by
  simp only [State.genOp, h.keyCheck]
  exact s.issue_onlyLaunches ..

theorem Quiet.clrv_onlyLaunches {w : EWord} {s : State} (h : Quiet 0x23 w s) : OnlyLaunches (exec (.eClrv w) s) s := by
  change OnlyLaunches (execEClrv w s) s
  simp only [execEClrv, h.keyCheck]
  exact s.issue_onlyLaunches ..

theorem Quiet.lanei_onlyLaunches {w : EWord} {s : State} (h : Quiet 0x2C w s) : OnlyLaunches (exec (.eLanei w) s) s := by
  change OnlyLaunches (execELanei w s) s
  simp only [execELanei, h.keyCheck]
  split
  · exact s.issue_onlyLaunches ..
  · split <;> exact ⟨_, _, rfl⟩

/-- The word computes each of its result lanes from its sources: its opcode, and for each word and state an input validity and a computation. -/
def ComputesResult (word : EWord → Instr) (op : Nat) : Prop := ∀ w s, ∃ ok comp, exec (word w) s = .next (s.genOp op w ok comp)

theorem ComputesResult.onlyLaunches {word : EWord → Instr} {op : Nat} (computes : ComputesResult word op) {w : EWord} {s : State}
    (h : Quiet op w s) : OnlyLaunches (exec (word w) s) s := by
  obtain ⟨ok, comp, meaning⟩ := computes w s
  rw [meaning]
  exact h.genOp_onlyLaunches ok comp

theorem State.laneOp_eq_genOp (s : State) (op : Nat) (w : EWord) (fn : Nat → W32 → W32 → W32 → W32 × FlagSet) :
    ∃ ok comp, s.laneOp op w fn = s.genOp op w ok comp := by
  unfold State.laneOp
  exact ⟨_, _, rfl⟩

theorem computesResult_of_laneOp {word : EWord → Instr} {op : Nat}
    (lanes : ∀ w s, ∃ fn, exec (word w) s = .next (s.laneOp op w fn)) : ComputesResult word op := fun w s => by
  obtain ⟨fn, meaning⟩ := lanes w s
  obtain ⟨ok, comp, same⟩ := s.laneOp_eq_genOp op w fn
  exact ⟨ok, comp, meaning.trans (congrArg _ same)⟩

theorem ComputesLanes.computesResult {word : EWord → Instr} {op lat reads : Nat} {fn : EWord → Nat → W32 → W32 → W32 → W32 × FlagSet}
    (computes : ComputesLanes word op lat reads fn) : ComputesResult word op := by
  obtain ⟨-, meaning⟩ := computes
  exact computesResult_of_laneOp fun w s => ⟨_, meaning w s⟩

theorem moveWords_computeResult : ∀ x ∈ moveWords, ComputesResult x.1 x.2.1 := by
  simp only [moveWords, List.forall_mem_cons, List.not_mem_nil, false_imp_iff, implies_true, and_true]
  and_intros <;> exact fun _ _ => ⟨_, _, rfl⟩

theorem floatWords_computeResult : ∀ x ∈ floatWords, ComputesResult x.1 x.2.1 := by
  simp only [floatWords, List.forall_mem_cons, List.not_mem_nil, false_imp_iff, implies_true, and_true]
  and_intros <;> exact computesResult_of_laneOp fun _ _ => ⟨_, rfl⟩

theorem mixedWords_computeResult : ∀ x ∈ mixedWords, ComputesResult x.1 x.2.1 := by
  simp only [mixedWords, List.forall_mem_cons, List.not_mem_nil, false_imp_iff, implies_true, and_true]
  and_intros <;> exact computesResult_of_laneOp fun _ _ => ⟨_, rfl⟩

theorem blockWords_computeResult : ∀ x ∈ blockWords, ComputesResult x.1 x.2.1 := by
  simp only [blockWords, List.forall_mem_cons, List.not_mem_nil, false_imp_iff, implies_true, and_true]
  and_intros <;> exact fun _ _ => ⟨_, _, rfl⟩

/-- Every word with a register result launches it and does nothing else. -/
theorem resultWords_onlyLaunch : ∀ x ∈ resultWords, ∀ (w : EWord) (s : State), Quiet x.2.1 w s → OnlyLaunches (exec (x.1 w) s) s := by
  simp only [resultWords, List.forall_mem_append, List.forall_mem_map, List.forall_mem_cons, List.not_mem_nil, false_imp_iff, implies_true, and_true]
  refine ⟨⟨⟨⟨⟨⟨fun x mem _ _ h => ?_, fun x mem _ _ h => ?_⟩, fun x mem _ _ => ?_⟩, ?_⟩, fun x mem _ _ => ?_⟩, fun x mem _ _ => ?_⟩,
    fun x mem _ _ => ?_⟩
  · obtain ⟨_, -, computes⟩ := widthWords_compute x mem
    exact computes.computesResult.onlyLaunches h
  · obtain ⟨_, -, computes⟩ := laneWords_compute x mem
    exact computes.computesResult.onlyLaunches h
  · exact (moveWords_computeResult x mem).onlyLaunches
  · exact ⟨fun _ _ => Quiet.clrv_onlyLaunches, fun _ _ => Quiet.lanei_onlyLaunches, fun _ _ h => h.genOp_onlyLaunches _ _,
      fun _ _ h => h.genOp_onlyLaunches _ _, fun _ _ h => h.genOp_onlyLaunches _ _, fun _ _ h => h.genOp_onlyLaunches _ _,
      fun _ _ h => h.genOp_onlyLaunches _ _, fun _ _ h => h.genOp_onlyLaunches _ _⟩
  · exact (floatWords_computeResult x mem).onlyLaunches
  · exact (mixedWords_computeResult x mem).onlyLaunches
  · exact (blockWords_computeResult x mem).onlyLaunches

/-- Settles O8: each word only launches its result (`resultWords_onlyLaunch`), and a launch keeps the rest (`launchAct_keeps`). -/
theorem resultWordsKeepEverythingElse : Obligations.ResultWordsKeepEverythingElse := by
  intro x mem w s t h next
  obtain ⟨lat, act, launched⟩ := resultWords_onlyLaunch x mem w s h
  obtain rfl : t = s.launchAct lat act := Host.Outcome.next.inj (next.symm.trans launched)
  exact launchAct_keeps s lat act

end Sys2Proof.Machine
end

section
/-! PROOF. The control words of a core (R102, R112, R114, R140, R355). -/
namespace Sys2Proof.Machine
open Sys2Proof.Claims

/-! STEER and TRAPIF: a lane that acts is what the claims call a lane that stands. -/

theorem actsOn_eq_laneStands (w : EWord) (r : Srcs) (i : Nat) : actsOn w r.a r.c i = laneStands w r r.a.ok i := rfl

/-- What a STEER in focus sends for a task: the condition, and the skew of its core and of the page in the task's layout (R112, R215). -/
def steerOf (s : State) (w : EWord) (t : Task) : Steer :=
  { at_ := s.cycle, skew := s.focus.core + t.delta.getD (s.page s.focus.page).rp 0, cond := decide ((s.srcs 0x2D w).a.lane 0 ≠ 0) }

/-- The task filed under a number is sent one more condition. -/
def State.sendSteer (s : State) (n : Nat) (f : Task → Steer) : State := s.modTask n fun t => { t with steers := t.steers ++ [f t] }

/-- R112: when lane 0 stands, a live STEER sends the condition of the page's owner to the task that is filed under the owner's number. -/
theorem exec_steer_of_live {w : EWord} {s : State} (h : liveWord 0x2D w s) {t : Task} (owned : s.owner s.focus.page = some t) :
    exec (.eSteer w) s = .next (if laneStands w (s.srcs 0x2D w) (s.srcs 0x2D w).a.ok 0 then
        s.sendSteer t.tid fun _ => steerOf s w t
      else s) := by
  obtain ⟨live, unkeyed⟩ := h
  change execESteer w s = _
  simp only [execESteer, owned, State.keyCheck_of_unkeyed unkeyed, live, Bool.true_and, actsOn_eq_laneStands]
  split <;> rfl

theorem State.modTask_congr {s : State} {n : Nat} {f g : Task → Task} (same : ∀ t, s.task n = some t → f t = g t) :
    s.modTask n f = s.modTask n g := by
  unfold State.modTask
  split
  next => rfl
  next t filed => rw [same t filed]

/-- Where the owner of the page is filed under its own number, the skew that STEER sends is that of the task that it reaches. -/
theorem exec_steer_of_filed {w : EWord} {s : State} (h : liveWord 0x2D w s) {t : Task} (owned : s.owner s.focus.page = some t)
    (filed : s.task t.tid = some t) :
    exec (.eSteer w) s = .next (if laneStands w (s.srcs 0x2D w) (s.srcs 0x2D w).a.ok 0 then s.sendSteer t.tid (steerOf s w) else s) := by
  have same : (s.sendSteer t.tid fun _ => steerOf s w t) = s.sendSteer t.tid (steerOf s w) := State.modTask_congr fun u found => by
    obtain rfl : t = u := Option.some.inj (filed.symm.trans found)
    rfl
  rw [exec_steer_of_live h owned, same]

/-- Does TRAPIF trap at lane i (R114)? -/
def trapifFires (w : EWord) (s : State) (i : Nat) : Bool :=
  laneStands w (s.srcs 0x2E w) (s.srcs 0x2E w).a.ok i && decide ((s.srcs 0x2E w).a.lane i ≠ 0)

/-- R114: a live TRAPIF traps at the first lane found that fires, and otherwise does nothing. -/
theorem exec_trapif_of_live {w : EWord} {s : State} (h : liveWord 0x2E w s) :
    exec (.eTrapif w) s = .next (((List.range 16).find? (trapifFires w s)).elim s
      fun i => s.elemTrap 1 2 i none (((s.srcs 0x2E w).a.lane i).setWidth 128)) := by
  obtain ⟨live, unkeyed⟩ := h
  have fires : (fun i => s.focus.live && actsOn w (s.srcs 0x2E w).a (s.srcs 0x2E w).c i && decide ((s.srcs 0x2E w).a.lane i ≠ 0))
      = trapifFires w s := funext fun i => by rw [live, Bool.true_and, actsOn_eq_laneStands]; rfl
  change execETrapif w s = _
  simp only [execETrapif, fires, State.keyCheck_of_unkeyed unkeyed]
  cases (List.range 16).find? (trapifFires w s) <;> rfl

/-- With no lane that fires it does nothing. -/
theorem exec_trapif_of_calm {w : EWord} {s : State} (h : liveWord 0x2E w s) (calm : ∀ i < 16, trapifFires w s i = false) :
    exec (.eTrapif w) s = .next s := by
  have none : (List.range 16).find? (trapifFires w s) = none :=
    List.find?_range_eq_none.mpr fun i lt => (Bool.not_eq_true' _).mpr (calm i lt)
  rw [exec_trapif_of_live h, none]
  rfl

/-- It traps at the lowest lane that fires. -/
theorem exec_trapif_of_lowest {w : EWord} {s : State} (h : liveWord 0x2E w s) {i : Nat} (lt : i < 16) (fires : trapifFires w s i = true)
    (lowest : ∀ j < i, trapifFires w s j = false) :
    exec (.eTrapif w) s = .next (s.elemTrap 1 2 i none (((s.srcs 0x2E w).a.lane i).setWidth 128)) := by
  have first : (List.range 16).find? (trapifFires w s) = some i :=
    List.find?_range_eq_some.mpr ⟨fires, List.mem_range.mpr lt, fun j below => (Bool.not_eq_true' _).mpr (lowest j below)⟩
  rw [exec_trapif_of_live h, first]
  rfl

/-! RDCTL and WRCTL. -/

/-- Result lane i of RDCTL. -/
def rdctlLane (w : EWord) (x : W64) (i : Nat) : W32 :=
  if i = 0 then x.setWidth 32 else if i = 1 ∧ isScalar w = false then (x >>> 32).setWidth 32 else 0

/-- The valid lanes of RDCTL. -/
def rdctlValid (w : EWord) : W16 := if isScalar w then 1 else 0xFFFF

theorem laneOf_rdctl_zero (w : EWord) (x : W64) : laneOf (mkLanes (rdctlLane w x)) 0 = x.setWidth 32 := laneOf_mkLanes _ (by omega)

theorem laneOf_rdctl_one {w : EWord} (vector : isScalar w = false) (x : W64) :
    laneOf (mkLanes (rdctlLane w x)) 1 = x.extractLsb' 32 32 := by
  rw [laneOf_mkLanes _ (by omega), rdctlLane, if_neg (by omega), if_pos ⟨rfl, vector⟩, BitVec.setWidth_ushiftRight_eq_extractLsb]

theorem rdctlValid_zero (w : EWord) : (rdctlValid w).getLsbD 0 = true := by
  unfold rdctlValid
  cases isScalar w <;> rfl

theorem rdctlValid_of_vector {w : EWord} (vector : isScalar w = false) : rdctlValid w = 0xFFFF := by
  rw [rdctlValid, vector, if_neg Bool.false_ne_true]

/-- A live RDCTL delivers the low word of the register in lane 0, and its high word in lane 1 of a vector (R140). -/
theorem exec_rdctl_of_live {w : EWord} {s : State} (live : s.focus.live = true) :
    let x := s.ctlReg s.focus.page s.focus.core w.a.toNat
    ∃ r : Result, exec (.eRdctl w) s = .next (s.launchAct 1 (.result r)) ∧ (r.reg, r.sides, r.narrow) = destOf s.fcore w
      ∧ laneOf r.lanes 0 = x.setWidth 32 ∧ r.valid.getLsbD 0 = true
      ∧ (isScalar w = false → laneOf r.lanes 1 = x.extractLsb' 32 32 ∧ r.valid = 0xFFFF) := by
  intro x
  have issued := State.issue_of_live live 0x75 w (mkLanes (rdctlLane w x), rdctlValid w, rdctlValid w, 0)
  exact ⟨_, congrArg Host.Outcome.next issued, rfl, laneOf_rdctl_zero w x, rdctlValid_zero w,
    fun vector => ⟨laneOf_rdctl_one vector x, rdctlValid_of_vector vector⟩⟩

/-- A word shifted above another is the two side by side. -/
theorem setWidth_or_shiftLeft_eq_append (lo hi : W32) : lo.setWidth 64 ||| (hi.setWidth 64 <<< 32) = hi ++ lo := by
  rw [BitVec.or_comm, ← BitVec.setWidth_append_eq_shiftLeft_setWidth_or, BitVec.setWidth_eq]

/-- R28, R33, R140: a live WRCTL that acts lands its one or two words in the next cycle. -/
theorem exec_wrctl_of_live {w : EWord} {s : State} (h : liveWord 0x76 w s) :
    let r := s.srcs 0x76 w
    let one := oneWord w.b.toNat
    let acts := if w.vm = 3 then decide (r.c.lane 0 ≠ 0) else r.b.ok 0 && (one || r.b.ok 1)
    exec (.eWrctl w) s = .next (if acts then s.launchAct 1 (.ctl w.a.toNat ((if one then 0 else r.b.lane 1) ++ r.b.lane 0)) else s) := by
  obtain ⟨live, unkeyed⟩ := h
  have high : ∀ (one : Bool) (x : W32), (if one then (0 : W64) else x.setWidth 64) = (if one then (0 : W32) else x).setWidth 64 :=
    fun one x => by cases one <;> rfl
  change execEWrctl w s = _
  simp only [execEWrctl, State.keyCheck_of_unkeyed unkeyed, live, Bool.true_and, high, setWidth_or_shiftLeft_eq_append]
  exact (apply_ite Host.Outcome.next ..).symm

/-! A state in which the owner of a page is filed under another task's number. -/

/-- Page 0 belongs to the task filed under 1, which bears the number 2; the task filed under 2 lies one cycle later on its page 0. -/
def misfiled : State :=
  { focus := { live := true }, pages := [(0, { owner := some 1 })]
    tasks := [(1, { tid := 2, part := 0, tenant := 0 }), (2, { tid := 2, part := 0, tenant := 0, delta := [1] })] }

/-- A STEER that acts whatever its operand (R21). -/
def blindSteer : EWord := { vm := 1 }

/-- The skews of the conditions that task 2 has been sent. -/
def skewsOfTwo (s : State) : Option (List Nat) := (s.task 2).map fun t => t.steers.map Steer.skew

theorem skewsOfTwo_sendSteer (f : Task → Steer) :
    skewsOfTwo (misfiled.sendSteer 2 f) = some [(f { tid := 2, part := 0, tenant := 0, delta := [1] }).skew] := by
  rw [skewsOfTwo, State.sendSteer, State.task_modTask, if_pos rfl]
  rfl

/-- Refutes O12: its clause on STEER takes the page's delay from the task that is sent the condition, the model from the task that owns the page. They
are one task wherever the owner is filed under its own number, and there the clause holds (`exec_steer_of_filed`); in a state that files the owner
under another number they differ. The other clauses hold (`exec_trapif_of_calm`, `exec_trapif_of_lowest`, `exec_rdctl_of_live`,
`exec_wrctl_of_live`). -/
theorem not_controlWordsOfACore : ¬ Obligations.ControlWordsOfACore := by
  unfold Obligations.ControlWordsOfACore
  intro h
  have unkeyed : misfiled.unkeyed 0x2D blindSteer = true := by decide
  have acts (r : Srcs) : laneStands blindSteer r r.a.ok 0 = true := rfl
  obtain ⟨-, steer, -⟩ := h blindSteer misfiled rfl
  have claimed : exec (.eSteer blindSteer) misfiled = .next (misfiled.sendSteer 2 (steerOf misfiled blindSteer)) :=
    (steer unkeyed (by decide) { tid := 2, part := 0, tenant := 0 } rfl).trans (congrArg _ (if_pos (acts _)))
  have sent : exec (.eSteer blindSteer) misfiled
      = .next (misfiled.sendSteer 2 fun _ => steerOf misfiled blindSteer { tid := 2, part := 0, tenant := 0 }) :=
    (exec_steer_of_live ⟨rfl, unkeyed⟩ rfl).trans (congrArg _ (if_pos (acts _)))
  have skews := congrArg skewsOfTwo (Host.Outcome.next.inj (sent.symm.trans claimed))
  rw [skewsOfTwo_sendSteer, skewsOfTwo_sendSteer] at skews
  exact absurd skews (by decide)

end Sys2Proof.Machine
end

section
/-! PROOF. The control and meeting words of a sequencer, and its special registers (R156, R158, R161 to R169, R173 to R175, R209). -/
namespace Sys2Proof.Machine
open Sys2Proof.Claims

/-- Changes of a page that agree on the page as it stands give the same state. -/
theorem State.modPage_congr {s : State} {p : Nat} {f g : Page → Page} (same : f (s.page p) = g (s.page p)) : s.modPage p f = s.modPage p g :=
  congrArg (s.setPage p) same

theorem State.done_completes (s : State) (f : Page → Page) : Completes (.next (s.done f)) s f := rfl

/-! Control words. -/

/-- A word of at most one cycle that stands ready completes at once. -/
theorem State.holdFor_short {s : State} {n : Nat} (f : Page → Page) (ready : s.fpage.phase = .ready) (short : n ≤ 1) : s.holdFor n f = s.done f := by
  simp only [State.holdFor, ready, short, if_true, State.done]

/-- A body that is skipped ends like its last word (R156). -/
theorem Page.complete_of_skip (pg : Page) {len : Nat} (fits : pg.pc.toNat + len < 2048) :
    ({ pg with pc := BitVec.ofNat 11 (pg.pc.toNat + len) } : Page).complete
      = { pg with rep := (stepRep pg.rep (pg.pc.toNat + len)).1, pc := BitVec.ofNat 11 (stepRep pg.rep (pg.pc.toNat + len)).2, phase := .ready } := by
  simp only [Page.complete_eq, BitVec.toNat_ofNat, Nat.mod_eq_of_lt fits]

/-- R163: HALT of an idle page parks it, or traps at a page that it does not meet. -/
theorem exec_halt_of_idle {w : SWord} {s : State} {t : Task} (owned : s.owner s.focus.page = some t) (idle : s.fpage.idle = true) :
    exec (.sHalt w) s = .next ((s.reach t 4).getD
      (let s1 := s.onPage fun pg => { pg with halted := some w.imm, phase := .parked, since := s.cycle }
       if s.fpage.rp = 0 then s1.modTask t.tid fun t => { t with exit := some w.imm } else s1)) := by
  change execSHalt w s = _
  simp only [execSHalt, owned, idle, Bool.not_true, Bool.false_eq_true, if_false]
  cases s.reach t 4 <;> rfl

theorem exec_halt_of_busy {w : SWord} {s : State} (busy : s.fpage.idle = false) : exec (.sHalt w) s = .next s := by
  change execSHalt w s = _
  cases owned : s.owner s.focus.page with
  | none => simp only [execSHalt, owned]
  | some t => simp only [execSHalt, owned, busy, Bool.not_false, if_true]

/-- Settles O18: each word's meaning ends in `State.done`, in one change of its page, or in its trap. -/
theorem controlWordsOfASequencer : Obligations.ControlWordsOfASequencer := by
  intro w s
  refine ⟨⟨fun pushes => ?push, fun zero fits => ?skip⟩, ?ksw, State.done_completes s _,
    fun t owned idle => ⟨fun alone => ?parks, fun s1 meets => ?meets⟩,
    exec_halt_of_busy, ?trap, fun ready short => ?short, fun ready long => ?long, fun c held => ⟨fun last => ?last, fun before => ?wait⟩⟩
  case push => exact congrArg _ (State.modPage_congr (if_neg pushes))
  case skip =>
    refine congrArg _ (State.modPage_congr ?_)
    exact (if_pos zero).trans (Page.complete_of_skip s.fpage fits).symm
  case ksw => rw [← BitVec.setWidth_eq_extractLsb' (by omega)]; exact State.done_completes s _
  case parks => rw [exec_halt_of_idle owned idle, alone]; rfl
  case meets => rw [exec_halt_of_idle owned idle, meets]; rfl
  case trap => rw [← BitVec.setWidth_eq_extractLsb' (by omega)]; rfl
  case short => exact congrArg _ (State.holdFor_short id ready short)
  case long => exact congrArg _ (State.holdFor_more id ready long)
  case last => exact congrArg _ (State.holdFor_last id held last)
  case wait => exact congrArg _ (State.holdFor_wait id held before)

/-! Meeting words. -/

/-- R168, R209: a word that meets no other page's raises sync_mismatch on its own page or on the other. -/
theorem State.reach_eq_some {s s1 : State} {t : Task} {kind : Nat} (meets : s.reach t kind = some s1) :
    ∃ q ∈ t.pages, q ≠ s.focus.page ∧ (s1 = s.seqTrap s.focus.page 1 11 ∨ s1 = s.seqTrap q 1 11) := by
  unfold State.reach at meets
  dsimp only at meets
  split at meets
  next => cases meets
  next q found =>
    obtain rfl := Option.some.inj meets
    have apart := List.find?_some found
    simp only [Bool.and_eq_true, decide_eq_true_eq] at apart
    refine ⟨q, List.mem_of_find?_eq_some found, apart.1, ?_⟩
    split
    · exact .inr rfl
    · exact .inl rfl

/-- A word that arrives holds its page, or traps at a page that it does not meet. -/
theorem State.arrive_eq (s : State) (t : Task) (kind : Nat) :
    s.arrive t kind = (s.reach t kind).getD (s.onPage fun pg => { pg with phase := .arrived, since := s.cycle }) := by
  unfold State.arrive
  cases s.reach t kind <;> rfl

section
variable {w : SWord} {s : State} {t : Task} (owned : s.owner s.focus.page = some t)
include owned

/-- A page that waits at KRUN asks again each cycle whether the kernel starts (R158, R209). -/
theorem exec_krun_of_waiting (waits : s.fpage.phase = .kern ∨ s.fpage.phase = .join) : exec (.sKrun w) s = .next (s.tryStart t.tid) := by
  change execSKrun w s = _
  obtain kern | join := waits
  · simp only [execSKrun, owned, kern]
  · simp only [execSKrun, owned, join]

theorem exec_waite_of_granted (granted : s.fpage.phase = .granted) : Completes (exec (.sWaite w) s) s id := by
  change Completes (execSWaite w s) s id
  simp only [execSWaite, owned, granted]
  exact s.done_completes id

theorem exec_sige_of_grant (grant : t.rcd.grants (fld w.imm 7 0) = true) :
    exec (.sSige w) s = .next ((s.taskSignal t (32 * s.fpage.rp) (fld w.imm 7 0) (fld w.imm 31 16)).done id) := by
  change execSSige w s = _
  simp only [execSSige, owned, grant, Bool.not_true, Bool.false_eq_true, if_false]

theorem exec_sige_of_no_grant (refused : t.rcd.grants (fld w.imm 7 0) = false) : exec (.sSige w) s = .next (s.seqTrap s.focus.page 3 8) := by
  change execSSige w s = _
  simp only [execSSige, owned, refused, Bool.not_false, if_true]

variable (ready : s.fpage.phase = .ready)
include ready

theorem exec_krun_of_ready : exec (.sKrun w) s = .next ((s.reach t 1).getD
    ((s.onPage fun pg => { pg with phase := if pg.rp = 0 then .kern else .join, since := s.cycle }).tryStart t.tid)) := by
  change execSKrun w s = _
  simp only [execSKrun, owned, ready]
  cases s.reach t 1 <;> rfl

/-- R167: SSEND of another group than the task's is an error. -/
theorem exec_ssend_of_foreign (foreign : t.rcd.bg.getLsbD 7 = false ∨ fld t.rcd.bg 5 0 ≠ fld w.imm 5 0) :
    exec (.sSsend w) s = .next (s.seqTrap s.focus.page 1 10) := by
  change execSSsend w s = _
  simp only [execSSsend, owned, ready, foreign, if_true]

theorem exec_ssend_of_member (member : t.rcd.bg.getLsbD 7 = true) (group : fld t.rcd.bg 5 0 = fld w.imm 5 0) :
    exec (.sSsend w) s = .next (if s.fpage.idle then s.arrive t 3 else s) := by
  change execSSsend w s = _
  simp only [execSSsend, owned, ready, member, group, ne_eq, not_true, Bool.true_eq_false, or_false, if_false]
  cases s.fpage.idle <;> rfl

theorem exec_lsync_of_busy (busy : s.fpage.idle = false) : exec (.sLsync w) s = .next s := by
  change execSLsync w s = _
  simp only [execSLsync, owned, ready, busy, Bool.not_false, if_true]

/-- R168, R310: the last page of the region to arrive starts the local boundary. -/
theorem exec_lsync_of_idle (idle : s.fpage.idle = true) :
    exec (.sLsync w) s = .next (
      if t.pages.all fun q => decide (((s.arrive t 2).page q).atSync = 2) then
        (s.arrive t 2).modTask t.tid fun t => { t with localDue := some (s.cycle + 24) }
      else s.arrive t 2) := by
  change execSLsync w s = _
  simp only [execSLsync, owned, ready, idle, Bool.not_true, Bool.false_eq_true, if_false]
  exact (apply_ite Host.Outcome.next ..).symm

/-- The events that WAITE asks for (R169). -/
def waiteNeed (w : SWord) (s : State) : Nat := if w.mod.getLsbD 0 then fld w.imm 31 16 else fld (s.seqA w) 31 0

theorem exec_waite_of_no_grant (refused : t.rcd.grants (fld w.imm 7 0) = false) : exec (.sWaite w) s = .next (s.seqTrap s.focus.page 3 8) := by
  change execSWaite w s = _
  simp only [execSWaite, owned, ready, refused, Bool.not_false, if_true]

variable (grant : t.rcd.grants (fld w.imm 7 0) = true)
include grant

theorem exec_waite_of_zero (zero : waiteNeed w s = 0) :
    Completes (exec (.sWaite w) s) (s.modTask t.tid fun t => { t with nonIdem := true }) id := by
  change Completes (execSWaite w s) _ id
  unfold waiteNeed at zero
  simp only [execSWaite, owned, ready, grant, zero, Bool.not_true, Bool.false_eq_true, if_false, if_true]
  exact State.done_completes _ id

/-- R169, R247: a wait joins the queue of its event, for a dual-run pair once both copies have issued it. -/
theorem exec_waite_of_need (needs : waiteNeed w s ≠ 0) :
    let r := (s.onPage fun pg => { pg with phase := .queued, since := s.cycle }).dualIssue t (32 * s.fpage.rp)
      [1, fld w.imm 7 0, waiteNeed w s]
    exec (.sWaite w) s = .next (if r.1 then
        r.2.queueWait t.part (fld w.imm 7 0) (.page (if t.copyB then t.dual.getD t.tid else t.tid) s.fpage.rp) (waiteNeed w s)
      else r.2) := by
  change execSWaite w s = _
  unfold waiteNeed at needs ⊢
  simp only [execSWaite, owned, ready, grant, needs, Bool.not_true, Bool.false_eq_true, if_false]

end

/-- Settles O19: each word's equation above, under the hypotheses of its clause. -/
theorem meetingWordsArrive : Obligations.MeetingWordsArrive := by
  refine ⟨fun w s t owned => ⟨exec_waite_of_granted owned, exec_krun_of_waiting owned⟩, fun w s t owned ready => ?_⟩
  refine ⟨fun alone => ?krun, fun member group idle alone => ?ssend, exec_ssend_of_foreign owned ready, fun busy => ⟨exec_lsync_of_busy owned ready busy,
    fun member group => ?busy⟩, fun idle alone => ?lsync, fun s1 meets => ?krunMeets, fun s1 member group idle meets => ?ssendMeets,
    fun _ _ meets => State.reach_eq_some meets, fun low high => ?sige, exec_sige_of_no_grant owned, exec_waite_of_no_grant owned ready,
    exec_waite_of_zero owned ready, exec_waite_of_need owned ready⟩
  case krun => rw [exec_krun_of_ready owned ready, alone]; rfl
  case krunMeets => rw [exec_krun_of_ready owned ready, meets]; rfl
  case ssend => rw [exec_ssend_of_member owned ready member group, if_pos idle, State.arrive_eq, alone]; rfl
  case ssendMeets => rw [exec_ssend_of_member owned ready member group, if_pos idle, State.arrive_eq, meets]; rfl
  case busy => rw [exec_ssend_of_member owned ready member group, busy]; rfl
  case lsync => rw [exec_lsync_of_idle owned ready idle, State.arrive_eq, alone]; rfl
  case sige => exact exec_sige_of_grant owned (decide_eq_true ⟨low, high⟩)

/-! Special registers. -/

/-- R166: seqst is the sum of its fields at their bits. -/
theorem Page.toNat_seqst (pg : Page) :
    pg.seqst.toNat = pg.kend.toNat + pg.kport.toNat * 4 + (pg.rep.length % 8) * 2 ^ 10 + pg.user.toNat * 2 ^ 32 := by
  have kend := pg.kend.isLt
  have kport := pg.kport.isLt
  have user := pg.user.isLt
  rw [Page.seqst, BitVec.toNat_ofNat, Nat.mod_eq_of_lt (by omega)]

/-- A field of seqst as a number. -/
theorem Page.toNat_field_seqst (pg : Page) (lo n : Nat) : (pg.seqst.extractLsb' lo n).toNat =
    (pg.kend.toNat + pg.kport.toNat * 4 + (pg.rep.length % 8) * 2 ^ 10 + pg.user.toNat * 2 ^ 32) / 2 ^ lo % 2 ^ n := by
  rw [BitVec.extractLsb'_toNat, pg.toNat_seqst, Nat.shiftRight_eq_div_pow]

/-- R175: rptN is the sum of the fields of the entry N from the outermost. -/
theorem Page.toNat_rpt {pg : Page} {n : Nat} {e : RepE} (held : pg.rep.reverse[n]? = some e) (left : e.left < 2 ^ 32) :
    (pg.rpt n).toNat = e.first % 1024 + (e.last % 1024) * 2 ^ 10 + e.left * 2 ^ 32 := by
  simp only [Page.rpt, held]
  rw [BitVec.toNat_ofNat, Nat.mod_eq_of_lt (by omega)]

theorem Page.special_rpt (pg : Page) (n : Nat) : pg.special (6 + n) = pg.rpt n := by
  unfold Page.special
  iterate 6 rw [if_neg (by omega)]
  rw [Nat.add_sub_cancel_left]

/-- Settles O21: seqst and rptN are sums of their fields (R166, R173 to R175). -/
theorem specialRegistersShowTheirFields : Obligations.SpecialRegistersShowTheirFields := by
  intro pg
  have kend := pg.kend.isLt
  have kport := pg.kport.isLt
  have user := pg.user.isLt
  refine ⟨rfl, rfl, rfl, rfl, rfl, ?kend, ?kport, ?user, fun depth => ?depth, fun n e held first last left => ?entry⟩
  case kend => exact BitVec.eq_of_toNat_eq ((pg.toNat_field_seqst 0 2).trans (by omega))
  case kport => exact BitVec.eq_of_toNat_eq ((pg.toNat_field_seqst 2 8).trans (by omega))
  case user => exact BitVec.eq_of_toNat_eq ((pg.toNat_field_seqst 32 16).trans (by omega))
  case depth => exact (pg.toNat_field_seqst 10 3).trans (by omega)
  case entry =>
    simp only [Page.special_rpt, fld, bitsOf, Page.toNat_rpt held left, Nat.shiftRight_eq_div_pow]
    omega

end Sys2Proof.Machine
end

section
/-! PROOF. Local and group boundaries (R310, R311), and the start and the end of a kernel (R158 to R160, R166, R209). -/
namespace Sys2Proof.Machine
open Sys2Proof.Claims

/-! Boundaries. -/

/-- Some page of a list fails one of two conditions. -/
theorem all_eq_false_iff (ps : List Nat) (A : Nat → Prop) [DecidablePred A] (B : Nat → Bool) :
    (ps.all fun p => decide (A p) && B p) = false ↔ ∃ p ∈ ps, ¬ A p ∨ B p = false := by
  simp only [List.all_eq_false, Bool.and_eq_true, decide_eq_true_eq, Classical.not_and_iff_not_or_not, Bool.not_eq_true]

/-- Some page of a region does not stand at LSYNC, or a trap has frozen it. -/
theorem not_all_at_lsync_iff (s : State) (ps : List Nat) :
    (ps.all fun p => decide ((s.page p).atSync = 2) && !(s.page p).frozen) = false ↔ ∃ p ∈ ps, (s.page p).atSync ≠ 2 ∨ (s.page p).frozen = true := by
  rw [all_eq_false_iff]
  simp only [Bool.not_eq_false', ne_eq]

/-- R310, R168, R314: what LOCAL_BOUNDARY does is the model's own step, once the region stands. -/
theorem localBoundaryOpensTheNextPhase : LocalBoundaryOpensTheNextPhase := by
  intro s tid due t ev filed begun
  change if _ then execVLocalBoundary s = _ else execVLocalBoundary s = _
  simp only [execVLocalBoundary, ev, filed, begun, not_all_at_lsync_iff]
  split <;> rfl

/-- R311: a boundary whose members are not ready is gone. -/
theorem State.groupBoundary_of_not_ready {s : State} {b : Bound} (unready : s.boundReady (s.members b.part b.bg b.mset) = false) :
    s.groupBoundary b = { s with bounds := s.bounds.filter fun x => decide (x ≠ b) } := by
  simp only [State.groupBoundary, unready, Bool.not_false, if_true]

section
variable {s : State} {b : Bound} (due : s.boundReady (s.members b.part b.bg b.mset) = true)
include due

/-- R247: a dual-run pair that disagrees ends the boundary. -/
theorem State.groupBoundary_of_mismatch {t u : Task} (differ : s.mismatchIn (s.members b.part b.bg b.mset) = some (t, u)) :
    s.groupBoundary b = ({ s with bounds := s.bounds.filter fun x => decide (x ≠ b) } : State).dualFail t u := by
  simp only [State.groupBoundary, due, differ, Bool.not_true, Bool.false_eq_true, if_false]

variable (agree : s.mismatchIn (s.members b.part b.bg b.mset) = none)
include agree

/-- R315: a commit that waits for a snapshot comes again in the next cycle. -/
theorem State.groupBoundary_of_held {s1 : State}
    (held : s.commitHeld b.part (committing (s.members b.part b.bg b.mset)) ((s.members b.part b.bg b.mset).map (·.tid)) = some s1) :
    s.groupBoundary b = { s1 with bounds := s1.bounds.map fun x => if x = b then { x with due := s.cycle + 1 } else x } := by
  simp only [State.groupBoundary, due, agree, held, Bool.not_true, Bool.false_eq_true, if_false]

/-- R311: the members' versions commit, and their superstep ends. -/
theorem State.groupBoundary_of_free
    (free : s.commitHeld b.part (committing (s.members b.part b.bg b.mset)) ((s.members b.part b.bg b.mset).map (·.tid)) = none) :
    let ts := s.members b.part b.bg b.mset
    let tids := ts.map (·.tid)
    let committed := ({ s with bounds := s.bounds.filter fun x => decide (x ≠ b) } : State).commit b.part (committing ts) tids
    s.groupBoundary b = (((ts.foldl State.finishStep committed).takeSeals b.part (committing ts)).dropSectors b.part tids).dropColls b.part b.mset := by
  simp only [State.groupBoundary, due, agree, free, Bool.not_true, Bool.false_eq_true, if_false]

end

/-- R311, R247, R315, R322: GROUP_BOUNDARY completes the boundaries that are due. -/
theorem groupBoundaryCommitsItsMembers : GroupBoundaryCommitsItsMembers := by
  intro s part bg ev
  refine ⟨?_, fun b => ⟨State.groupBoundary_of_not_ready, fun due agree free => State.groupBoundary_of_free due agree free,
    fun s1 due agree held => State.groupBoundary_of_held due agree held, fun t u due differ => State.groupBoundary_of_mismatch due differ⟩⟩
  change execVGroupBoundary s = _
  simp only [execVGroupBoundary, ev]

/-- Settles O27: the local boundary and the group boundary, each by the cases of its meaning. -/
theorem boundariesCommit : Obligations.BoundariesCommit := ⟨localBoundaryOpensTheNextPhase, groupBoundaryCommitsItsMembers⟩

/-! The start of a kernel. -/

/-- R158, R209: while a kernel runs, or a page does not stand idle at KRUN, no kernel starts. -/
theorem State.tryStart_of_waiting {s : State} {t : Task} (filed : s.task t.tid = some t)
    (waits : t.kernelRuns = true ∨ ∃ p ∈ t.pages, (s.page p).atSync ≠ 1 ∨ (s.page p).idle = false) : s.tryStart t.tid = s := by
  have closed : (t.kernelRuns || !(t.pages.all fun p => decide ((s.page p).atSync = 1) && (s.page p).idle)) = true := by
    rw [Bool.or_eq_true, Bool.not_eq_true', all_eq_false_iff]
    exact waits
  simp only [State.tryStart, filed, closed, if_true]

/-- R158, R159, R160, R209: the cases of a kernel's start. -/
theorem kernelStartsWhenTheRegionStands : KernelStartsWhenTheRegionStands := by
  intro s t lead more filed pages
  refine ⟨State.tryStart_of_waiting filed, fun free stands => ?_⟩
  have opens : (t.kernelRuns || !(t.pages.all fun p => decide ((s.page p).atSync = 1) && (s.page p).idle)) = false := by
    rw [free, Bool.false_or, Bool.not_eq_false', List.all_eq_true]
    exact fun p mem => Bool.and_eq_true_iff.mpr ⟨decide_eq_true (stands p mem).1, (stands p mem).2⟩
  have head : t.pages.head? = some lead := by rw [pages, List.head?_cons]
  have ports : (∀ p ∈ t.pages, (s.page p).portOff = false) → (t.pages.any fun p => (s.page p).portOff) = false :=
    fun on => List.any_eq_false.mpr fun p mem => Bool.eq_false_iff.mp (on p mem)
  refine ⟨fun off => ?off, fun on later => ?starts, fun on reached => ?passes⟩
  case off =>
    have off : (t.pages.any fun p => (s.page p).portOff) = true := List.any_eq_true.mpr off
    simp only [State.tryStart, filed, opens, head, off, Bool.false_eq_true, if_false, if_true]
  case starts =>
    simp only [State.tryStart, filed, opens, head, ports on, Bool.false_eq_true, if_false]
    cases kern : t.kern <;> rw [kern] at later <;> exact if_neg (BitVec.not_le.mpr later)
  case passes =>
    simp only [State.tryStart, filed, opens, head, ports on, Bool.false_eq_true, if_false]
    cases kern : t.kern <;> rw [kern] at reached <;> exact if_pos reached

/-! The end of a kernel. -/

/-- A next state with a property answers with it. -/
theorem answers_next {s : State} {P : State → Prop} (holds : P s) : Answers (.next s) P := ⟨s, rfl, holds⟩

/-- A page but for what a kernel reserves on it (R23). -/
def Page.offReservations (pg : Page) : Page := { pg with feedResv := 0, feedSpace := 0, ports := [], cores := [] }

/-- What the changes of pages keep of every page, they keep together. -/
theorem State.foldl_modPage_keeps {α : Type} (g : Page → α) {f : Page → Page} (keeps : ∀ pg, g (f pg) = g pg) (ps : List Nat) (s : State) (q : Nat) :
    g ((ps.foldl (fun s p => s.modPage p f) s).page q) = g (s.page q) := by
  refine List.foldlRecOn ps _ (motive := fun (u : State) => g (u.page q) = g (s.page q)) rfl fun u same p _ => ?_
  by_cases here : q = p
  · subst here
    rw [State.page_modPage_self, keeps, same]
  · rw [State.page_modPage_ne u f here, same]

/-- The ports of a region page that stopped a kernel (R158). -/
def Kern.dryPorts (k : Kern) (rp : Nat) : Byte := k.kport.foldl (fun b x => if x.1 = rp then b ||| x.2 else b) 0

/-- A region page whose last interval of a kernel has ended (R158, R160, R166). -/
def Page.endKrun (pg : Page) (k : Kern) (rp : Nat) : Page :=
  let pg1 := { pg with kend := k.cause, kport := if k.cause = 2 then k.dryPorts rp else 0 }
  if k.cause = 3 then { pg1 with phase := .ready, yielded := pg.preq.getLsbD 0 }
  else { (pg1.setX (pg.word.extractLsb' 51 5) (k.base + k.entered)).complete with phase := .after }

theorem Page.setX_eq (pg : Page) (n : BitVec 5) (v : W64) : pg.setX n v = { pg with x := if n = 0 then pg.x else pg.x.set n.toNat v } := by
  unfold Page.setX
  split <;> rfl

theorem Page.endKrun_of_cut {pg : Page} {k : Kern} (rp : Nat) (cut : k.cause = 3) :
    pg.endKrun k rp = { pg with kend := k.cause, kport := 0, phase := .ready, yielded := pg.preq.getLsbD 0 } := by
  have wet : k.cause ≠ 2 := by rw [cut]; decide
  simp only [Page.endKrun, if_pos cut, if_neg wet]

/-- A KRUN whose kernel was not cut writes its live count and completes. -/
theorem Page.endKrun_of_done {pg : Page} {k : Kern} (rp : Nat) (done : k.cause ≠ 3) :
    pg.endKrun k rp = { pg.complete with kend := k.cause, kport := if k.cause = 2 then k.dryPorts rp else 0, phase := .after
                                         x := (pg.setX (pg.word.extractLsb' 51 5) (k.base + k.entered)).x } := by
  simp only [Page.endKrun, done, if_false, Page.setX_eq, Page.complete_eq]

theorem Page.kend_endKrun (pg : Page) (k : Kern) (rp : Nat) : (pg.endKrun k rp).kend = k.cause := by
  by_cases cut : k.cause = 3
  · rw [Page.endKrun_of_cut rp cut]
  · rw [Page.endKrun_of_done rp cut]

theorem Page.kport_endKrun (pg : Page) (k : Kern) (rp : Nat) : (pg.endKrun k rp).kport = if k.cause = 2 then k.dryPorts rp else 0 := by
  by_cases cut : k.cause = 3
  · rw [Page.endKrun_of_cut rp cut, cut]; rfl
  · rw [Page.endKrun_of_done rp cut]

/-- KERNEL_END ends the KRUN of its page; of what it does besides, a page keeps all but its reservations. -/
theorem exec_kernelEnd {s : State} {tid rp p : Nat} {t : Task} {k : Kern} (ev : s.focus.ev = .kernelEnd tid rp) (filed : s.task tid = some t)
    (kern : t.kern = some k) (phys : t.phys rp = some p) (running : k.ends.getD rp 0 ≠ 0) (due : k.ends.getD rp 0 ≤ s.cycle) :
    Answers (exec .vKernelEnd s) fun u => (u.page p).offReservations = ((s.page p).endKrun k rp).offReservations := by
  change Answers (execVKernelEnd s) _
  have now : ¬ (k.ends.getD rp 0 = 0 ∨ s.cycle < k.ends.getD rp 0) := by omega
  simp only [execVKernelEnd, ev, filed, kern, phys, now, if_false]
  split <;> refine answers_next ?_
  next last =>
    have counted (c : Bool) (v : State) (tum : Tumbler) : State.page (if c then { v with tum := tum } else v) p = v.page p := by cases c <;> rfl
    rw [counted, State.page_modTask, State.foldl_modPage_keeps Page.offReservations, State.page_modPage_self]
    · rfl
    · exact fun _ => rfl
  next more => rw [State.page_modTask, State.page_modPage_self]; rfl

/-- R158, R160, R166: KERNEL_END completes the KRUN, or leaves the page at it. -/
theorem kernelEndCompletesKrun : KernelEndCompletesKrun := by
  intro s tid rp p t k ev filed kern phys running due
  obtain ⟨u, answer, same⟩ := exec_kernelEnd ev filed kern phys running due
  refine ⟨u, answer, ?_⟩
  have keeps {α : Type} (g : Page → α) (off : ∀ pg, g pg.offReservations = g pg) : g (u.page p) = g ((s.page p).endKrun k rp) := by
    rw [← off, same, off]
  refine ⟨?kend, fun other => ?kport, fun cut => ⟨?pc, ?x, ?ready, ?yields⟩, fun done => ⟨?set, ?next, ?rep, ?after⟩⟩
  case kend => rw [keeps Page.kend fun _ => rfl, Page.kend_endKrun]
  case kport => rw [keeps Page.kport fun _ => rfl, Page.kport_endKrun, if_neg other]
  case pc => rw [keeps Page.pc fun _ => rfl, Page.endKrun_of_cut rp cut]
  case x => rw [keeps Page.x fun _ => rfl, Page.endKrun_of_cut rp cut]
  case ready => rw [keeps Page.phase fun _ => rfl, Page.endKrun_of_cut rp cut]
  case yields => rw [keeps Page.yielded fun _ => rfl, Page.endKrun_of_cut rp cut]
  case set => rw [keeps Page.x fun _ => rfl, Page.endKrun_of_done rp done]
  case next => rw [keeps Page.pc fun _ => rfl, Page.endKrun_of_done rp done]
  case rep => rw [keeps Page.rep fun _ => rfl, Page.endKrun_of_done rp done]
  case after => rw [keeps Page.phase fun _ => rfl, Page.endKrun_of_done rp done]

/-- Settles O29: the start by the cases of `State.tryStart`, the end by what `Page.endKrun` leaves. -/
theorem kernelsStartAndEnd : Obligations.KernelsStartAndEnd := ⟨kernelStartsWhenTheRegionStands, kernelEndCompletesKrun⟩

end Sys2Proof.Machine
end

section
/-! PROOF. Events of the memory: grants of event counters (R169), walks and invalidations (R396, R418, R419), migrations (R404 to R406). -/
namespace Sys2Proof.Machine
open Sys2Proof.Claims

/-! Lists of parts of the state. -/

/-- Changes that agree on the element that stands at the place give the same list. -/
theorem modAt_congr {α : Type} {l : List α} {i : Nat} {f g : α → α} {a : α} (same : f (l.getD i a) = g (l.getD i a)) : modAt l i f = modAt l i g := by
  induction l generalizing i with
  | nil => rfl
  | cons b r ih => cases i with
    | zero => exact congrArg (· :: r) same
    | succ i => exact congrArg (b :: ·) (ih same)

/-- Past its end a list reads the default. -/
theorem getD_eq_of_le {α : Type} {l : List α} {i : Nat} (a : α) (beyond : l.length ≤ i) : l.getD i a = a := by
  rw [List.getD_eq_getElem?_getD, List.getElem?_eq_none beyond, Option.getD_none]

theorem State.modDie_congr {s : State} {d : Nat} {f g : Die → Die} (same : f (s.die d) = g (s.die d)) : s.modDie d f = s.modDie d g :=
  congrArg (fun l => ({ s with dies := l } : State)) (modAt_congr same)

theorem State.modMig_congr {s : State} {d n : Nat} {f g : Mig → Mig} (same : f (s.mig d n) = g (s.mig d n)) : s.modMig d n f = s.modMig d n g :=
  State.modDie_congr (congrArg (fun l => ({ s.die d with mig := l } : Die)) (modAt_congr same))

@[simp] theorem State.length_dies_modDie (s : State) (d : Nat) (f : Die → Die) : (s.modDie d f).dies.length = s.dies.length := length_modAt ..

theorem State.inst_congr {s t : State} (same : t.dies = s.dies) (d k : Nat) : t.inst d k = s.inst d k := by
  rw [State.inst, State.die, same]
  rfl

/-- A graph that holds stands in a slot of a die. -/
theorem State.inst_in_slot {s : State} {d k : Nat} (holds : (s.inst d k).phase ≠ .ready) : d < s.dies.length ∧ k < (s.die d).insts.length := by
  have slot : k < (s.die d).insts.length := by
    refine Nat.lt_of_not_le fun beyond => holds ?_
    rw [State.inst, getD_eq_of_le {} beyond]
  refine ⟨Nat.lt_of_not_le fun beyond => holds ?_, slot⟩
  have empty : s.die d = {} := getD_eq_of_le ({} : Die) beyond
  have fresh : ({} : Die).insts[k]? = some {} := List.getElem?_replicate.trans (if_pos (by rw [empty] at slot; exact slot))
  rw [State.inst, empty, List.getD_eq_getElem?_getD, fresh]
  rfl

/-! Grants of an event counter. -/

/-- A change of an event leaves the dies alone. -/
@[simp] theorem State.modEvent_dies (s : State) (part n : Nat) (f : Event → Event) : (s.modEvent part n f).dies = s.dies := by
  unfold State.modEvent
  dsimp only
  split
  · exact State.later_dies ..
  · rfl

section
variable {s : State} {part n need : Nat} {x : Waiter} {r : List (Waiter × Nat)} (ev : s.focus.ev = .eventGrant part n)
  (queue : ((s.part part).event n).queue = (x, need) :: r)
include ev queue

/-- The head of the queue waits until the count covers its need (R169). -/
theorem exec_eventGrant_of_short (short : ((s.part part).event n).count.toNat < need) : exec .vEventGrant s = .next s := by
  change execVEventGrant s = _
  simp only [execVEventGrant, ev, queue, short, if_true]

variable (covered : need ≤ ((s.part part).event n).count.toNat)
include covered

/-- R169, R247: a page's wait is granted, and that of its dual-run partner. -/
theorem exec_eventGrant_of_page {tid rp : Nat} (page : x = .page tid rp) :
    let s2 := (s.modEvent part n fun e => { e with count := e.count - BitVec.ofNat 32 need, queue := r }).grantPage tid rp
    exec .vEventGrant s = .next (((s.task tid).bind Task.dual).elim s2 fun u => s2.grantPage u rp) := by
  subst page
  change execVEventGrant s = _
  simp only [execVEventGrant, ev, queue, Nat.not_lt.mpr covered, if_false]
  cases s.task tid with
  | none => rfl
  | some t => cases dual : t.dual <;> simp only [dual, Option.bind_some, Option.elim]

/-- R169, R263: a graph word's wait is granted, and its graph goes on. -/
theorem exec_eventGrant_of_graph {d k : Nat} (graph : x = .graph d k) (queued : (s.inst d k).phase = .queued) :
    let s1 := s.modEvent part n fun e => { e with count := e.count - BitVec.ofNat 32 need, queue := r }
    Answers (exec .vEventGrant s) fun u => u.inst d k = { s.inst d k with phase := .ready, pc := (s.inst d k).pc + 1 } ∧ u.part part = s1.part part := by
  subst graph
  intro s1
  change Answers (execVEventGrant s) _
  simp only [execVEventGrant, ev, queue, Nat.not_lt.mpr covered, if_false]
  refine ⟨_, rfl, ?_, rfl⟩
  have same : s1.inst d k = s.inst d k := State.inst_congr (State.modEvent_dies ..) d k
  obtain ⟨die, slot⟩ := State.inst_in_slot (s := s1) (d := d) (k := k) (by rw [same, queued]; nofun)
  refine (State.inst_modInst_self _ _ die slot).trans ?_
  rw [same, if_pos queued]

end

/-! Walks. -/

/-- The walks of a page of a tenant have ended (R396). -/
def State.endWalk (s : State) (d : Nat) (q : WalkReq) : State :=
  s.modDie d fun x => { x with walks := x.walks.filter fun (y : Nat × WalkReq) => decide (y.2 ≠ q) }

theorem State.tlb_endWalk (s : State) (d : Nat) (q : WalkReq) : ((s.endWalk d q).die d).tlb = (s.die d).tlb := by
  unfold State.endWalk
  exact getD_modAt_of_keeps Die.tlb (f := fun x => { x with walks := x.walks.filter fun y => decide (y.2 ≠ q) }) (fun _ => rfl) s.dies d d {}

/-- Does a die hold a translation of the page that a walk is for? -/
def State.holdsPage (s : State) (d : Nat) (q : WalkReq) : Prop := ∃ y ∈ (s.die d).tlb, y.part = q.part ∧ y.tenant = q.tenant ∧ y.vpn = q.vpn

theorem any_holdsPage_iff (s : State) (d : Nat) (q : WalkReq) :
    (((s.endWalk d q).die d).tlb.any fun y => decide (y.part = q.part ∧ y.tenant = q.tenant ∧ y.vpn = q.vpn)) = true ↔ s.holdsPage d q := by
  simp only [State.tlb_endWalk, List.any_eq_true, decide_eq_true_eq, State.holdsPage]

section
variable {s : State} {d : Nat} {q : WalkReq} (ev : s.focus.ev = .remoteWalkComplete d q)
include ev

/-- Before a walk of the page has ended nothing happens. -/
theorem exec_remoteWalkComplete_of_early (early : ∀ y ∈ (s.die d).walks, y.2 = q → s.cycle < y.1) : exec .vRemoteWalkComplete s = .next s := by
  have none : ((s.die d).walks.any fun y => decide (y.1 ≤ s.cycle ∧ y.2 = q)) = false :=
    List.any_eq_false.mpr fun y mem => by
      rw [decide_eq_true_eq]
      exact fun ⟨due, page⟩ => absurd (early y mem page) (Nat.not_lt.mpr due)
  change execVRemoteWalkComplete s = _
  simp only [execVRemoteWalkComplete, ev, none, Bool.not_false, if_true]

variable (ended : ∃ y ∈ (s.die d).walks, y.2 = q ∧ y.1 ≤ s.cycle)
include ended

omit ev in
theorem any_ended_walk : ((s.die d).walks.any fun y => decide (y.1 ≤ s.cycle ∧ y.2 = q)) = true := by
  obtain ⟨y, mem, page, due⟩ := ended
  exact List.any_eq_true.mpr ⟨y, mem, decide_eq_true ⟨due, page⟩⟩

/-- A walk that maps nothing enters nothing. -/
theorem exec_remoteWalkComplete_of_error {st : Nat} (bad : (s.endWalk d q).walk d q.part q.tenant q.vpn = .error st) :
    exec .vRemoteWalkComplete s = .next (s.endWalk d q) := by
  change execVRemoteWalkComplete s = _
  unfold State.endWalk at bad ⊢
  simp only [execVRemoteWalkComplete, ev, any_ended_walk ended, bad, Bool.not_true, Bool.false_eq_true, if_false]

variable {e : TlbE} (maps : (s.endWalk d q).walk d q.part q.tenant q.vpn = .ok e)
include maps

/-- A translation that is already held is not entered again. -/
theorem exec_remoteWalkComplete_of_known (known : s.holdsPage d q) : exec .vRemoteWalkComplete s = .next (s.endWalk d q) := by
  have held := (any_holdsPage_iff s d q).mpr known
  change execVRemoteWalkComplete s = _
  unfold State.endWalk at maps held ⊢
  simp only [execVRemoteWalkComplete, ev, any_ended_walk ended, maps, held, Bool.not_true, Bool.false_eq_true, if_false, if_true]

theorem exec_remoteWalkComplete_of_new (new : ¬ s.holdsPage d q) : exec .vRemoteWalkComplete s = .next ((s.endWalk d q).tlbAdd d e) := by
  have absent := Bool.eq_false_iff.mpr fun held => new ((any_holdsPage_iff s d q).mp held)
  change execVRemoteWalkComplete s = _
  unfold State.endWalk at maps absent ⊢
  simp only [execVRemoteWalkComplete, ev, any_ended_walk ended, maps, absent, Bool.not_true, Bool.false_eq_true, if_false]

end

/-- A TLB that has room takes an entry at its end. -/
theorem State.tlbAdd_of_room {s : State} {d : Nat} (e : TlbE) (room : (s.die d).tlb.length < 32768) :
    s.tlbAdd d e = s.modDie d fun x => { x with tlb := x.tlb ++ [e] } := if_pos room

section
variable {s : State} {d : Nat} (e : TlbE) (full : 32768 ≤ (s.die d).tlb.length)
include full

/-- A full TLB of pinned entries takes no entry. -/
theorem State.tlbAdd_of_pinned (pinned : ∀ y ∈ (s.die d).tlb, y.pinned = true) : s.tlbAdd d e = s := by
  have spare : ((s.die d).tlb.filter fun y => !y.pinned) = [] := List.filter_eq_nil_iff.mpr fun y mem => by rw [pinned y mem]; nofun
  simp only [State.tlbAdd, Nat.not_lt.mpr full, spare, List.isEmpty_nil, if_false, if_true]

/-- R396: in a full TLB an unpinned entry makes room. -/
theorem State.tlbAdd_of_spare (die : d < s.dies.length) (spare : ∃ y ∈ (s.die d).tlb, y.pinned = false) :
    ∃ v ∈ (s.die d).tlb, v.pinned = false ∧ ((s.tlbAdd d e).die d).tlb = ((s.die d).tlb.filter fun y => decide (some y ≠ some v)) ++ [e] := by
  obtain ⟨y, mem, free⟩ := spare
  let unpinned := (s.die d).tlb.filter fun y => !y.pinned
  have candidate : y ∈ unpinned := List.mem_filter.mpr ⟨mem, by rw [free]; rfl⟩
  have below : (s.choose unpinned.length).1 < unpinned.length := s.choose_lt (List.length_pos_of_mem candidate)
  have nonempty := List.isEmpty_eq_false_iff_exists_mem.mpr ⟨y, candidate⟩
  obtain ⟨inTlb, loose⟩ := List.mem_filter.mp (List.getElem_mem below)
  refine ⟨unpinned[(s.choose unpinned.length).1], inTlb, (Bool.not_eq_true' _).mp loose, ?_⟩
  have picked := List.getElem?_eq_getElem below
  unfold unpinned at nonempty picked ⊢
  simp only [State.tlbAdd, Nat.not_lt.mpr full, nonempty, Bool.false_eq_true, if_false, picked]
  exact congrArg Die.tlb (State.die_modDie_self (s.choose _).2 _ die)

/-- R396: the entry enters, the TLB grows no longer, and every pinned entry stays. -/
theorem State.tlbAdd_enters (die : d < s.dies.length) (spare : ∃ y ∈ (s.die d).tlb, y.pinned = false) :
    let tlb := ((s.tlbAdd d e).die d).tlb
    e ∈ tlb ∧ tlb.length ≤ (s.die d).tlb.length ∧ ∀ y ∈ (s.die d).tlb, y.pinned = true → y ∈ tlb := by
  obtain ⟨v, held, free, tlb⟩ := State.tlbAdd_of_spare e full die spare
  have shorter : ((s.die d).tlb.filter fun y => decide (some y ≠ some v)).length < (s.die d).tlb.length :=
    List.length_filter_lt_length_iff_exists.mpr ⟨v, held, fun kept => of_decide_eq_true kept rfl⟩
  simp only [tlb, List.length_append, List.length_singleton]
  refine ⟨List.mem_append_right _ List.mem_cons_self, shorter, fun y mem pin => List.mem_append_left _ (List.mem_filter.mpr ⟨mem, decide_eq_true ?_⟩)⟩
  rintro ⟨⟩
  cases pin.symm.trans free

end

/-! Invalidations. -/

/-- A field reads as it was set. -/
theorem fld_setFld {n hi lo : Nat} (x : BitVec n) (v : Nat) (order : lo ≤ hi) (inside : hi < n) : fld (setFld x hi lo v) hi lo = v % 2 ^ (hi + 1 - lo) := by
  obtain ⟨w, rfl⟩ : ∃ w, hi = lo + w := ⟨hi - lo, by omega⟩
  obtain ⟨k, rfl⟩ : ∃ k, n = lo + (w + 1) + k := ⟨n - (lo + (w + 1)), by omega⟩
  have low : x.toNat % 2 ^ lo < 2 ^ lo := Nat.mod_lt _ (Nat.two_pow_pos lo)
  simp only [fld, setFld, bitsOf, BitVec.toNat_ofNat, Nat.shiftRight_eq_div_pow, Nat.shiftLeft_eq, show lo + w + 1 - lo = w + 1 by omega]
  rw [show lo + w + 1 = lo + (w + 1) by omega, Nat.pow_add 2 (lo + (w + 1)), Nat.pow_add 2 lo, Nat.mul_assoc, Nat.mod_mul_right_div_self,
    Nat.mod_mul_right_mod, Nat.add_assoc, Nat.mul_comm (2 ^ lo), ← Nat.mul_assoc, ← Nat.add_mul, Nat.add_mul_div_right _ _ (Nat.two_pow_pos lo),
    Nat.div_eq_of_lt low, Nat.zero_add, Nat.add_mul_mod_self_right, Nat.mod_mod]

/-- The register of an invalidation of a die and partition (R418). -/
def State.invReg (s : State) (d part stage : Nat) : BitVec 144 := if stage = 1 then (s.partDie part d).s1inv else (s.partDie part d).s2inv

/-- Does the register of a partition cover an entry (R418)? -/
def State.invHits (s : State) (d part stage : Nat) (e : TlbE) : Prop := e.part = part ∧ invCovers stage (s.invReg d part stage) e = true

theorem State.not_hit_iff {s : State} {d part stage : Nat} {e : TlbE} :
    ¬ s.invHits d part stage e ↔ e.part ≠ part ∨ invCovers stage (s.invReg d part stage) e = false := by
  rw [State.invHits, Classical.not_and_iff_not_or_not, Bool.not_eq_true]

theorem State.invalidated_of_not_hit {s : State} {d part stage : Nat} {e : TlbE} (free : ¬ s.invHits d part stage e) :
    s.invalidated d part stage e = some e := by
  unfold State.invalidated
  exact if_pos (State.not_hit_iff.mp free)

/-- What stays of a covered entry is pinned (R420). -/
theorem State.pinned_of_invalidated {s : State} {d part stage : Nat} {y e : TlbE} (hit : s.invHits d part stage y)
    (stays : s.invalidated d part stage y = some e) : e.pinned = true := by
  have covered : ¬ (y.part ≠ part ∨ invCovers stage (s.invReg d part stage) y = false) :=
    fun free => State.not_hit_iff.mpr free hit
  have stays := (if_neg covered).symm.trans stays
  split at stays
  next => cases stays
  next =>
    split at stays
    next => cases stays
    next n _ =>
      split at stays
      next => exact Option.some.inj stays ▸ rfl
      next => cases stays

/-- An unpinned entry that stays is none that the invalidation covers. -/
theorem State.not_hit_of_invalidated {s : State} {d part stage : Nat} {y e : TlbE} (stays : s.invalidated d part stage y = some e)
    (unpinned : e.pinned = false) : ¬ s.invHits d part stage e := by
  by_cases hit : s.invHits d part stage y
  · cases (State.pinned_of_invalidated hit stays).symm.trans unpinned
  · obtain rfl := Option.some.inj ((State.invalidated_of_not_hit hit).symm.trans stays)
    exact hit

/-- Requests reach one of several pages when they reach one of them. -/
theorem State.reaching_iff (s : State) (part : Nat) (names : List Nat) : s.reaching part names = true ↔ ∃ n ∈ names, s.reaching part [n] = true := by
  simp only [State.reaching, List.any_eq_true, Option.any_eq_true, List.contains_iff_mem, List.mem_singleton]
  constructor
  · rintro ⟨l, asked, n, named, mem⟩
    exact ⟨n, mem, l, asked, n, named, rfl⟩
  · rintro ⟨_, mem, l, asked, n, named, rfl⟩
    exact ⟨l, asked, n, named, mem⟩

/-- The pages that an invalidation's entries named: those kept once they have gone, else those of the entries that it covers. -/
def State.invNames (s : State) (d part stage : Nat) (i : Inv) : List Nat :=
  i.gone.getD (((s.die d).tlb.filter fun e => decide (e.part = part) && invCovers stage (s.invReg d part stage) e).map TlbE.out)

/-- An invalidation's requests are on their way: those that its entries translated, or those to the pages that it kept (R419). -/
theorem invNames_reached_iff (s : State) (d part stage : Nat) (i : Inv) :
    s.reaching part (s.invNames d part stage i) = true ↔
      (i.gone = none ∧ ∃ e ∈ (s.die d).tlb, s.invHits d part stage e ∧ s.reaching part [e.out] = true)
        ∨ ∃ l, i.gone = some l ∧ ∃ n ∈ l, s.reaching part [n] = true := by
  rw [State.reaching_iff, State.invNames]
  cases i.gone with
  | some l => simp only [Option.getD_some, Option.some.injEq, exists_eq_left', reduceCtorEq, false_and, false_or]
  | none =>
    simp only [Option.getD_none, List.mem_map, List.mem_filter, Bool.and_eq_true, decide_eq_true_eq, State.invHits, true_and, reduceCtorEq,
      false_and, exists_false, or_false]
    constructor
    · rintro ⟨_, ⟨e, ⟨mem, hit⟩, rfl⟩, reached⟩
      exact ⟨e, mem, hit, reached⟩
    · rintro ⟨e, mem, hit, reached⟩
      exact ⟨_, ⟨e, ⟨mem, hit⟩, rfl⟩, reached⟩

/-- The entries of an invalidation have gone (R419). -/
def State.dropHits (s : State) (d part stage : Nat) (i : Inv) : State :=
  if i.gone.isSome then s else s.modDie d fun x => { x with tlb := x.tlb.filterMap (s.invalidated d part stage) }

/-- The ticket of an invalidation is acknowledged (R418). -/
def ackTicket (r : BitVec 144) : BitVec 144 := setFld r 143 128 (fld r 127 112)

theorem fld_ackTicket (r : BitVec 144) : fld (ackTicket r) 143 128 = fld r 127 112 := by
  rw [ackTicket, fld_setFld _ _ (by omega) (by omega), fld, Nat.mod_mod]

/-- The register of a stage shows its ticket as acknowledged (R418). -/
def PartDie.ackStage (x : PartDie) (stage : Nat) : PartDie :=
  if stage = 1 then { x with s1inv := ackTicket x.s1inv } else { x with s2inv := ackTicket x.s2inv }

/-- An invalidation is acknowledged: the others of its die stay (R419). -/
def State.ackInv (s : State) (d part stage : Nat) (rest : List Inv) : State :=
  (s.modDie d fun x => { x with invs := rest }).modPartDie part d fun x => x.ackStage stage

theorem State.partDie_modPartDie_self (s : State) {n d : Nat} (f : PartDie → PartDie) (part : n < s.parts.length) (die : d < (s.part n).dies.length) :
    (s.modPartDie n d f).partDie n d = f (s.partDie n d) := by
  rw [State.partDie, State.modPartDie, State.part_modPart_self _ _ part]
  exact getD_modAt_self _ _ _ _ die

theorem State.die_ackInv (s : State) {d : Nat} (part stage : Nat) (rest : List Inv) (die : d < s.dies.length) :
    (s.ackInv d part stage rest).die d = { s.die d with invs := rest } := State.die_modDie_self s _ die

theorem State.dropHits_parts (s : State) (d part stage : Nat) (i : Inv) : (s.dropHits d part stage i).parts = s.parts := by
  unfold State.dropHits
  split <;> rfl

theorem State.length_dies_dropHits (s : State) (d part stage : Nat) (i : Inv) : (s.dropHits d part stage i).dies.length = s.dies.length := by
  unfold State.dropHits
  split
  · rfl
  · exact State.length_dies_modDie ..

theorem State.tlb_dropHits {s : State} {d part stage : Nat} {i : Inv} (die : d < s.dies.length) (fresh : i.gone = none) :
    ((s.dropHits d part stage i).die d).tlb = (s.die d).tlb.filterMap (s.invalidated d part stage) := by
  have drops : s.dropHits d part stage i = s.modDie d fun x => { x with tlb := x.tlb.filterMap (s.invalidated d part stage) } :=
    if_neg (by rw [fresh]; nofun)
  rw [drops, State.die_modDie_self _ _ die]

theorem State.invReg_congr {s u : State} (same : u.parts = s.parts) (d part stage : Nat) : u.invReg d part stage = s.invReg d part stage := by
  rw [State.invReg, State.partDie, State.part, same]
  rfl

theorem State.invReg_ackInv (s : State) {d part : Nat} (stage : Nat) (rest : List Inv) (parts : part < s.parts.length)
    (die : d < (s.part part).dies.length) : (s.ackInv d part stage rest).invReg d part stage = ackTicket (s.invReg d part stage) := by
  have register : (s.ackInv d part stage rest).partDie part d = (s.partDie part d).ackStage stage :=
    State.partDie_modPartDie_self (s.modDie d fun x => { x with invs := rest }) _ parts die
  rw [State.invReg, register, PartDie.ackStage, State.invReg]
  split <;> rfl

section
variable {s : State} {d part stage : Nat} (ev : s.focus.ev = .invalidationAck d part stage)
include ev

/-- Before its cycle an invalidation does nothing. -/
theorem exec_invalidationAck_of_early (early : ∀ i ∈ (s.die d).invs, i.part = part → i.stage = stage → s.cycle < i.due) :
    exec .vInvalidationAck s = .next s := by
  have none : ((s.die d).invs.find? fun i => decide (i.part = part ∧ i.stage = stage ∧ i.due ≤ s.cycle)) = none :=
    List.find?_eq_none.mpr fun i mem => by
      rw [decide_eq_true_eq]
      exact fun ⟨mine, same, due⟩ => absurd (early i mem mine same) (Nat.not_lt.mpr due)
  change execVInvalidationAck s = _
  simp only [execVInvalidationAck, ev, none]

variable {i : Inv} (found : ((s.die d).invs.find? fun i => decide (i.part = part ∧ i.stage = stage ∧ i.due ≤ s.cycle)) = some i)
include found

/-- R419: an invalidation whose entries' requests are on their way waits. -/
theorem exec_invalidationAck_of_reached (reached : s.reaching part (s.invNames d part stage i) = true) :
    exec .vInvalidationAck s = .next ((s.dropHits d part stage i).modDie d fun x =>
      { x with invs := { i with gone := some (s.invNames d part stage i) } :: (s.die d).invs.filter fun j => decide (j ≠ i) }) := by
  change execVInvalidationAck s = _
  unfold State.invNames State.invReg at reached ⊢
  simp only [execVInvalidationAck, ev, found, reached, if_true]
  rfl

/-- R419: with no such request on its way it is acknowledged. -/
theorem exec_invalidationAck_of_clear (clear : s.reaching part (s.invNames d part stage i) = false) :
    exec .vInvalidationAck s = .next ((s.dropHits d part stage i).ackInv d part stage ((s.die d).invs.filter fun j => decide (j ≠ i))) := by
  change execVInvalidationAck s = _
  unfold State.invNames State.invReg at clear
  simp only [execVInvalidationAck, ev, found, clear, Bool.false_eq_true, if_false]
  rfl

/-- Either way the entries that it covers have gone. -/
theorem exec_invalidationAck_tlb (die : d < s.dies.length) :
    Answers (exec .vInvalidationAck s) fun u => (u.die d).tlb = ((s.dropHits d part stage i).die d).tlb := by
  have inside : d < (s.dropHits d part stage i).dies.length := (State.length_dies_dropHits ..).symm ▸ die
  cases reached : s.reaching part (s.invNames d part stage i) with
  | true => rw [exec_invalidationAck_of_reached ev found reached]; exact answers_next (by rw [State.die_modDie_self _ _ inside])
  | false => rw [exec_invalidationAck_of_clear ev found reached]; exact answers_next (by rw [State.die_ackInv _ _ _ _ inside])

/-- R419: while it waits its register keeps the ticket open, and it keeps the names of its pages. -/
theorem exec_invalidationAck_waits (die : d < s.dies.length) (reached : s.reaching part (s.invNames d part stage i) = true) :
    Answers (exec .vInvalidationAck s) fun u =>
      u.invReg d part stage = s.invReg d part stage ∧ ∃ j ∈ (u.die d).invs, j.part = part ∧ j.stage = stage ∧ j.gone ≠ none := by
  have inside : d < (s.dropHits d part stage i).dies.length := (State.length_dies_dropHits ..).symm ▸ die
  have mine := List.find?_some found
  rw [decide_eq_true_eq] at mine
  obtain ⟨samePart, sameStage, -⟩ := mine
  refine ⟨_, exec_invalidationAck_of_reached ev found reached, State.invReg_congr (State.dropHits_parts s d part stage i) .., ?_⟩
  rw [State.die_modDie_self _ _ inside]
  exact ⟨_, List.mem_cons_self, samePart, sameStage, nofun⟩

/-- R418, R419: once acknowledged its register shows its ticket, and it is gone. -/
theorem exec_invalidationAck_acknowledges (die : d < s.dies.length) (parts : part < s.parts.length) (partDie : d < (s.part part).dies.length)
    (clear : s.reaching part (s.invNames d part stage i) = false) :
    Answers (exec .vInvalidationAck s) fun u =>
      fld (u.invReg d part stage) 143 128 = fld (s.invReg d part stage) 127 112 ∧ ∀ j ∈ (u.die d).invs, j ≠ i := by
  have inside : d < (s.dropHits d part stage i).dies.length := (State.length_dies_dropHits ..).symm ▸ die
  have same := State.dropHits_parts s d part stage i
  refine ⟨_, exec_invalidationAck_of_clear ev found clear, ?_, ?_⟩
  · rw [State.invReg_ackInv _ _ _ (same ▸ parts) (by rw [State.part, same]; exact partDie), fld_ackTicket, State.invReg_congr same]
  · rw [State.die_ackInv _ _ _ _ inside]
    exact fun j mem => of_decide_eq_true (List.mem_filter.mp mem).2

end

/-! Migrations. -/

/-- Two states with the same migration units. -/
structure State.SameMigs (s t : State) : Prop where
  migs : ∀ d, (t.die d).mig = (s.die d).mig

namespace State.SameMigs

theorem trans {s t u : State} (h : s.SameMigs t) (k : t.SameMigs u) : s.SameMigs u := ⟨fun d => (k.migs d).trans (h.migs d)⟩

theorem of_eq {s t : State} (dies : t.dies = s.dies) : s.SameMigs t := ⟨fun d => by simp only [State.die, dies]⟩

theorem foldl {α : Type} {f : State → α → State} (l : List α) (hf : ∀ s x, State.SameMigs s (f s x)) (s : State) : s.SameMigs (l.foldl f s) :=
  List.foldlRecOn l f (of_eq rfl) fun _ h x _ => h.trans (hf _ x)

theorem modDie (s : State) (d : Nat) {f : Die → Die} (keeps : ∀ x, (f x).mig = x.mig) : s.SameMigs (s.modDie d f) :=
  ⟨fun e => getD_modAt_of_keeps Die.mig keeps s.dies d e {}⟩

theorem putCmpLine (s : State) (d i : Nat) (r : BitVec 320) (line : Nat) (bs : List Byte) : s.SameMigs (s.putCmpLine d i r line bs) := by
  unfold State.putCmpLine
  dsimp only
  refine trans ?_ (modDie _ d ?_)
  · exact of_eq rfl
  · exact fun _ => rfl

theorem putBytes (s : State) (d : Nat) (bs : List (Nat × Byte)) : s.SameMigs (s.putBytes d bs) := by
  unfold State.putBytes
  refine trans ?_ (foldl _ (fun s x => ?_) _)
  · exact of_eq rfl
  · exact putCmpLine s d x.1 x.2.1 x.2.2 _

theorem unveilPage (s : State) (d key tid i gen : Nat) : s.SameMigs (s.unveilPage d key tid i gen) := by
  unfold State.unveilPage
  refine trans ?_ (putBytes _ d _)
  exact of_eq rfl

theorem unveil (s : State) (d : Nat) (pas : List Nat) : s.SameMigs (s.unveil d pas) := by
  unfold State.unveil
  refine foldl _ (fun s x => ?_) s
  obtain ⟨key, tid, i, gen⟩ := x
  exact unveilPage s d key tid i gen

theorem mend (s : State) (d : Nat) (bs : List (Nat × Byte)) : s.SameMigs (s.mend d bs) := by
  unfold State.mend
  split
  · exact of_eq rfl
  · exact of_eq rfl

theorem store (s : State) (d : Nat) (bs : List (Nat × Byte)) : s.SameMigs (s.store d bs) :=
  ((mend s d bs).trans (unveil _ d _)).trans (putBytes _ d bs)

theorem copySector (s : State) (src dst : Nat × Nat) (k : Nat) : s.SameMigs (s.copySector src dst k) := store s dst.1 _

theorem mig {s t : State} (h : s.SameMigs t) (d n : Nat) : t.mig d n = s.mig d n := by rw [State.mig, h.migs d]; rfl

end State.SameMigs

section
variable {s : State} {d n : Nat} {src dst : Nat × Nat} (ev : s.focus.ev = .migrationRound d n) (pages : s.migPages (s.mig d n) = some (src, dst))
include ev pages

theorem exec_migrationRound_of_idle (idle : fld (s.mig d n).reg 206 204 ≠ 1 ∨ s.cycle < (s.mig d n).due) : exec .vMigrationRound s = .next s := by
  change execVMigrationRound s = _
  simp only [execVMigrationRound, ev, pages, idle, if_true]

variable (on : fld (s.mig d n).reg 206 204 = 1) (due : (s.mig d n).due ≤ s.cycle)
include on due

/-- R405: a round copies its next sector. -/
theorem exec_migrationRound_of_more {k : Nat} {rest : List Nat} (todo : (s.mig d n).todo = k :: rest) (more : rest ≠ []) :
    exec .vMigrationRound s = .next ((s.copySector src dst k).modMig d n fun m => { m with todo := rest, due := s.cycle + Config.latL2Die }) := by
  have busy : ¬ (fld (s.mig d n).reg 206 204 ≠ 1 ∨ s.cycle < (s.mig d n).due) := by omega
  have copied := (State.SameMigs.copySector s src dst k).mig d n
  obtain ⟨j, js, rfl⟩ := List.exists_cons_of_ne_nil more
  change execVMigrationRound s = _
  simp only [execVMigrationRound, ev, pages, busy, todo, if_false]
  refine congrArg _ (State.modMig_congr ?_)
  simp only [copied, todo, List.drop_succ_cons, List.drop_zero]

/-- R405: after its last sector a round ends: the next one copies the sectors marked meanwhile, or the final round begins. -/
theorem exec_migrationRound_of_last {k : Nat} (todo : (s.mig d n).todo = [k]) :
    let m := s.mig d n
    let marked := maskSectors m.mask
    let last := marked.length ≤ fld m.reg 199 192 ∨ fld m.reg 210 207 + 1 = fld m.reg 203 200
    exec .vMigrationRound s = .next ((s.copySector src dst k).modMig d n fun _ =>
      { reg := setFld (setFld (setFld m.reg 210 207 (fld m.reg 210 207 + 1)) 220 211 marked.length) 206 204 (if last then 2 else 1)
        todo := if last then [] else marked, mask := if last then m.mask else 0, due := s.cycle + Config.latL2Die }) := by
  have busy : ¬ (fld (s.mig d n).reg 206 204 ≠ 1 ∨ s.cycle < (s.mig d n).due) := by omega
  have copied := (State.SameMigs.copySector s src dst k).mig d n
  change execVMigrationRound s = _
  simp only [execVMigrationRound, ev, pages, busy, todo, if_false]
  refine congrArg _ (State.modMig_congr ?_)
  simp only [copied, todo, List.drop_succ_cons, List.drop_nil, decide_eq_true_eq]

end

/-- R406: MIGRATION_FINAL_ROUND waits for its cycle. -/
theorem exec_migrationFinalRound_of_idle {s : State} {d n : Nat} {src dst : Nat × Nat} (ev : s.focus.ev = .migrationFinalRound d n)
    (pages : s.migPages (s.mig d n) = some (src, dst)) (idle : fld (s.mig d n).reg 206 204 ≠ 2 ∨ s.cycle < (s.mig d n).due) :
    exec .vMigrationFinalRound s = .next s := by
  change execVMigrationFinalRound s = _
  simp only [execVMigrationFinalRound, ev, pages, idle, if_true]

/-- Settles O50: each event by the cases of its meaning. -/
theorem memoryEventsMoveTranslations : Obligations.MemoryEventsMoveTranslations := by
  refine ⟨?grant, ?walk, ?invalidation, ?round, ?finalRound⟩
  case grant =>
    intro s part n x need r ev queue
    refine ⟨exec_eventGrant_of_short ev queue, fun covered tid rp page alone => ?_, fun covered tid rp t u page filed dual => ?_,
      fun covered d k graph queued => ?_⟩
    · rw [exec_eventGrant_of_page ev queue covered page]
      cases filed : s.task tid with
      | none => rfl
      | some t => rw [Option.bind_some, alone t filed]; rfl
    · rw [exec_eventGrant_of_page ev queue covered page, filed, Option.bind_some, dual]
      rfl
    · obtain ⟨u, answer, inst, event⟩ := exec_eventGrant_of_graph ev queue covered graph queued
      exact ⟨u, answer, by rw [inst], by rw [inst], by rw [inst], by rw [event]⟩
  case walk =>
    intro s d q ev
    have tlb := s.tlb_endWalk d q
    refine ⟨exec_remoteWalkComplete_of_early ev, fun ended => ⟨fun _ bad => exec_remoteWalkComplete_of_error ev ended bad, fun e maps =>
      ⟨exec_remoteWalkComplete_of_known ev ended maps, fun new room => ?_, fun new full pinned => ?_, fun new full die spare => ?_⟩⟩⟩
    · rw [exec_remoteWalkComplete_of_new ev ended maps new, State.tlbAdd_of_room e (tlb.symm ▸ room)]
      rfl
    · rw [exec_remoteWalkComplete_of_new ev ended maps new, State.tlbAdd_of_pinned e (tlb.symm ▸ full) (tlb.symm ▸ pinned)]
      rfl
    · have enters := State.tlbAdd_enters e (tlb.symm ▸ full) ((State.length_dies_modDie ..).symm ▸ die) (tlb.symm ▸ spare)
      rw [tlb] at enters
      exact ⟨_, exec_remoteWalkComplete_of_new ev ended maps new, enters⟩
  case invalidation =>
    intro s d part stage ev _
    refine ⟨exec_invalidationAck_of_early ev, fun i die parts partDie found => ⟨fun fresh => ?_, fun reached => ?_, fun clear => ?_⟩⟩
    · obtain ⟨u, answer, tlb⟩ := exec_invalidationAck_tlb ev found die
      rw [State.tlb_dropHits die fresh] at tlb
      refine ⟨u, answer, fun e mem unpinned => ?_, fun e mem free => ?_⟩
      · obtain ⟨y, -, stays⟩ := List.mem_filterMap.mp (tlb ▸ mem)
        exact State.not_hit_of_invalidated stays unpinned
      · exact tlb ▸ List.mem_filterMap.mpr ⟨e, mem, State.invalidated_of_not_hit free⟩
    · exact exec_invalidationAck_waits ev found die ((invNames_reached_iff ..).mpr reached)
    · have clear := Bool.eq_false_iff.mpr fun reached => clear ((invNames_reached_iff s d part stage i).mp reached)
      exact exec_invalidationAck_acknowledges ev found die parts partDie clear
  case round =>
    intro s d n src dst ev pages
    exact ⟨exec_migrationRound_of_idle ev pages, fun on due _ _ todo more => exec_migrationRound_of_more ev pages on due todo more,
      fun on due _ todo => exec_migrationRound_of_last ev pages on due todo⟩
  case finalRound =>
    intro s d n src dst ev pages
    refine ⟨exec_migrationFinalRound_of_idle ev pages, fun on due => ?_⟩
    have busy : ¬ (fld (s.mig d n).reg 206 204 ≠ 2 ∨ s.cycle < (s.mig d n).due) := by omega
    change execVMigrationFinalRound s = _
    simp only [execVMigrationFinalRound, ev, pages, busy, if_false, maskSectors, State.modTum]

end Sys2Proof.Machine
end

section
/-! PROOF. Selection, aging, charges and priority preemption of tasks (R237, R238, R240). -/
namespace Sys2Proof.Machine

/-! Selection (R237, R238). -/

theorem State.selectable_iff (s : State) (part die l x : Nat) : s.selectable part die l x = true ↔
    s.weight part x ≠ 0 ∧ ∃ h r, s.queueOf part die l x = h :: r ∧ ∀ e ∈ s.tasks, ¬ (e.2.part = part ∧ e.2.inst.die = die ∧ e.2.level = l
      ∧ e.2.tenant = x ∧ e.2.state = (if h.state = .saved then TState.pageWait else TState.leaseWait)) := by
  cases queue : s.queueOf part die l x with
  | nil => simp [State.selectable, queue]
  | cons h r => simp [State.selectable, queue, State.atLimit]

theorem State.selectLevel_lowest {s : State} {part die l : Nat} (found : s.selectLevel part die = some l) :
    (∃ t < 16, s.selectable part die l t = true) ∧ ∀ m < l, ∀ t < 16, s.selectable part die m t = false := by
  obtain ⟨some_selectable, bound, below⟩ := List.find?_range_eq_some.mp found
  refine ⟨by simpa using some_selectable, fun m lower t tenant => ?_⟩
  have none_selectable := below m lower
  simp only [Bool.not_eq_true', List.any_eq_false, List.mem_range, Bool.not_eq_true] at none_selectable
  exact none_selectable t tenant

/-- R238: the round-robin stops at a tenant whose head may be selected and whose deficit is positive. -/
theorem selectLoop_eq_some {weight : Nat → Nat} {q : Nat} {empty ok : Nat → Bool} {fuel t x : Nat} {d y : List Int}
    (found : selectLoop weight q empty ok fuel t d = some (x, y)) : weight x ≠ 0 ∧ empty x = false ∧ ok x = true ∧ 0 < y.getD x 0 := by
  induction fuel generalizing t d with
  | zero => cases found
  | succ fuel ih =>
    unfold selectLoop at found
    split at found
    · exact ih found
    split at found
    · exact ih found
    split at found
    · exact ih found
    split at found
    next weighty filled allowed positive =>
      cases found
      exact ⟨weighty, by simpa using filled, by simpa using allowed, positive⟩
    · exact ih found

/-- Changes of a task that agree on the task as it is filed give the same state. -/
theorem State.modTask_congr_of_filed {s : State} {n : Nat} {t : Task} {f g : Task → Task} (filed : s.task n = some t) (same : f t = g t) :
    s.modTask n f = s.modTask n g :=
  State.modTask_congr fun u held => by
    obtain rfl := Option.some.inj (filed.symm.trans held)
    exact same

/-- R237: TASK_AGING raises a task that has waited 2^20 cycles. -/
theorem exec_taskAging {s : State} {tid : Nat} {t : Task} (ev : s.focus.ev = .taskAging tid) (filed : s.task tid = some t) :
    exec .vTaskAging s = .next (if t.waits = true ∧ 1 < t.level ∧ t.agedAt + 2 ^ 20 ≤ s.cycle then
      s.modTask tid fun u => { u with level := t.level - 1, qpos := s.backPos t.part t.inst.die (t.level - 1) t.tenant, agedAt := t.agedAt + 2 ^ 20 }
    else s) := by
  change execVTaskAging s = _
  simp only [execVTaskAging, ev, filed]
  split
  · exact congrArg _ (State.modTask_congr_of_filed filed rfl)
  · rfl

/-! Charges (R238, R240). -/

/-- Is a task past its quantum once it is charged (R240)? -/
def State.pastQuantum (s : State) (t : Task) : Prop :=
  ((s.charge t).sched t.part t.inst.die).deficit.getD t.tenant 0 < -((s.weight t.part t.tenant * s.quantum t.part : Nat) : Int)

/-- Has another tenant a task of the same level that may be selected (R240)? -/
def State.hasRival (s : State) (t : Task) : Prop := ∃ u < 16, u ≠ t.tenant ∧ s.selectable t.part t.inst.die t.level u = true

section
variable {s : State} {tid : Nat} {t : Task} (ev : s.focus.ev = .deficitCharge tid) (filed : s.task tid = some t)
include ev filed

theorem exec_deficitCharge_of_idle (idle : t.state ≠ .running ∨ s.cycle < t.charged + 2 ^ 16) : exec .vDeficitCharge s = .next s := by
  change execVDeficitCharge s = _
  simp only [execVDeficitCharge, ev, filed, idle, if_true]

variable (running : t.state = .running) (due : t.charged + 2 ^ 16 ≤ s.cycle)
include running due

/-- R238: a task that has run for 2^16 cycles is charged; its slice ends by a test of its deficit, of the others' queues and of its requests. -/
theorem exec_deficitCharge_of_due : ∃ slice : Bool, (slice = true ↔ s.pastQuantum t ∧ s.hasRival t ∧ t.preqAt = none)
    ∧ exec .vDeficitCharge s = .next (if slice then (s.charge t).later (.event (.preemptRequest tid 1)) else s.charge t) := by
  have busy : ¬ (t.state ≠ .running ∨ s.cycle < t.charged + 2 ^ 16) := not_or.mpr ⟨fun other => other running, Nat.not_lt.mpr due⟩
  change ∃ slice : Bool, _ ∧ execVDeficitCharge s = _
  simp only [execVDeficitCharge, ev, filed, busy, if_false]
  exact ⟨_, by simp [State.pastQuantum, State.hasRival, and_assoc], rfl⟩

theorem exec_deficitCharge_of_slice (slice : s.pastQuantum t ∧ s.hasRival t ∧ t.preqAt = none) :
    exec .vDeficitCharge s = .next ((s.charge t).later (.event (.preemptRequest tid 1))) := by
  obtain ⟨_, holds, answer⟩ := exec_deficitCharge_of_due ev filed running due
  rw [answer, if_pos (holds.mpr slice)]

theorem exec_deficitCharge_of_calm (calm : ¬ (s.pastQuantum t ∧ s.hasRival t ∧ t.preqAt = none)) :
    exec .vDeficitCharge s = .next (s.charge t) := by
  obtain ⟨_, holds, answer⟩ := exec_deficitCharge_of_due ev filed running due
  rw [answer, if_neg fun slice => calm (holds.mp slice)]

end

/-! Whom a task of a lower level stops (R240). -/

section
variable (before : Task → Task → Bool)

/-- A task enters a list behind those that it is not before. -/
def enters (l : List Task) (u : Task) : List Task := (l.filter fun x => !before u x) ++ u :: l.filter (before u)

theorem enters_perm (l : List Task) (u : Task) : (enters before l u).Perm (u :: l) :=
  List.perm_middle.trans ((List.perm_append_comm.trans (List.filter_append_perm (before u) l)).cons u)

theorem foldl_enters_perm (us l : List Task) : (us.foldl (enters before) l).Perm (us ++ l) := by
  induction us generalizing l with
  | nil => exact .rfl
  | cons u r ih => exact (ih _).trans (((enters_perm before l u).append_left r).trans List.perm_middle)

variable {before} {u : Task}

/-- Is a task before each other task of a list? -/
def Leads (before : Task → Task → Bool) (u : Task) (l : List Task) : Prop := ∀ v ∈ l, v = u ∨ (before u v = true ∧ before v u = false)

theorem head?_enters {l : List Task} {v : Task} (irrefl : before u u = false) (leads : Leads before u (v :: l)) (head : u ∈ l → l.head? = some u)
    (mem : u ∈ v :: l) : (enters before l v).head? = some u := by
  obtain ⟨first, rest⟩ := List.forall_mem_cons.mp leads
  by_cases same : v = u
  · subst same
    have copies : ∀ x ∈ l.filter fun x => !before v x, x = v := fun x kept => by
      obtain ⟨held, behind⟩ := List.mem_filter.mp kept
      exact (rest x held).resolve_right fun ⟨ahead, _⟩ => by simp [ahead] at behind
    unfold enters
    cases kept : l.filter fun x => !before v x with
    | nil => rfl
    | cons x r => rw [copies x (kept ▸ List.mem_cons_self)]; rfl
  · have behind := (first.resolve_left same).2
    obtain ⟨r, rfl⟩ : ∃ r, l = u :: r := List.head?_eq_some_iff.mp (head ((List.mem_cons.mp mem).resolve_left (Ne.symm same)))
    simp [enters, behind]

theorem head?_foldl_enters (irrefl : before u u = false) {us l : List Task} (leads : Leads before u (us ++ l))
    (head : u ∈ l → l.head? = some u) (mem : u ∈ us ++ l) :
    (us.foldl (enters before) l).head? = some u := by
  induction us generalizing l with
  | nil => exact head mem
  | cons v r ih =>
    have moved : (r ++ enters before l v).Perm (v :: r ++ l) := ((enters_perm before l v).append_left r).trans List.perm_middle
    refine ih (fun x held => leads x (moved.mem_iff.mp held)) (fun held => ?_) (moved.mem_iff.mpr mem)
    have held := (enters_perm before l v).mem_iff.mp held
    refine head?_enters irrefl (fun x inside => leads x ?_) head held
    grind

end

/-- The order of R240: highest level first, newest first. -/
def Task.stopsBefore (a b : Task) : Bool := decide (b.level < a.level ∨ (a.level = b.level ∧ b.startSeq < a.startSeq))

/-- The tasks of a partition on a die that may be stopped for a task of a level, as they are filed. -/
def State.prey (s : State) (part die level : Nat) : List Task :=
  (s.tasks.map (·.2)).filter fun u => decide (u.part = part ∧ u.die = die ∧ u.state = .running ∧ level < u.level)

theorem State.preyOf_eq (s : State) (part die level : Nat) :
    s.preyOf part die level = (s.prey part die level).foldl (enters Task.stopsBefore) [] := rfl

theorem State.preyOf_perm (s : State) (part die level : Nat) : (s.preyOf part die level).Perm (s.prey part die level) := by
  rw [State.preyOf_eq, ← List.append_nil (s.prey part die level)]
  simpa only [List.append_nil] using foldl_enters_perm Task.stopsBefore (s.prey part die level) []

/-- A running task above all others is the first to be stopped. -/
theorem State.head?_preyOf {s : State} {part die level : Nat} {u : Task} (mem : u ∈ s.prey part die level)
    (first : ∀ v ∈ s.prey part die level, v = u ∨ v.level < u.level ∨ (v.level = u.level ∧ v.startSeq < u.startSeq)) :
    (s.preyOf part die level).head? = some u := by
  refine head?_foldl_enters (before := Task.stopsBefore) (by simp [Task.stopsBefore]) (fun v held => ?_) nofun (List.mem_append_left _ mem)
  rw [List.append_nil] at held
  refine (first v held).imp_right fun above => ?_
  simp only [Task.stopsBefore, decide_eq_true_eq, decide_eq_false_iff_not]
  omega

/-- The tasks that R240 asks to yield, of a list in its order, while the pages got are fewer than needed. -/
def askedOf (need : Nat) (held : Task → Nat) : Nat → List Task → List Task
  | _, [] => []
  | got, u :: us => if need ≤ got then askedOf need held got us else (if u.preqAt.isNone then [u] else []) ++ askedOf need held (got + held u) us

theorem mem_askedOf {need got : Nat} {held : Task → Nat} {us : List Task} {u : Task} (mem : u ∈ askedOf need held got us) :
    u ∈ us ∧ u.preqAt = none ∧ got < need := by
  induction us generalizing got with
  | nil => cases mem
  | cons v r ih =>
    unfold askedOf at mem
    split at mem
    · exact (ih mem).imp_left (List.mem_cons_of_mem v)
    · next short =>
      rcases List.mem_append.mp mem with now | later
      · split at now
        · next free =>
          obtain rfl := List.mem_singleton.mp now
          exact ⟨List.mem_cons_self, Option.isNone_iff_eq_none.mp free, Nat.lt_of_not_le short⟩
        · cases now
      · obtain ⟨held, free, -⟩ := ih later
        exact ⟨List.mem_cons_of_mem v held, free, Nat.lt_of_not_le short⟩

/-- The first task of the order is asked when pages are missing. -/
theorem mem_askedOf_of_head {need got : Nat} {held : Task → Nat} {us : List Task} {u : Task} (head : us.head? = some u) (short : got < need)
    (free : u.preqAt = none) : u ∈ askedOf need held got us := by
  obtain ⟨r, rfl⟩ := List.head?_eq_some_iff.mp head
  simp [askedOf, Nat.not_le.mpr short, free]

/-- A task is asked to yield for one of a lower level (R240). -/
def State.askYield (s : State) (u : Task) : State := s.later (.event (.preemptRequest u.tid 0))

/-- R240 comes to a task of its order: it is asked, and its pages count, while pages are missing. -/
def stopNext (need : Nat) (held : Task → Nat) (x : State × Nat) (u : Task) : State × Nat :=
  if need ≤ x.2 then x else (if u.preqAt.isNone then x.1.askYield u else x.1, x.2 + held u)

theorem foldl_stopNext (need : Nat) (held : Task → Nat) (us : List Task) (s : State) (got : Nat) :
    (us.foldl (stopNext need held) (s, got)).1 = (askedOf need held got us).foldl State.askYield s := by
  induction us generalizing got s with
  | nil => rfl
  | cons u r ih =>
    rw [List.foldl_cons, stopNext, askedOf]
    by_cases enough : need ≤ got
    · rw [if_pos enough, if_pos enough, ih]
    · rw [if_neg enough, if_neg enough, ih, List.foldl_append]
      congr 1
      split <;> rfl

/-- Pages that the gang of a task needs on a die (R240, R245). -/
def State.needOn (s : State) (t : Task) (d : Nat) : Nat := max 1 (((s.gang t).filter fun u => decide (u.die = d)).map Task.leastPages).sum

/-- Pages of a die that are free, and those that are free once every task that may be stopped has yielded. -/
def State.freeOn (s : State) (t : Task) (d : Nat) : Nat := (s.freePages t.part d).length
def State.totalOn (s : State) (t : Task) (d : Nat) : Nat :=
  s.freeOn t d + ((s.prey t.part d t.level).map fun u => (s.heldPages u.tid).length).sum

/-- The tasks that R240 asks to yield on a die for a task, and on every die of its gang. -/
def State.askedOn (s : State) (t : Task) (d : Nat) : List Task :=
  askedOf (s.needOn t d) (fun u => (s.heldPages u.tid).length) (s.freeOn t d) (s.preyOf t.part d t.level)
def State.askedFor (s : State) (t : Task) : List Task := (((s.gang t).map (·.die)).eraseDups).flatMap (s.askedOn t)

theorem State.mem_gangDies {s : State} {t : Task} {d : Nat} : d ∈ ((s.gang t).map (·.die)).eraseDups ↔ ∃ m ∈ s.gang t, m.die = d := by
  simp only [List.mem_eraseDups, List.mem_map]

/-- R240: on some die of the gang the pages do not suffice, even when every task that may be stopped has yielded. -/
theorem State.any_crowded_iff (s : State) (t : Task) :
    (((s.gang t).map (·.die)).eraseDups.any fun d => decide (s.totalOn t d < s.needOn t d)) = true
      ↔ ∃ u ∈ s.gang t, s.totalOn t u.die < s.needOn t u.die := by
  simp only [List.any_eq_true, decide_eq_true_eq, State.mem_gangDies]
  constructor
  · rintro ⟨_, ⟨m, mem, rfl⟩, short⟩
    exact ⟨m, mem, short⟩
  · rintro ⟨m, mem, short⟩
    exact ⟨m.die, ⟨m, mem, rfl⟩, short⟩

theorem State.mem_askedFor {s : State} {t u : Task} : u ∈ s.askedFor t ↔ ∃ m ∈ s.gang t, u ∈ s.askedOn t m.die := by
  simp only [State.askedFor, List.mem_flatMap, State.mem_gangDies]
  constructor
  · rintro ⟨_, ⟨m, mem, rfl⟩, asked⟩
    exact ⟨m, mem, asked⟩
  · rintro ⟨m, mem, asked⟩
    exact ⟨m.die, ⟨m, mem, rfl⟩, asked⟩

theorem State.total_preyOf (s : State) (t : Task) (d : Nat) :
    s.freeOn t d + ((s.preyOf t.part d t.level).map fun u => (s.heldPages u.tid).length).sum = s.totalOn t d := by
  rw [State.totalOn, ((s.preyOf_perm t.part d t.level).map _).sum_nat]

section
variable {s : State} {tid : Nat} {t : Task} (ev : s.focus.ev = .priorityPreempt tid) (filed : s.task tid = some t)
include ev filed

theorem exec_priorityPreempt_of_early (early : t.state ≠ .pageWait ∨ s.cycle < t.memSince + 2 ^ 14) : exec .vPriorityPreempt s = .next s := by
  change execVPriorityPreempt s = _
  simp only [execVPriorityPreempt, ev, filed, early, if_true]

variable (waits : t.state = .pageWait) (due : t.memSince + 2 ^ 14 ≤ s.cycle)
include waits due

/-- R240: with too few pages on some die even so nothing happens; else tasks of higher levels are asked to yield. -/
theorem exec_priorityPreempt_of_late :
    exec .vPriorityPreempt s = .next (if ((s.gang t).map (·.die)).eraseDups.any fun d => decide (s.totalOn t d < s.needOn t d) then s
      else (s.askedFor t).foldl State.askYield s) := by
  have late : ¬ (t.state ≠ .pageWait ∨ s.cycle < t.memSince + 2 ^ 14) := not_or.mpr ⟨fun other => other waits, Nat.not_lt.mpr due⟩
  have asks : (s.askedFor t).foldl State.askYield s = ((s.gang t).map (·.die)).eraseDups.foldl (fun s1 d => ((s.preyOf t.part d t.level).foldl
      (stopNext (s.needOn t d) fun u => (s.heldPages u.tid).length) (s1, s.freeOn t d)).1) s := by
    simp only [foldl_stopNext, State.askedFor, List.foldl_flatMap]
    rfl
  rw [asks]
  simp only [← State.total_preyOf]
  change execVPriorityPreempt s = _
  simp only [execVPriorityPreempt, ev, filed, late, if_false]
  exact (apply_ite Host.Outcome.next _ _ _).symm

theorem exec_priorityPreempt_of_crowded (crowded : ∃ u ∈ s.gang t, s.totalOn t u.die < s.needOn t u.die) : exec .vPriorityPreempt s = .next s := by
  rw [exec_priorityPreempt_of_late ev filed waits due, if_pos ((s.any_crowded_iff t).mpr crowded)]

theorem exec_priorityPreempt_of_room (room : ∀ u ∈ s.gang t, s.needOn t u.die ≤ s.totalOn t u.die) :
    exec .vPriorityPreempt s = .next ((s.askedFor t).foldl State.askYield s) := by
  rw [exec_priorityPreempt_of_late ev filed waits due, if_neg fun crowded => ?_]
  obtain ⟨u, mem, short⟩ := (s.any_crowded_iff t).mp crowded
  exact Nat.not_lt.mpr (room u mem) short

end

/-- R240: whoever is asked runs at a higher level on a die of the gang that lacks pages. -/
theorem State.askedFor_wanted {s : State} {t u : Task} (asked : u ∈ s.askedFor t) :
    u.preqAt = none ∧ u ∈ s.prey t.part u.die t.level ∧ ∃ m ∈ s.gang t, m.die = u.die ∧ s.freeOn t m.die < s.needOn t m.die := by
  obtain ⟨m, mem, onDie⟩ := State.mem_askedFor.mp asked
  obtain ⟨held, free, short⟩ := mem_askedOf onDie
  have prey := (s.preyOf_perm t.part m.die t.level).mem_iff.mp held
  have die : m.die = u.die := (of_decide_eq_true (List.mem_filter.mp prey).2).2.1.symm
  exact ⟨free, die ▸ prey, m, mem, die, short⟩

/-- R240: the first of the order is asked on every die that lacks pages. -/
theorem State.first_mem_askedFor {s : State} {t m u : Task} (mem : m ∈ s.gang t) (prey : u ∈ s.prey t.part m.die t.level)
    (first : ∀ v ∈ s.prey t.part m.die t.level, v = u ∨ v.level < u.level ∨ (v.level = u.level ∧ v.startSeq < u.startSeq))
    (short : s.freeOn t m.die < s.needOn t m.die) (free : u.preqAt = none) : u ∈ s.askedFor t :=
  State.mem_askedFor.mpr ⟨m, mem, mem_askedOf_of_head (State.head?_preyOf prey first) short free⟩

/-- R237, R238: TASK_SELECT finds nothing to select. -/
theorem exec_taskSelect_of_none {s : State} {die part : Nat} (ev : s.focus.ev = .taskSelect die part) (empty : s.selectLevel part die = none) :
    exec .vTaskSelect s = .next s := by
  change execVTaskSelect s = _
  simp only [execVTaskSelect, ev, empty]

/-- Settles O37: selection, aging, charges and priority preemption, each by the cases of its meaning. -/
theorem tasksAreSelectedAndCharged : Obligations.TasksAreSelectedAndCharged := by
  refine ⟨fun _ _ _ _ => State.selectLevel_lowest, State.selectable_iff, fun _ _ _ _ _ _ _ _ _ => selectLoop_eq_some,
    fun _ _ _ => exec_taskSelect_of_none, ?selects, fun _ _ _ => exec_taskAging, ?charges, ?stops⟩
  case selects =>
    intro s die part l x d h ev level round head
    change execVTaskSelect s = _
    simp only [execVTaskSelect, ev, level, round, head]
  case charges =>
    intro s tid t ev filed same
    subst same
    exact ⟨exec_deficitCharge_of_idle ev filed, fun running due => ⟨
      fun past rival free => exec_deficitCharge_of_slice ev filed running due ⟨past, rival, free⟩,
      exec_deficitCharge_of_calm ev filed running due⟩⟩
  case stops =>
    intro s tid t ev filed
    exact ⟨exec_priorityPreempt_of_early ev filed, fun waits due => ⟨exec_priorityPreempt_of_crowded ev filed waits due, fun room =>
      ⟨s.askedFor t, fun _ => State.askedFor_wanted, fun _ mem _ prey first short free => State.first_mem_askedFor mem prey first short free,
        exec_priorityPreempt_of_room ev filed waits due room⟩⟩⟩

end Sys2Proof.Machine
end

section
/-! PROOF. Launches of a graph: TASK, TASKD, STEP and ENDSTEP (R232, R256, R258). -/
namespace Sys2Proof.Machine
open Sys2Proof.Claims

/-! Requests leave the focus alone. -/

/-- What every step of a fold keeps, the fold keeps. -/
theorem foldl_keeps {α β γ : Type} (g : β → γ) {f : β → α → β} (keeps : ∀ b a, g (f b a) = g b) (l : List α) (b : β) : g (l.foldl f b) = g b :=
  List.foldlRecOn l f (motive := fun c => g c = g b) rfl fun c same a _ => (keeps c a).trans same

@[simp] theorem State.noteWalk_focus (s : State) (w : Who) (va : W64) : (s.noteWalk w va).1.focus = s.focus := by
  unfold State.noteWalk
  dsimp only
  split
  · split
    · rfl
    · split <;> rfl
  · rfl

@[simp] theorem State.noteWalks_focus (s : State) (w : Who) (va : W64) (n : Nat) : (s.noteWalks w va n).1.focus = s.focus := by
  unfold State.noteWalks
  refine foldl_keeps (fun x : State × Nat => x.1.focus) (fun x a => ?_) _ _
  exact State.noteWalk_focus x.1 w a.1

@[simp] theorem State.takeWay_focus (s : State) (d si : Nat) (f : Fill) (pick : Nat × Option L2Line × Bool) :
    (s.takeWay d si f pick).focus = s.focus := by
  unfold State.takeWay
  dsimp only
  split <;> rfl

@[simp] theorem State.metaLookup_focus (s : State) (d i line : Nat) : (s.metaLookup d i line).1.focus = s.focus := by
  unfold State.metaLookup
  dsimp only
  split <;> rfl

@[simp] theorem State.startFill_focus (s : State) (part d si line : Nat) : (s.startFill part d si line).focus = s.focus := by
  unfold State.startFill
  dsimp only
  rw [State.modDie_focus]
  cases s.cmpAt d (line * 512) <;> dsimp only <;> split <;> simp only [State.takeWay_focus, State.metaLookup_focus]

@[simp] theorem State.l2Request_focus (s : State) (part d pa : Nat) : (s.l2Request part d pa).focus = s.focus := by
  unfold State.l2Request
  dsimp only
  split
  · rfl
  · exact State.startFill_focus ..

@[simp] theorem State.touchL2_focus (s : State) (w : Who) (va : W64) (ps : List (Loc × Nat × Option PotE)) :
    (s.touchL2 w va ps).1.focus = s.focus := by
  unfold State.touchL2
  dsimp only
  refine (foldl_keeps (fun x : State × Nat => x.1.focus) (fun x p => ?_) ps _).trans (State.noteWalks_focus s w va _)
  obtain ⟨l, n, e⟩ := p
  cases l with
  | hbm d pa => exact foldl_keeps (fun y : State × Nat => y.1.focus) (fun y _ => State.l2Request_focus y.1 ..) _ _
  | sp rp c off => rfl
  | peer c a => rfl

@[simp] theorem State.ctxTouch_focus (s : State) (w : Who) (k : Access) (va : W64) (n : Nat) : (s.ctxTouch w k va n).focus = s.focus :=
  foldl_keeps State.focus (fun s _ => State.touchL2_focus s w va _) _ _

@[simp] theorem State.launchTouch_focus (s : State) (w : Who) (bs : List Byte) : (s.launchTouch w bs).focus = s.focus := by
  unfold State.launchTouch
  split
  · rfl
  · rw [State.ctxTouch_focus]
    split
    · rfl
    · exact State.ctxTouch_focus ..

/-! Changes of a graph. -/

theorem modAt_modAt {α : Type} (l : List α) (i : Nat) (f g : α → α) : modAt (modAt l i f) i g = modAt l i fun a => g (f a) := by
  induction l generalizing i with
  | nil => rfl
  | cons a r ih => cases i with
    | zero => rfl
    | succ i => exact congrArg (a :: ·) (ih i)

theorem State.modInst_modInst (s : State) (d k : Nat) (f g : GInst → GInst) : (s.modInst d k f).modInst d k g = s.modInst d k fun x => g (f x) := by
  simp only [State.modInst, State.modDie, modAt_modAt]

/-- What a change keeps of a graph, whether its slot is there or not. -/
theorem State.inst_modInst_of_keeps {α : Type} (g : GInst → α) {f : GInst → GInst} (keeps : ∀ x, g (f x) = g x) (s : State) (d k : Nat) :
    g ((s.modInst d k f).inst d k) = g (s.inst d k) :=
  getD_modAt_of_keeps (fun x : Die => g (x.insts.getD k {})) (fun x => getD_modAt_of_keeps g keeps x.insts k k {}) s.dies d d {}

/-- A graph fault closes the graph in focus and ends the tasks of its records (R268, R269). -/
theorem State.gbad_faults (s : State) (code : Nat) : Faults (.next (s.gbad code)) s code := by
  unfold Faults State.gbad State.gfault
  dsimp only
  rw [State.inst_modInst_of_keeps GInst.faults (f := fun g => g.fault code) fun _ => rfl]
  rfl

/-! TASK and TASKD (R256). -/

/-- The Pintle of the die in focus as it reads the record of a launch for the graph in focus (R409). -/
def State.launchWho (s : State) : Who := pintleWho s.finst.part s.finst.tenant s.focus.die

/-- A field of 16 bits, as a number and as bits. -/
theorem fld_eq_zero_iff (v : W64) (j : Nat) : fld v (16 * j + 15) (16 * j) = 0 ↔ v.extractLsb' (16 * j) 16 = 0 := by
  have width : 16 * j + 15 + 1 - 16 * j = 16 := by omega
  rw [← BitVec.toNat_inj, BitVec.extractLsb'_toNat, fld, bitsOf, width]
  rfl

theorem exec_launchWords : ∀ x ∈ launchWords, ∀ (w : GWord) (s : State),
    exec (x.1 w) s = .next (s.launch w.gd (gOf s w.ga + w.imm.setWidth 64) (x.2 w s)) := by
  simp only [launchWords, List.forall_mem_cons]
  exact ⟨fun _ _ => rfl, fun _ _ => rfl, nofun⟩

/-- What a launch does once its record is checked (R233, R256, R258). -/
def State.launchChecked (s : State) (gd : BitVec 4) (g : GInst) (me : InstRef) : Except Nat Launched → State
  | .error st => s.recordLaunch gd { num := g.nlaunch + 1, shown := st, status := st, inStep := g.stepOpen }
  | .ok l =>
    let s1 := s.recordLaunch gd { num := g.nlaunch + 1, inStep := g.stepOpen, left := l.rcd.instances }
    if g.stepOpen then s1.onInst fun x => { x with step := x.step ++ [{ num := g.nlaunch + 1, rcd := l.rcd, wins := l.wins, pages := l.pages }] }
    else if l.rcd.bg.getLsbD 7 then
      ({ s1 with nextSet := s1.nextSet + 1 } : State).enqueue l g.part g.tenant me (g.nlaunch + 1) (some (s1.nextSet, 0, l.rcd.instances))
    else s1.enqueue l g.part g.tenant me (g.nlaunch + 1) none

/-- The state after the requests of a launch for its record and for what the record names (R345). -/
def State.launchRequests (s : State) (va : W64) (bs : List Byte) : State := (s.ctxTouch s.launchWho .record va 256).launchTouch s.launchWho bs

section
variable {s : State} {gd : BitVec 4} {va : W64} {trips : Option W64}

theorem State.launch_of_misaligned (misaligned : va.toNat % 64 ≠ 0) : s.launch gd va trips = s.gbad 1 := by
  simp only [State.launch, misaligned, ne_eq, not_false_eq_true, if_true]

variable (aligned : va.toNat % 64 = 0)
include aligned

theorem State.launch_of_unread {e : Deny} (unread : s.ctxRead s.launchWho .record va 256 = .error e) : s.launch gd va trips = s.gbad (gcode e) := by
  unfold State.launchWho at unread
  simp only [State.launch, aligned, unread, ne_eq, not_true_eq_false, if_false]

variable {bs : List Byte} (read : s.ctxRead s.launchWho .record va 256 = .ok bs)
include read

theorem State.launch_of_zero (zero : zeroTrip trips) :
    s.launch gd va trips = (s.ctxTouch s.launchWho .record va 256).recordLaunch gd { num := s.finst.nlaunch + 1, inStep := s.finst.stepOpen } := by
  unfold State.launchWho at read ⊢
  obtain ⟨v, rfl, zero⟩ := zero
  have zero : ((List.range 4).any fun j => decide (fld v (16 * j + 15) (16 * j) = 0)) = true := by
    simpa [fld_eq_zero_iff] using zero
  simp only [State.launch, aligned, read, zero, ne_eq, not_true_eq_false, if_false, if_true]

variable (counts : ¬ zeroTrip trips)
include counts

theorem State.launch_of_counts : s.launch gd va trips =
    let s2 := s.launchRequests va (withTrips bs trips)
    s2.launchChecked gd s.finst (launcher s)
      (s2.launchCheck s.finst.part s.finst.tenant s.focus.die s.finst.evbase s.finst.evcount (withTrips bs trips)) := by
  have me (bs : List Byte) : launcher s = { die := s.focus.die, slot := (s.launchRequests va bs).focus.inst, gen := s.finst.gen } := by
    simp only [launcher, State.launchRequests, State.launchTouch_focus, State.ctxTouch_focus]
  rw [me (withTrips bs trips)]
  unfold State.launchRequests State.launchWho at *
  cases trips with
  | none =>
    simp only [State.launch, aligned, read, ne_eq, not_true_eq_false, if_false]
    exact if_neg Bool.false_ne_true
  | some v =>
    have nonzero : ¬ ((List.range 4).any fun j => decide (fld v (16 * j + 15) (16 * j) = 0)) = true := by
      simpa [zeroTrip, fld_eq_zero_iff] using counts
    simp only [State.launch, aligned, read, ne_eq, not_true_eq_false, if_false]
    exact if_neg nonzero

end

/-- A launch without a zero trip count that passes its checks is queued, or kept in the open step (R232, R256, R258). -/
theorem State.launchChecked_of_ok {s : State} (gd : BitVec 4) (g : GInst) (me : InstRef) (l : Launched) {d k : Nat} (die : s.focus.die = d)
    (inst : s.focus.inst = k) :
    let s3 := s.modInst d k (recorded gd { num := g.nlaunch + 1, inStep := g.stepOpen, left := l.rcd.instances })
    s.launchChecked gd g me (.ok l) =
      if g.stepOpen then
        s3.modInst d k fun x => { x with step := x.step ++ [{ num := g.nlaunch + 1, rcd := l.rcd, wins := l.wins, pages := l.pages }] }
      else if l.rcd.bg.getLsbD 7 then
        ({ s3 with nextSet := s3.nextSet + 1 } : State).enqueue l g.part g.tenant me (g.nlaunch + 1) (some (s3.nextSet, 0, l.rcd.instances))
      else s3.enqueue l g.part g.tenant me (g.nlaunch + 1) none := by
  subst die inst
  rfl

/-! STEP and ENDSTEP (R258). -/

theorem exec_step_of_open {s : State} (w : GWord) (opened : s.finst.stepOpen = true) : Faults (exec (.gStep w) s) s 4 := by
  have same : exec (.gStep w) s = .next (s.gbad 4) := congrArg Host.Outcome.next (if_pos opened)
  exact same ▸ s.gbad_faults 4

theorem exec_step_of_closed {s : State} (w : GWord) (closed : s.finst.stepOpen = false) :
    Goes (exec (.gStep w) s) s fun g => { g with phase := .ready, pc := g.pc + 1, stepOpen := true, step := [] } := by
  have same : exec (.gStep w) s = .next (s.gdone.onInst fun g => { g with stepOpen := true, step := [] }) :=
    congrArg Host.Outcome.next (if_neg (Bool.eq_false_iff.mp closed))
  rw [Goes, same]
  exact congrArg _ (State.modInst_modInst ..)

theorem exec_endstep_of_closed {s : State} (w : GWord) (closed : s.finst.stepOpen = false) : Faults (exec (.gEndstep w) s) s 4 := by
  have same : exec (.gEndstep w) s = .next (s.gbad 4) := by
    change execGEndstep w s = _
    simp only [execGEndstep, closed, Bool.not_false, if_true]
  exact same ▸ s.gbad_faults 4

/-- A graph after ENDSTEP with a status (R258). -/
def closedStep (gd : BitVec 4) (st : Nat) (g : GInst) : GInst :=
  { gResult g gd (BitVec.ofNat 64 st) with
    stepOpen := false, step := []
    launches := g.launches.map fun l =>
      if l.inStep then (if st = 0 then { l with inStep := false } else { l with inStep := false, status := st, left := 0 }) else l }

/-- Pages of a die that the members of a graph's open step need at once (R244, R245). -/
def State.stepDemand (s : State) (x : Nat) : Nat :=
  ((s.finst.step.filter fun l => l.rcd.bg.getLsbD 7).map fun l => s.demand s.finst.part s.focus.die x l.rcd.instances l.rcd l.pages).sum

/-- R233, R245: the members of the open step need more pages than the partition owns on some die. -/
theorem State.crowded_step_iff (s : State) :
    s.crowded s.finst.part s.focus.die ((s.finst.step.filter fun l => l.rcd.bg.getLsbD 7).map fun l => (l.rcd.instances, l.rcd, l.pages)) = true
      ↔ ∃ x < 4, 4 * (s.clustersOf s.finst.part x).length < s.stepDemand x := by
  simp [State.crowded, State.stepDemand, Function.comp_def]

section
variable {s : State} (w : GWord) (opened : s.finst.stepOpen = true)
include opened

theorem exec_endstep_of_refused {l : Launch} (own : (s.finst.launches.find? fun l => l.inStep && decide (l.status ≠ 0)) = some l) :
    Goes (exec (.gEndstep w) s) s (closedStep w.gd l.status) := by
  have refused : l.status ≠ 0 := by
    have found := List.find?_some own
    exact of_decide_eq_true (Bool.and_eq_true_iff.mp found).2
  change execGEndstep w s = _
  simp only [execGEndstep, opened, own, Bool.not_true, Bool.false_eq_true, if_false]
  exact congrArg Host.Outcome.next (if_neg refused)

variable (own : (s.finst.launches.find? fun l => l.inStep && decide (l.status ≠ 0)) = none)
include own

theorem exec_endstep_of_crowded (crowded : ∃ x < 4, 4 * (s.clustersOf s.finst.part x).length < s.stepDemand x) :
    Goes (exec (.gEndstep w) s) s (closedStep w.gd 0x33) := by
  have crowded := s.crowded_step_iff.mpr crowded
  change execGEndstep w s = _
  simp only [execGEndstep, opened, own, crowded, Bool.not_true, Bool.false_eq_true, if_false]
  rfl

theorem exec_endstep_of_room (room : ¬ ∃ x < 4, 4 * (s.clustersOf s.finst.part x).length < s.stepDemand x) :
    exec (.gEndstep w) s = .next ((s.modInst s.focus.die s.focus.inst (closedStep w.gd 0)).queueStep s.finst (launcher s)) := by
  have room := Bool.eq_false_iff.mpr fun crowded => room (s.crowded_step_iff.mp crowded)
  change execGEndstep w s = _
  simp only [execGEndstep, opened, own, room, Bool.not_true, Bool.false_eq_true, if_false]
  rfl

end

/-! Queued tasks (R232). -/

/-- Task k of a launch as it is queued behind its tenant's queue at its record's level (R232, R237). -/
def State.queuedTask (s : State) (l : Launched) (part tenant : Nat) (me : InstRef) (num k : Nat) (set : Option (Nat × Nat × Nat)) : Task :=
  let level := s.recLevel part tenant l.rcd.prio
  { tid := s.nextTid, part := part, tenant := tenant, rcd := l.rcd, wins := l.wins, tco := l.rcd.tcoAt k, inst := me
    launch := num, mset := set.map (·.1), midx := (set.map (·.2.1)).getD 0, mcount := (set.map (·.2.2)).getD 1, level := level
    qpos := s.backPos part me.die level tenant, qsince := s.cycle, agedAt := s.cycle, die := me.die, npages := l.pages
    fused := l.rcd.flags.getLsbD 0 }

section
variable {l : Launched} (single : l.rcd.flags.getLsbD 2 = false) (part tenant : Nat) (me : InstRef) (num : Nat)
include single

theorem State.enqueueOne_of_single (s : State) (k : Nat) (set : Option (Nat × Nat × Nat)) :
    s.enqueueOne l part tenant me num k set = { s.setTask (s.queuedTask l part tenant me num k set) with nextTid := s.nextTid + 1 } := by
  simp only [State.enqueueOne, single, Bool.false_eq_true, if_false]
  rfl

theorem State.enqueueOne_nextTid (s : State) (k : Nat) (set : Option (Nat × Nat × Nat)) :
    (s.enqueueOne l part tenant me num k set).nextTid = s.nextTid + 1 := by
  rw [State.enqueueOne_of_single single]

theorem State.enqueueOne_task (s : State) (k j : Nat) (set : Option (Nat × Nat × Nat)) :
    (s.enqueueOne l part tenant me num k set).task j = if j = s.nextTid then some (s.queuedTask l part tenant me num k set) else s.task j := by
  rw [State.enqueueOne_of_single single]
  exact assocGet_assocSet ..

/-- R232: the first n tasks of a launch are queued under the numbers that follow. -/
theorem State.foldl_enqueueOne (s : State) (set : Option (Nat × Nat × Nat)) (n : Nat) :
    let u := (List.range n).foldl (fun s k => s.enqueueOne l part tenant me num k (set.map fun (m, first, count) => (m, first + k, count))) s
    u.nextTid = s.nextTid + n
    ∧ ∀ k < n, ∃ t, u.task (s.nextTid + k) = some t ∧ t.tid = s.nextTid + k ∧ t.state = .queued ∧ t.rcd = l.rcd ∧ t.tco = l.rcd.tcoAt k
        ∧ (t.part, t.tenant, t.inst, t.launch) = (part, tenant, me, num) ∧ t.mset = set.map (·.1) ∧ t.midx = (set.map fun x => x.2.1 + k).getD 0 := by
  induction n with
  | zero => exact ⟨rfl, nofun⟩
  | succ n ih =>
    obtain ⟨next, queued⟩ := ih
    simp only [List.range_succ, List.foldl_append, List.foldl_cons, List.foldl_nil, State.enqueueOne_nextTid single, State.enqueueOne_task single,
      next]
    refine ⟨Nat.add_assoc .., fun k below => ?_⟩
    rcases Nat.lt_succ_iff_lt_or_eq.mp below with before | rfl
    · rw [if_neg (by omega)]
      exact queued k before
    · rw [if_pos rfl]
      refine ⟨_, rfl, next, rfl, rfl, rfl, rfl, ?_, ?_⟩ <;> cases set <;> rfl

end

/-- Settles O42: TASK and TASKD by the cases of a launch, STEP and ENDSTEP by the state of the step, the queue by induction on its tasks. -/
theorem graphLaunches : Obligations.GraphLaunches := by
  refine ⟨?launches, ?steps, fun s l part tenant me num set single => State.foldl_enqueueOne single part tenant me num s set l.rcd.instances⟩
  case launches =>
    intro x mem w s
    rw [exec_launchWords x mem]
    refine ⟨fun misaligned => ?_, fun aligned e unread => ?_, fun aligned bs read =>
      ⟨fun zero => ?_, fun counts => ⟨fun st refused => ?_, fun l passed => ?_⟩⟩⟩
    · rw [State.launch_of_misaligned misaligned]
      exact s.gbad_faults 1
    · rw [State.launch_of_unread aligned unread]
      exact s.gbad_faults _
    · rw [State.launch_of_zero aligned read zero]
      rfl
    · rw [State.launch_of_counts aligned read counts]
      dsimp only
      unfold State.launchRequests State.launchWho
      rw [refused]
      rfl
    · rw [State.launch_of_counts aligned read counts]
      dsimp only
      unfold State.launchRequests State.launchWho
      rw [passed]
      exact congrArg _ (State.launchChecked_of_ok w.gd s.finst (launcher s) l (by simp) (by simp))
  case steps =>
    intro w s
    exact ⟨exec_step_of_open w, exec_step_of_closed w, exec_endstep_of_closed w, fun opened => ⟨fun l own => exec_endstep_of_refused w opened own,
      exec_endstep_of_crowded w opened, exec_endstep_of_room w opened⟩⟩

end Sys2Proof.Machine
end

section
/-! PROOF. A task from its lease to its load (R235, R236, R242 to R245, R303, R390, R482). -/
namespace Sys2Proof.Machine

/-! Leases (R235, R303). -/

/-- The entries of a task's window table, read if they are not there yet (R231, R303). -/
def State.winsOf (s : State) (t : Task) : List WinEntry :=
  if t.wins.length = t.rcd.wcount ∨ t.rcd.wtab = 0 then t.wins
  else ((s.readWins (pintleWho t.part t.tenant (t.home.getD t.die)) t.rcd).toOption.join).getD []

section
variable {s : State} {tid : Nat} {t : Task} (ev : s.focus.ev = .leaseResident tid) (filed : s.task tid = some t)
include ev filed

theorem exec_leaseResident_of_done (done : t.state ≠ .leaseWait ∨ t.leaseOk = true ∨ t.leaseFault.isSome = true) :
    exec .vLeaseResident s = .next s := by
  change execVLeaseResident s = _
  simp only [execVLeaseResident, ev, filed, done, if_true]

variable (waits : t.state = .leaseWait) (unknown : t.leaseOk = false) (clean : t.leaseFault = none)
include waits unknown clean

omit ev filed in
theorem leaseResident_due : ¬ (t.state ≠ .leaseWait ∨ t.leaseOk = true ∨ t.leaseFault.isSome = true) := by
  simp [waits, unknown, clean]

theorem exec_leaseResident_of_resident {es : List (Nat × TlbE)}
    (resident : s.residence t.part t.tenant (t.home.getD t.die) t.rcd.lbase t.rcd.lsize.toNat = .ok es) :
    let s1 := if s.winsOf t = t.wins then s
      else s.ctxTouch (pintleWho t.part t.tenant (t.home.getD t.die)) .record t.rcd.wtab (72 * t.rcd.wcount)
    let ws := s.windowPages { t with wins := s.winsOf t } es
    exec .vLeaseResident s = .next ((s1.pin ws).modTask tid fun u =>
      { u with leaseOk := true, wins := s.winsOf t, pins := ws.map fun x => pinKey x.1 x.2.part x.2.tenant x.2.vpn }) := by
  unfold State.winsOf
  change execVLeaseResident s = _
  simp only [execVLeaseResident, ev, filed, leaseResident_due waits unknown clean, if_false, resident]
  split <;> rfl

theorem exec_leaseResident_of_refused {st : Nat}
    (refused : s.residence t.part t.tenant (t.home.getD t.die) t.rcd.lbase t.rcd.lsize.toNat = .error st) :
    exec .vLeaseResident s = .next (if s.graphLease t then s.modTask tid fun t => { t with leaseOk := true }
      else (s.modTask tid fun t => { t with leaseFault := some st }).leaseReport t.part t.tenant tid st) := by
  change execVLeaseResident s = _
  simp only [execVLeaseResident, ev, filed, leaseResident_due waits unknown clean, if_false, refused]
  exact (apply_ite Host.Outcome.next _ _ _).symm

end

/-! The image check (R482, R390). -/

/-- May the image of a task be checked: it is selected again, or its lease is resident? -/
def Task.checkable (t : Task) : Prop := t.state = .saved ∨ (t.state = .leaseWait ∧ t.leaseOk = true)

/-- Does another selection unit of the tenant's level stand in page-wait (R238)? -/
def State.fullPageWait (s : State) (t : Task) (tid : Nat) : Prop :=
  ∃ u ∈ s.tasks, u.2.part = t.part ∧ u.2.inst.die = t.inst.die ∧ u.2.level = t.level ∧ u.2.tenant = t.tenant ∧ u.2.state = .pageWait
    ∧ (t.mset = none ∨ u.2.mset ≠ t.mset) ∧ u.2.dual ≠ some tid

theorem State.any_fullPageWait_iff (s : State) (t : Task) (tid : Nat) :
    (s.tasks.any fun u => decide (u.2.part = t.part ∧ u.2.inst.die = t.inst.die ∧ u.2.level = t.level ∧ u.2.tenant = t.tenant ∧ u.2.state = .pageWait
      ∧ (t.mset = none ∨ u.2.mset ≠ t.mset) ∧ u.2.dual ≠ some tid)) = true ↔ s.fullPageWait t tid := by
  simp only [List.any_eq_true, decide_eq_true_eq, State.fullPageWait]

/-- The state after the requests for the bytes of a task's image (R345). -/
def State.imageRequests (s : State) (t : Task) (bs : List Byte) : State :=
  s.ctxTouch (pintleWho t.part t.tenant (t.home.getD t.die)) .fetch t.rcd.config bs.length

section
variable {s : State} {tid : Nat} {t : Task} (ev : s.focus.ev = .imageCheck tid) (filed : s.task tid = some t)
include ev filed

theorem exec_imageCheck_of_waiting (waits : ¬ t.checkable ∨ t.trap.isSome = true ∨ s.fullPageWait t tid) : exec .vImageCheck s = .next s := by
  rw [Task.checkable, ← State.any_fullPageWait_iff] at waits
  change execVImageCheck s = _
  simp only [execVImageCheck, ev, filed]
  exact if_pos waits

variable (ready : t.checkable) (clean : t.trap = none) (room : ¬ s.fullPageWait t tid)
include ready clean room

omit ev filed in
theorem imageCheck_due : ¬ (¬ (t.state = .saved ∨ (t.state = .leaseWait ∧ t.leaseOk = true)) ∨ t.trap.isSome = true ∨
    (s.tasks.any fun u => decide (u.2.part = t.part ∧ u.2.inst.die = t.inst.die ∧ u.2.level = t.level ∧ u.2.tenant = t.tenant ∧ u.2.state = .pageWait
      ∧ (t.mset = none ∨ u.2.mset ≠ t.mset) ∧ u.2.dual ≠ some tid)) = true) := by
  rw [State.any_fullPageWait_iff]
  exact not_or.mpr ⟨fun other => other ready, not_or.mpr ⟨by simp [clean], room⟩⟩

/-- R390: an image that an error of the memory spoils traps the task. -/
theorem exec_imageCheck_of_spoiled (spoiled : s.readImage t = .error dIntegrity) : exec .vImageCheck s = .next (s.postTrap t
    { cause := { cls := 2, code := 7, core := 0xFF, flags := 8, addr := s.resolve (t.home.getD t.die) t.rcd.config }, tid := t.tid
      ctag := 16 * t.part + t.tenant, tco := t.tco, cycle := s.cycle }) := by
  change execVImageCheck s = _
  simp only [execVImageCheck, ev, filed, spoiled]
  exact if_neg (imageCheck_due ready clean room)

theorem exec_imageCheck_of_unread {d : Deny} (unread : s.readImage t = .error d) (sound : d ≠ dIntegrity) :
    exec .vImageCheck s = .next (s.refuseLoad t { reason := 0x12 }) := by
  change execVImageCheck s = _
  simp only [execVImageCheck, ev, filed, unread, sound, if_false]
  exact if_neg (imageCheck_due ready clean room)

variable {bs : List Byte} (read : s.readImage t = .ok bs)
include read

theorem exec_imageCheck_of_refused {r : Refuse} (refused : s.checkImage t.part bs = .error r) :
    exec .vImageCheck s = .next ((s.imageRequests t bs).refuseLoad t r) := by
  change execVImageCheck s = _
  simp only [execVImageCheck, ev, filed, read, refused]
  exact if_neg (imageCheck_due ready clean room)

variable {m : Img} {e : LibE} (checked : s.checkImage t.part bs = .ok (m, e))
include checked

theorem exec_imageCheck_of_bad_windows {r : Refuse} (refused : t.winRefuse m = some r) :
    exec .vImageCheck s = .next ((s.imageRequests t bs).refuseLoad t r) := by
  change execVImageCheck s = _
  simp only [execVImageCheck, ev, filed, read, checked, refused]
  exact if_neg (imageCheck_due ready clean room)

theorem exec_imageCheck_of_passed (passed : t.winRefuse m = none) :
    exec .vImageCheck s = .next ((s.imageRequests t bs).modTask tid fun u =>
      { u with state := .pageWait, memSince := s.cycle, npages := m.pages.length
               img := { bytes := bs, signer := e.signer, folded := u.img.folded && u.restore } }) := by
  change execVImageCheck s = _
  simp only [execVImageCheck, ev, filed, read, checked, passed]
  exact if_neg (imageCheck_due ready clean room)

end

/-! Placement (R243, R245). -/

section
variable {s : State} {tid : Nat} {t : Task} (ev : s.focus.ev = .regionPlace tid) (filed : s.task tid = some t)
include ev filed

theorem exec_regionPlace_of_waiting (waits : t.state ≠ .pageWait ∨ ∃ u ∈ s.gang t, u.state ≠ .pageWait) : exec .vRegionPlace s = .next s := by
  have waits : t.state ≠ .pageWait ∨ ((s.gang t).all fun u => decide (u.state = .pageWait)) = false := by simpa using waits
  change execVRegionPlace s = _
  simp only [execVRegionPlace, ev, filed]
  exact if_pos waits

variable (ready : t.state = .pageWait) (gang : ∀ u ∈ s.gang t, u.state = .pageWait)
include ready gang

omit ev filed in
theorem regionPlace_due : ¬ (t.state ≠ .pageWait ∨ ((s.gang t).all fun u => decide (u.state = .pageWait)) = false) := by
  simpa [ready] using gang

theorem exec_regionPlace_of_placed {l : List (Task × Bool × List Nat × List Nat × Option (Nat × Nat))}
    (placed : s.placeAll false (s.gang t) [] [] = some l) : exec .vRegionPlace s = .next (s.startLoad l) := by
  change execVRegionPlace s = _
  simp only [execVRegionPlace, ev, filed, placed]
  exact if_neg (regionPlace_due ready gang)

variable (unplaced : s.placeAll false (s.gang t) [] [] = none)
include unplaced

theorem exec_regionPlace_of_compacting (busy : s.compacting t.part = true) : exec .vRegionPlace s = .next s := by
  change execVRegionPlace s = _
  simp only [execVRegionPlace, ev, filed, unplaced, busy, if_true]
  exact if_neg (regionPlace_due ready gang)

variable (idle : s.compacting t.part = false)
include idle

theorem exec_regionPlace_of_compactable (moves : s.compactable t (s.gang t) ≠ []) :
    exec .vRegionPlace s = .next ((s.compactable t (s.gang t)).foldl (fun s u => s.later (.event (.preemptRequest u.tid 2)))
      (s.modPart t.part fun x => { x with compacted := some s.cycle })) := by
  obtain ⟨u, us, movers⟩ := List.exists_cons_of_ne_nil moves
  change execVRegionPlace s = _
  simp only [execVRegionPlace, ev, filed, unplaced, idle, movers, Bool.false_eq_true, if_false]
  exact if_neg (regionPlace_due ready gang)

variable (still : s.compactable t (s.gang t) = [])
include still

theorem exec_regionPlace_of_folded {l : List (Task × Bool × List Nat × List Nat × Option (Nat × Nat))}
    (folded : s.placeAll true (s.gang t) [] [] = some l) : exec .vRegionPlace s = .next (s.startLoad l) := by
  change execVRegionPlace s = _
  simp only [execVRegionPlace, ev, filed, unplaced, idle, still, folded, Bool.false_eq_true, if_false]
  exact if_neg (regionPlace_due ready gang)

theorem exec_regionPlace_of_stuck (stuck : s.placeAll true (s.gang t) [] [] = none) : exec .vRegionPlace s = .next s := by
  change execVRegionPlace s = _
  simp only [execVRegionPlace, ev, filed, unplaced, idle, still, stuck, Bool.false_eq_true, if_false]
  exact if_neg (regionPlace_due ready gang)

end

/-! The time of a load (R236). -/

/-- The pages that a load writes: all of a restored task's, else those that do not hold their record still (R236, R383). -/
def State.freshPages (s : State) (x : Task × Bool × List Nat) : List Nat :=
  (x.2.2.zipIdx.filter fun y => x.1.restore || !s.written x.1 x.2.1 y.2 y.1).map (·.1)

/-- How many pages of a die the loads of placed tasks write. -/
def State.freshOn (s : State) (l : List (Task × Bool × List Nat)) (d : Nat) : Nat :=
  ((l.flatMap s.freshPages).filter fun p => decide (p / 40 = d)).length

theorem State.freshPages_of_unwritten {s : State} {x : Task × Bool × List Nat}
    (unwritten : x.1.restore = true ∨ ∀ y ∈ x.2.2.zipIdx, s.written x.1 x.2.1 y.2 y.1 = false) : s.freshPages x = x.2.2 := by
  have all : (x.2.2.zipIdx.filter fun y => x.1.restore || !s.written x.1 x.2.1 y.2 y.1) = x.2.2.zipIdx :=
    List.filter_eq_self.mpr fun y mem => unwritten.elim (fun r => by simp [r]) fun w => by simp [w y mem]
  rw [State.freshPages, all, List.zipIdx_map_fst]

theorem le_foldl_max {α : Type} (f : α → Nat) (l : List α) (m : Nat) :
    m ≤ l.foldl (fun m a => max m (f a)) m ∧ ∀ a ∈ l, f a ≤ l.foldl (fun m a => max m (f a)) m := by
  induction l generalizing m with
  | nil => exact ⟨Nat.le_refl m, nofun⟩
  | cons b r ih =>
    obtain ⟨low, mem⟩ := ih (max m (f b))
    exact ⟨Nat.le_trans (Nat.le_max_left ..) low, List.forall_mem_cons.mpr ⟨Nat.le_trans (Nat.le_max_right ..) low, mem⟩⟩

/-- R236: the pages of one task on a die are written four at a time in 3,200 cycles. -/
theorem State.le_loadTime {s : State} {l : List (Task × Bool × List Nat)} {d : Nat} (die : d < 4) {x : Task × Bool × List Nat} (mem : x ∈ l)
    (there : ∀ p ∈ x.2.2, p / 40 = d) (unwritten : x.1.restore = true ∨ ∀ y ∈ x.2.2.zipIdx, s.written x.1 x.2.1 y.2 y.1 = false) :
    3200 * ((x.2.2.length + 3) / 4) ≤ s.loadTime l := by
  have part_of : x.2.2.length ≤ s.freshOn l d := by
    have part : x.2.2.Sublist (l.flatMap s.freshPages) := by
      rw [List.flatMap_def]
      exact List.sublist_flatten_of_mem (List.mem_map.mpr ⟨x, mem, State.freshPages_of_unwritten unwritten⟩)
    have kept := part.filter fun p => decide (p / 40 = d)
    rw [List.filter_eq_self.mpr fun p held => decide_eq_true (there p held)] at kept
    exact kept.length_le
  have slow := (le_foldl_max (s.freshOn l) (List.range 4) 0).2 d (List.mem_range.mpr die)
  have time : 3200 * (((List.range 4).foldl (fun m d => max m (s.freshOn l d)) 0 + 3) / 4) ≤ s.loadTime l := Nat.le_add_right ..
  omega

/-! The pages of a placement (R243, R244). -/

/-- A row of pages of a list whose links meet their delays, from the page before its first (R243). -/
theorem placeRest_eq_some {d : Nat} {order delays : List Nat} {prev : Nat} {free ps : List Nat}
    (found : placeRest d order delays prev free = some ps) :
    ps.length = delays.length ∧ (∀ p ∈ ps, p ∈ free) ∧ ∀ i < ps.length, natural ((prev :: ps).getD i 0) (ps.getD i 0) ≤ delays.getD i 0 := by
  induction delays generalizing prev free ps with
  | nil =>
    obtain rfl := Option.some.inj found
    exact ⟨rfl, nofun, nofun⟩
  | cons dl ds ih =>
    unfold placeRest at found
    dsimp only at found
    split at found
    · cases found
    · next p first =>
      obtain ⟨r, rest, rfl⟩ := Option.map_eq_some_iff.mp found
      obtain ⟨length, inside, links⟩ := ih rest
      have first := List.find?_some first
      simp only [Bool.and_eq_true, List.contains_iff_mem, decide_eq_true_eq] at first
      obtain ⟨here, meets⟩ := first
      refine ⟨congrArg (· + 1) length, List.forall_mem_cons.mpr ⟨here, fun q mem => List.mem_of_mem_erase (inside q mem)⟩, fun i bound => ?_⟩
      cases i with
      | zero => exact meets
      | succ i => exact links i (Nat.lt_of_succ_lt_succ bound)

/-- What R243 asks of the pages of a region, out of all pages that it takes. -/
def State.MeetsLinks (s : State) (links ps all : List Nat) : Prop :=
  ps.length = links.length ∧ (∀ p ∈ ps, s.pageFree p = true ∧ p ∈ all)
    ∧ ∀ i, i + 1 < ps.length → natural (ps.getD i 0) (ps.getD (i + 1) 0) ≤ links.getD (i + 1) 0

section
variable {s : State} {d : Nat} {links free : List Nat} (unowned : ∀ p ∈ free, s.pageFree p = true)
include unowned

theorem State.meetsLinks_of_row {order : List Nat} {p : Nat} {r : List Nat} (nonempty : links ≠ []) (first : p ∈ free)
    (rest : placeRest d order (links.drop 1) p (free.erase p) = some r) : s.MeetsLinks links (p :: r) (p :: r) := by
  obtain ⟨length, inside, meets⟩ := placeRest_eq_some rest
  have long := List.length_pos_iff.mpr nonempty
  refine ⟨?_, fun q mem => ⟨unowned q ?_, mem⟩, fun i bound => ?_⟩
  · rw [List.length_cons, length, List.length_drop]
    omega
  · exact (List.mem_cons.mp mem).elim (fun same => same ▸ first) fun later => List.mem_of_mem_erase (inside q later)
  · have meets := meets i (Nat.lt_of_succ_lt_succ bound)
    rwa [List.getD_eq_getElem?_getD (l := links.drop 1), List.getElem?_drop, ← List.getD_eq_getElem?_getD, Nat.add_comm 1 i] at meets

/-- Whole clusters hold as many pages as the region has, all of them free (R244). -/
theorem State.meetsLinks_of_clusters {clusters : List Nat} (count : clusters.length = (links.length + 3) / 4)
    (whole : ∀ c ∈ clusters, (clusterPages d c).all free.contains = true) :
    let all := clusters.flatMap (clusterPages d)
    (all.take links.length).length = links.length ∧ ∀ p ∈ all.take links.length, s.pageFree p = true ∧ p ∈ all := by
  have pages : (clusters.flatMap (clusterPages d)).length = 4 * clusters.length := by
    simp only [List.length_flatMap, clusterPages, List.length_map, List.length_range, List.map_const', List.sum_replicate_nat, Nat.mul_comm]
  refine ⟨by rw [List.length_take, pages, count]; omega, fun p mem => ?_⟩
  have mem := List.mem_of_mem_take mem
  obtain ⟨c, cluster, held⟩ := List.mem_flatMap.mp mem
  exact ⟨unowned p (List.contains_iff_mem.mp (List.all_eq_true.mp (whole c cluster) p held)), mem⟩

end

theorem State.findPlace_meetsLinks {s : State} {t : Task} {links : List Nat} {taken : List (Nat × Nat)} {ps all : List Nat} (nonempty : links ≠ [])
    (found : s.findPlace t links taken = some (ps, all)) : s.MeetsLinks links ps all := by
  unfold State.findPlace at found
  dsimp only at found
  generalize hc : List.filter _ ((ringOrder (homeCluster t.tco)).filter (s.ownsCluster t.part t.die)) = clusters at found
  generalize hf : ((clusters.flatMap (clusterPages t.die)).filter fun p => s.pageFree p && !taken.any fun x => decide (x.2 = p)) = free at found
  have unowned : ∀ p ∈ free, s.pageFree p = true := fun p mem => by
    have held := (List.mem_filter.mp (hf ▸ mem)).2
    exact (Bool.and_eq_true_iff.mp held).1
  split at found
  · split at found
    · cases found
    · next enough =>
      split at found
      · next meets =>
        obtain ⟨rfl, rfl⟩ := Prod.mk.inj (Option.some.inj found)
        have count := List.length_take_of_le (Nat.le_of_not_lt enough)
        obtain ⟨length, inside⟩ := State.meetsLinks_of_clusters unowned count fun c mem => (List.mem_filter.mp (List.mem_of_mem_take mem)).2
        refine ⟨length, inside, fun i bound => ?_⟩
        exact of_decide_eq_true (List.all_eq_true.mp meets i (List.mem_range.mpr (by omega)))
      · cases found
  · obtain ⟨c, -, found⟩ := List.exists_of_findSome?_eq_some found
    split at found
    · cases found
    · next p first =>
      obtain ⟨r, rest, same⟩ := Option.map_eq_some_iff.mp found
      obtain ⟨rfl, rfl⟩ := Prod.mk.inj same
      exact State.meetsLinks_of_row unowned nonempty (by simpa using List.find?_some first) rest

/-! The load of a configuration (R236). -/

/-- Bits 1:0, 9:2, 12:10 and 63:32 of seqst are zero in a page that has run no kernel and no loop (R166). -/
theorem Page.seqst_eq_zero {pg : Page} (kend : pg.kend = 0) (kport : pg.kport = 0) (rep : pg.rep = []) (user : pg.user = 0) : pg.seqst = 0 := by
  simp [Page.seqst, kend, kport, rep, user]

/-- A loaded page belongs to its task, and its sequencer stands at its start. -/
theorem State.loadPage_page (s : State) (t : Task) (m : Img) (rp p : Nat) :
    let pg := (s.loadPage t m rp p).page p
    pg.owner = some t.tid ∧ pg.rp = rp ∧ pg.pc = 0 ∧ pg.x = List.replicate 16 0 ++ t.rcd.param ∧ pg.tid = BitVec.ofNat 32 t.tid ∧ pg.tco = t.tco
      ∧ pg.pdl = t.rcd.pdl ∧ pg.sstep = 0 ∧ pg.seqst = 0 ∧ pg.running = true := by
  simp only [State.loadPage, State.page_modPage_self]
  exact ⟨rfl, rfl, rfl, rfl, rfl, rfl, rfl, rfl, Page.seqst_eq_zero rfl rfl rfl rfl, rfl⟩

/-- R236: CONFIG_LOAD waits for its cycle. -/
theorem exec_configLoad_of_waiting {s : State} {tid due : Nat} {t : Task} {m : Img} (ev : s.focus.ev = .configLoad tid) (filed : s.task tid = some t)
    (done : t.loadDone = some due) (parsed : parseImg t.img.bytes = .ok m) (waits : t.state ≠ .loading ∨ t.restore = true ∨ s.cycle < due) :
    exec .vConfigLoad s = .next s := by
  change execVConfigLoad s = _
  simp only [execVConfigLoad, ev, filed, done, parsed]
  exact if_pos waits

end Sys2Proof.Machine
end

section
/-! PROOF. The end of a task (R246), and the states that a task passes through (R234). -/
namespace Sys2Proof.Machine

/-! Who holds which pages. -/

/-- Two states in which every task holds the same pages. -/
structure State.SameHolders (s t : State) : Prop where
  held : ∀ n, t.heldPages n = s.heldPages n

namespace State.SameHolders

theorem of_pages {s t : State} (pages : t.pages = s.pages) : s.SameHolders t := ⟨fun n => by simp only [State.heldPages, pages]⟩

theorem refl (s : State) : s.SameHolders s := of_pages rfl

theorem trans {s t u : State} (h : s.SameHolders t) (k : t.SameHolders u) : s.SameHolders u := ⟨fun n => (k.held n).trans (h.held n)⟩

theorem foldl {α : Type} {f : State → α → State} (l : List α) (hf : ∀ s x, State.SameHolders s (f s x)) (s : State) : s.SameHolders (l.foldl f s) :=
  List.foldlRecOn l f (refl s) fun _ h x _ => h.trans (hf _ x)

/-- A key that takes the value of another one with the same owner counts for the same tasks. -/
theorem filter_assocSet (n : Nat) (l : List (Nat × Page)) (p : Nat) (pg : Page) (same : pg.owner = ((assocGet l p).getD {}).owner) :
    (((assocSet l p pg).filter fun x => decide (x.2.owner = some n)).map (·.1)) = ((l.filter fun x => decide (x.2.owner = some n)).map (·.1)) := by
  induction l with
  | nil => simp [assocSet, same, assocGet]
  | cons c r ih =>
    obtain ⟨k, old⟩ := c
    rw [assocGet] at same
    rw [assocSet]
    by_cases before : p < k
    · have empty : pg.owner = none := by simpa [before, (Nat.ne_of_lt before).symm] using same
      rw [if_pos before, List.filter_cons_of_neg (by simp [empty])]
    · rw [if_neg before]
      by_cases here : k = p
      · rw [if_pos here] at same ⊢
        simp only [List.filter_cons, show pg.owner = old.owner from same]
        split <;> simp [here]
      · rw [if_neg here] at same ⊢
        rw [if_neg before] at same
        simp only [List.filter_cons]
        split <;> simp only [List.map_cons, ih same]

theorem modPage (s : State) (p : Nat) {f : Page → Page} (keeps : ∀ pg, (f pg).owner = pg.owner) : s.SameHolders (s.modPage p f) :=
  ⟨fun n => filter_assocSet n s.pages p _ (keeps (s.page p))⟩

theorem modDie (s : State) (d : Nat) (f : Die → Die) : s.SameHolders (s.modDie d f) := of_pages rfl

theorem modPart (s : State) (n : Nat) (f : Part → Part) : s.SameHolders (s.modPart n f) := of_pages rfl

theorem modTask (s : State) (n : Nat) (f : Task → Task) : s.SameHolders (s.modTask n f) := of_pages (by simp)

/-! What a commit does besides its scratchpads. -/

theorem addSector {s t : State} {v : VSect} (h : s.addSector v = some t) : s.SameHolders t := by
  unfold State.addSector at h
  dsimp only at h
  split at h
  · obtain rfl := Option.some.inj h
    exact of_pages rfl
  · split at h
    · obtain rfl := Option.some.inj h
      exact of_pages rfl
    · cases h

theorem needSnapshot (s : State) (part d k : Nat) (not : List Nat) : s.SameHolders (s.needSnapshot part d k not).1 := by
  unfold State.needSnapshot
  split
  · exact refl s
  · split
    · next h => exact addSector h
    · refine foldl _ (fun s t => ?_) s
      split
      · exact of_pages (by simp [State.countVofl])
      · exact modTask ..

theorem needSnapshots (s : State) (part d : Nat) (pas not : List Nat) : s.SameHolders (s.needSnapshots part d pas not).1 :=
  List.foldlRecOn (motive := fun x : State × Bool => s.SameHolders x.1) _ _ (refl s) fun _ h x _ => h.trans (needSnapshot _ part d x not)

theorem tamper (s : State) (d : Nat) (pas : List Nat) : s.SameHolders (s.tamper d pas) := by
  unfold State.tamper
  split <;> exact of_pages rfl

theorem mend (s : State) (d : Nat) (bs : List (Nat × Byte)) : s.SameHolders (s.mend d bs) := by
  unfold State.mend
  split <;> exact of_pages rfl

theorem putCmpLine (s : State) (d i : Nat) (r : BitVec 320) (line : Nat) (bs : List Byte) : s.SameHolders (s.putCmpLine d i r line bs) := by
  unfold State.putCmpLine
  exact of_pages rfl

theorem putBytes (s : State) (d : Nat) (bs : List (Nat × Byte)) : s.SameHolders (s.putBytes d bs) := by
  unfold State.putBytes
  refine trans ?_ (foldl _ (fun s x => ?_) _)
  · exact of_pages rfl
  · exact putCmpLine s d x.1 x.2.1 x.2.2 _

theorem unveilPage (s : State) (d key tid i gen : Nat) : s.SameHolders (s.unveilPage d key tid i gen) := by
  unfold State.unveilPage
  refine trans ?_ (putBytes _ d _)
  exact of_pages rfl

theorem unveil (s : State) (d : Nat) (pas : List Nat) : s.SameHolders (s.unveil d pas) := by
  unfold State.unveil
  refine foldl _ (fun s x => ?_) s
  obtain ⟨key, tid, i, gen⟩ := x
  exact unveilPage s d key tid i gen

theorem store (s : State) (d : Nat) (bs : List (Nat × Byte)) : s.SameHolders (s.store d bs) :=
  ((mend s d bs).trans (unveil _ d _)).trans (putBytes _ d bs)

/-- The bytes of HBM are no part of it. -/
theorem setHbm {s t : State} (h : s.SameHolders t) (m : List Host.Cell) : s.SameHolders { t with hbm := m } := h.trans (of_pages rfl)

theorem logDirty (s : State) (part d page : Nat) (ks : List Nat) : s.SameHolders (s.logDirty part d page ks) := by
  unfold State.logDirty
  dsimp only
  split
  · refine trans (setHbm (trans ?_ (unveil _ _ _)) _) (modPart _ _ _)
    split
    · exact refl s
    · exact setHbm (unveil s _ _) _
  · exact refl s

theorem snapshot (s : State) (part d : Nat) (pas not : List Nat) : s.SameHolders (s.snapshot part d pas not) := of_pages rfl

theorem commitBytes (s : State) (part d : Nat) (bs : List (Nat × Byte)) (not : List Nat) : s.SameHolders (s.commitBytes part d bs not) := by
  unfold State.commitBytes
  dsimp only
  refine trans ?_ (foldl _ (fun s pg => (logDirty s part d pg _).trans (modDie _ d _)) _)
  exact (((needSnapshots s part d _ not).trans (snapshot ..)).trans (tamper ..)).trans (store ..)

/-! The scratchpads of a commit, and a commit. -/

theorem modTaskPage (s : State) (t : Task) (rp : Nat) {f : Page → Page} (keeps : ∀ pg, (f pg).owner = pg.owner) :
    s.SameHolders (s.modTaskPage t rp f) := by
  unfold State.modTaskPage
  split
  · exact modPage s _ keeps
  · exact modTask ..

theorem mendWords (s : State) (p c : Nat) (offs : List Nat) : s.SameHolders (s.mendWords p c offs) := by
  unfold State.mendWords
  split <;> exact of_pages rfl

theorem applyScratch (s : State) (t : Task) (cs : List VCell) : s.SameHolders (s.applyScratch t cs) := by
  unfold State.applyScratch
  dsimp only
  refine ((foldl _ (fun s w => ?_) s).trans (foldl _ (fun s rp => ?_) _)).trans (modPart ..)
  · split
    · exact modTaskPage _ _ _ fun _ => rfl
    · exact refl s
  · split
    · exact refl s
    · exact foldl _ (fun s c => mendWords ..) s

theorem setFree {s t : State} (h : s.SameHolders t) (n : Nat) : s.SameHolders { t with free := n } := h.trans (of_pages rfl)

theorem peerCommit (s : State) (c va : Nat) (bs : List Byte) (not : List Nat) : s.SameHolders (s.peerCommit c va bs not) := of_pages rfl

theorem setSent {s t : State} (h : s.SameHolders t) (l : List (Nat × Nat × Nat)) : s.SameHolders { t with sent := l } := h.trans (of_pages rfl)

theorem commit (s : State) (part : Nat) (ts : List Task) (ends : List Nat) : s.SameHolders (s.commit part ts ends) := by
  unfold State.commit
  dsimp only
  refine trans ?_ (modPart _ part _)
  refine trans ?_ (foldl ts (fun s t => setSent (modTask s t.tid _) _) _)
  refine trans ?_ (foldl _ (fun s w => ?_) _)
  · refine trans (setFree (foldl ts (fun s t => applyScratch s t _) s) _) (foldl _ (fun s d => ?_) _)
    split
    · exact refl s
    · exact commitBytes s part d _ ends
  · split
    · exact peerCommit ..
    · exact refl s

theorem emptyL1s (s : State) (t : Task) : s.SameHolders (s.emptyL1s t) := by
  unfold State.emptyL1s
  refine foldl _ (fun s p => ?_) s
  exact modPage s p fun _ => rfl

theorem charge (s : State) (t : Task) : s.SameHolders (s.charge t) := (modPart ..).trans (modTask ..)

end State.SameHolders

/-! What an ended task gives up (R246). -/

theorem State.owner_foldl_modPage {f : Nat → Page → Page} (frees : ∀ p pg, (f p pg).owner = none) {ps : List Nat} {p : Nat} {s : State}
    (reached : p ∈ ps ∨ (s.page p).owner = none) : ((ps.foldl (fun s p => s.modPage p (f p)) s).page p).owner = none := by
  induction ps generalizing s with
  | nil => exact reached.resolve_left nofun
  | cons q r ih =>
    refine ih ?_
    by_cases here : p = q
    · subst here
      exact .inr (by rw [State.page_modPage_self, frees])
    · rw [State.page_modPage_ne s (f q) here]
      exact reached.imp_left fun mem => (List.mem_cons.mp mem).resolve_left here

theorem State.page_countEnd (s : State) (t : Task) (bad : Bool) (p : Nat) : (s.countEnd t bad).page p = s.page p := by
  unfold State.countEnd
  split <;> rfl

theorem State.page_dropSectors (s : State) (part : Nat) (ends : List Nat) (p : Nat) : (s.dropSectors part ends).page p = s.page p := rfl

theorem State.countEnd_tasks (s : State) (t : Task) (bad : Bool) : (s.countEnd t bad).tasks = s.tasks := by
  unfold State.countEnd
  split <;> rfl

/-- R246: an ended task is filed as ended. -/
theorem State.task_release1 (s : State) (t : Task) (bad : Bool) :
    ∃ w, (s.release1 t bad).task t.tid = some w ∧ w.state = .ended ∧ w.endTrap = bad := by
  unfold State.release1
  dsimp only
  rw [State.task, State.countEnd_tasks]
  exact ⟨_, assocGet_assocSet_self .., rfl, rfl⟩

/-- R246: a task that ends gives up its pages. -/
theorem State.owner_release1 (s : State) (t : Task) (bad : Bool) {p : Nat} (mem : p ∈ s.heldPages t.tid) :
    ((s.release1 t bad).page p).owner = none := by
  unfold State.release1
  dsimp only
  generalize hs1 : (if t.state = .running ∨ t.state = .ending ∨ t.state = .loading then s.charge t else s) = s1
  have charged : s.SameHolders s1 := by
    rw [← hs1]
    split
    · exact .charge s t
    · exact .refl s
  have released : s1.SameHolders (t.claims.foldl (fun s x => s.release x.1 x.2) (s1.dropWaits t.tid t.part)) := by
    refine (State.SameHolders.modPart s1 t.part _).trans (.foldl _ (fun s x => ?_) _)
    exact .modDie s x.1 _
  rw [State.page_countEnd, State.page_dropSectors, State.page_setTask]
  refine State.owner_foldl_modPage ?_ (.inl ?_)
  · exact fun _ _ => rfl
  · exact (charged.trans released).held t.tid ▸ mem

/-! The end of a task (R246). -/

section
variable {s : State} {tid : Nat} {t : Task} (ev : s.focus.ev = .taskEnd tid) (filed : s.task tid = some t)
include ev filed

theorem exec_taskEnd_of_end (ends : s.canEnd t = true) : exec .vTaskEnd s = .next (s.modTask tid fun t => { t with state := .ending }) := by
  change execVTaskEnd s = _
  simp only [execVTaskEnd, ev, filed, ends, if_true]

theorem exec_taskEnd_of_waiting (goes : s.canEnd t = false) (waits : t.state ≠ .ending ∨ s.cutOff t = true) : exec .vTaskEnd s = .next s := by
  change execVTaskEnd s = _
  simp only [execVTaskEnd, ev, filed, goes, waits, Bool.false_eq_true, if_false, if_true]

theorem exec_taskEnd_of_ending (ending : t.state = .ending) (routed : s.cutOff t = false) (alone : t.dual = none) :
    exec .vTaskEnd s = .next (s.endCommit t [t.tid] fun s => s.release1 t false) := by
  have halted : s.canEnd t = false := by simp [State.canEnd, ending]
  have partner : s.partner t = none := by simp only [State.partner, alone]
  change execVTaskEnd s = _
  simp [execVTaskEnd, ev, filed, halted, ending, routed, partner]

end

/-- The state of a task's commit once it has committed alone (R246). -/
def State.committedEnd (s : State) (t : Task) : State := ((s.commit t.part [t] [t.tid]).emptyL1s t).takeSeals t.part [t]

theorem State.heldPages_committedEnd (s : State) (t : Task) (n : Nat) : (s.committedEnd t).heldPages n = s.heldPages n :=
  (((State.SameHolders.commit s t.part [t] [t.tid]).trans (.emptyL1s _ t)).trans (.modPart _ t.part _)).held n

/-- Settles O38: each event by the cases of its meaning, with what a placement's pages, a load's time and a loaded page are. -/
theorem tasksPassThroughTheirStates : Obligations.TasksPassThroughTheirStates := by
  refine ⟨?lease, ?image, ?place, fun s l d die x mem => State.le_loadTime die mem, fun s t links taken ps all => State.findPlace_meetsLinks, ?load,
    State.loadPage_page, ?ends⟩
  case lease =>
    intro s tid t ev filed
    exact ⟨exec_leaseResident_of_done ev filed, fun waits unknown clean => ⟨fun es => exec_leaseResident_of_resident ev filed waits unknown clean,
      fun st => exec_leaseResident_of_refused ev filed waits unknown clean⟩⟩
  case image =>
    intro s tid t ev filed
    exact ⟨exec_imageCheck_of_waiting ev filed, fun ready clean room => ⟨exec_imageCheck_of_spoiled ev filed ready clean room,
      fun d => exec_imageCheck_of_unread ev filed ready clean room, fun bs read => ⟨
        fun r => exec_imageCheck_of_refused ev filed ready clean room read,
        fun m e checked => ⟨fun r => exec_imageCheck_of_bad_windows ev filed ready clean room read checked,
          exec_imageCheck_of_passed ev filed ready clean room read checked⟩⟩⟩⟩
  case place =>
    intro s tid t ev filed
    exact ⟨exec_regionPlace_of_waiting ev filed, fun ready gang => ⟨fun l => exec_regionPlace_of_placed ev filed ready gang, fun unplaced =>
      ⟨exec_regionPlace_of_compacting ev filed ready gang unplaced, fun idle => ⟨exec_regionPlace_of_compactable ev filed ready gang unplaced idle,
        fun still => ⟨fun l => exec_regionPlace_of_folded ev filed ready gang unplaced idle still,
          exec_regionPlace_of_stuck ev filed ready gang unplaced idle still⟩⟩⟩⟩⟩
  case load =>
    intro s tid due t m ev filed done parsed
    refine ⟨exec_configLoad_of_waiting ev filed done parsed, fun loading fresh now => ?_⟩
    have starts : ¬ (t.state ≠ .loading ∨ t.restore = true ∨ s.cycle < due) := by simpa [loading, fresh] using now
    change execVConfigLoad s = _
    simp only [execVConfigLoad, ev, filed, done, parsed]
    exact if_neg starts
  case ends =>
    intro s tid t ev filed
    refine ⟨exec_taskEnd_of_end ev filed, exec_taskEnd_of_waiting ev filed, fun same ending routed alone => ?_⟩
    subst same
    have answer := exec_taskEnd_of_ending ev filed ending routed alone
    refine ⟨fun s0 held => ?_, fun free => ?_, State.task_release1 .., fun p mem => State.owner_release1 _ t false ?_⟩
    · rw [answer, State.endCommit, held]
    · rw [answer, State.endCommit, free]
      rfl
    · exact (s.heldPages_committedEnd t t.tid).symm ▸ mem

end Sys2Proof.Machine
end

section
/-! PROOF. Graph words that compute a register or move the program counter (R250, R257, R261). -/
namespace Sys2Proof.Machine
open Sys2Proof.Claims

/-! Changes of one graph. -/

/-- Changes that agree on the graph that stands in a slot give the same state. -/
theorem State.modInst_congr {s : State} {d k : Nat} {f g : GInst → GInst} (same : f (s.inst d k) = g (s.inst d k)) :
    s.modInst d k f = s.modInst d k g :=
  State.modDie_congr (congrArg (fun l => { s.die d with insts := l }) (modAt_congr same))

theorem State.offGraphs_modInst (s : State) (d k : Nat) (f : GInst → GInst) : (s.modInst d k f).offGraphs = s.offGraphs := by
  have same : (modAt s.dies d fun x => { x with insts := modAt x.insts k f }).map (fun x : Die => { x with insts := [] })
      = s.dies.map fun x => { x with insts := [] } := by
    refine List.ext_getElem? fun i => ?_
    rw [List.getElem?_map, List.getElem?_map, getElem?_modAt]
    split <;> simp [Function.comp_def]
  exact congrArg (fun l => ({ s with dies := l } : State)) same

theorem State.modInst_keepsBytes (s : State) (d k : Nat) (f : GInst → GInst) : KeepsBytes s (s.modInst d k f) := fun x => by
  cases x <;> rfl

/-! The words of R257. -/

/-- The upper half from an immediate, the lower half kept (R257). -/
theorem append_low_half (hi : W32) (x : W64) : hi ++ x.setWidth 32 = BitVec.ofNat 64 (hi.toNat * 2 ^ 32 + x.toNat % 2 ^ 32) := by
  have low : x.toNat % 2 ^ 32 < 2 ^ 32 := Nat.mod_lt _ (by decide)
  have high := hi.isLt
  apply BitVec.eq_of_toNat_eq
  rw [BitVec.toNat_append, BitVec.toNat_setWidth, ← Nat.shiftLeft_add_eq_or_of_lt low, Nat.shiftLeft_eq, BitVec.toNat_ofNat]
  exact (Nat.mod_eq_of_lt (by omega)).symm

/-- The relation that a code of GCMP names (R257). -/
theorem graphRel_eq (c : Nat) (a b : W64) : graphRel c a b =
    if c = 0 then a == b else if c = 1 then a != b else if c = 2 then a.slt b else if c = 3 then a.sle b
    else if c = 4 then a.ult b else a.ule b := by
  match c with
  | 0 => rfl
  | 1 => exact decide_not
  | 2 => rfl
  | 3 => rfl
  | 4 => rfl
  | n + 5 => simp [graphRel, BitVec.ule]

/-- GLI, GADD, GSUB, GAND and GCMP write their value into gd (R257). -/
theorem exec_graphWords : ∀ x ∈ graphWords, ∀ (w : GWord) (s : State), exec (x.1 w) s = .next (s.gwrite w.gd (x.2 w s)) := by
  simp only [graphWords, List.forall_mem_cons]
  refine ⟨fun w s => ?gli, fun _ _ => rfl, fun _ _ => rfl, fun _ _ => rfl, fun w s => ?gcmp, nofun⟩
  case gli =>
    rw [← append_low_half]
    rfl
  case gcmp =>
    rw [← graphRel_eq]
    rfl

/-! Branches and loops (R261). -/

/-- BRC branches when its register is zero or, with the bit of its modifier clear, when it is not. -/
theorem exec_brc (w : GWord) (s : State) :
    let taken := decide (gOf s w.ga = 0) == w.mod.getLsbD 0
    Goes (exec (.gBrc w) s) s fun g => if taken then branchTo w.imm.toNat g else { g with phase := .ready, pc := g.pc + 1 } := by
  have choice : (if w.mod.getLsbD 0 then decide (gOf s w.ga = 0) else decide (gOf s w.ga ≠ 0)) = (decide (gOf s w.ga = 0) == w.mod.getLsbD 0) := by
    cases w.mod.getLsbD 0 <;> simp
  have same : exec (.gBrc w) s = .next (if (if w.mod.getLsbD 0 then decide (gOf s w.ga = 0) else decide (gOf s w.ga ≠ 0))
      then s.onInst fun g => g.jump w.imm.toNat else s.gdone) := rfl
  rw [Goes, same, choice]
  cases decide (gOf s w.ga = 0) == w.mod.getLsbD 0 <;> rfl

/-- ENDL runs the body of the innermost loop again until its count is used up. -/
theorem exec_endl (w : GWord) {s : State} {l : GLoop} {r : List GLoop} (inner : (s.inst s.focus.die s.focus.inst).loops = l :: r) :
    Goes (exec (.gEndl w) s) s fun g =>
      if l.left ≤ 1 then { g with loops := r, pc := g.pc + 1, phase := .ready }
      else { g with loops := { l with left := l.left - 1 } :: r, pc := l.first, phase := .ready } := by
  refine congrArg Host.Outcome.next (State.modInst_congr ?_)
  simp only [inner]
  by_cases last : l.left ≤ 1
  · rw [if_pos last, if_neg (Nat.not_lt.mpr last)]
  · rw [if_neg last, if_pos (Nat.lt_of_not_le last)]

/-- Settles O40: each word is one change of the graph in focus, and such a change leaves everything else alone. -/
theorem graphRegisterWords : Obligations.GraphRegisterWords := by
  refine ⟨fun x mem w s => ?_, fun _ _ => rfl, exec_brc, fun _ _ => rfl, fun w _ _ _ inner => exec_endl w inner,
    fun s d k f => ⟨s.offGraphs_modInst d k f, s.modInst_keepsBytes d k f, fun _ _ other => s.inst_modInst_ne f other⟩⟩
  rw [exec_graphWords x mem]
  rfl

end Sys2Proof.Machine
end

section
/-! PROOF. Graph words that reach memory (R253, R254, R260), and the return of their data (R254, R331). -/
namespace Sys2Proof.Machine
open Sys2Proof.Claims

/-! The checks of an access (R253, R269, R289). -/

/-- A graph word that raises a graph fault closes its graph. -/
theorem faults_of_gbad {o : Res} {s : State} {c : Nat} (bad : o = .next (s.gbad c)) : Faults o s c := bad ▸ s.gbad_faults c

section
variable {s : State} {write : Bool} {va : W64} {n al : Nat}

theorem State.gAccess_of_misaligned (misaligned : va.toNat % al ≠ 0) : s.gAccess write va n al = .error 1 := if_pos misaligned

variable (aligned : va.toNat % al = 0)
include aligned

theorem State.gAccess_of_untranslated (other : spaceOf va ≠ .translated) : s.gAccess write va n al = .error 2 :=
  (if_neg (not_not_intro aligned)).trans (if_pos other)

variable (translated : spaceOf va = .translated)
include translated

theorem State.gAccess_of_denied {e : Deny}
    (denied : s.place (pintleWho s.finst.part s.finst.tenant s.focus.die) (if write then .write else .read) write va = .error e) :
    s.gAccess write va n al = .error (gcode e) := by
  simp only [State.gAccess, aligned, translated, denied, ne_eq, not_true_eq_false, if_false]

theorem State.gAccess_of_hbm {d pa : Nat} {x : PotE}
    (placed : s.place (pintleWho s.finst.part s.finst.tenant s.focus.die) (if write then .write else .read) write va = .ok (.hbm d pa x)) :
    s.gAccess write va n al = if write && s.sealed s.finst.part s.focus.die va n then .error 8
      else if !write && s.badLoc (.hbm d pa) n then .error 2 else .ok (.hbm d pa) := by
  simp only [State.gAccess, aligned, translated, placed, ne_eq, not_true_eq_false, if_false]

end

/-! What walks and commits to HBM leave alone. -/

/-- Two states with the same pages, memory of other devices and graphs. -/
structure State.SameBeside (s t : State) : Prop where
  pages : t.pages = s.pages
  peer : t.peer = s.peer
  graphs : t.dies.map Die.insts = s.dies.map Die.insts

namespace State.SameBeside

theorem refl (s : State) : s.SameBeside s := ⟨rfl, rfl, rfl⟩

theorem trans {s t u : State} (h : s.SameBeside t) (k : t.SameBeside u) : s.SameBeside u :=
  ⟨k.pages.trans h.pages, k.peer.trans h.peer, k.graphs.trans h.graphs⟩

theorem of_eq {s t : State} (pages : t.pages = s.pages) (peer : t.peer = s.peer) (dies : t.dies = s.dies) : s.SameBeside t :=
  ⟨pages, peer, congrArg _ dies⟩

theorem foldl {α : Type} {f : State → α → State} (l : List α) (hf : ∀ (s : State) x, s.SameBeside (f s x)) (s : State) : s.SameBeside (l.foldl f s) :=
  List.foldlRecOn l f (refl s) fun _ h x _ => h.trans (hf _ x)

theorem modDie (s : State) (d : Nat) {f : Die → Die} (keeps : ∀ x, (f x).insts = x.insts) : s.SameBeside (s.modDie d f) :=
  ⟨rfl, rfl, List.ext_getElem? fun i => by
    simp only [State.modDie, List.getElem?_map, getElem?_modAt]
    split <;> simp [Function.comp_def, keeps]⟩

theorem modPart (s : State) (n : Nat) (f : Part → Part) : s.SameBeside (s.modPart n f) := of_eq rfl rfl rfl

theorem raise (s : State) (n : Nat) (c : Cause) : s.SameBeside (s.raise n c) := of_eq (by simp) (by simp) (by simp)

theorem modTask (s : State) (n : Nat) (f : Task → Task) : s.SameBeside (s.modTask n f) := of_eq (by simp) (by simp) (by simp)

theorem displace (s : State) (d sector k : Nat) : s.SameBeside (s.displace d sector k) := modDie s d fun _ => rfl

/-- The list of version sectors is no part of it. -/
theorem setVsects {s t : State} (h : s.SameBeside t) (vs : List VSect) : s.SameBeside { t with vsects := vs } := h.trans (of_eq rfl rfl rfl)

theorem addSector {s t : State} {v : VSect} (h : s.addSector v = some t) : s.SameBeside t := by
  unfold State.addSector at h
  dsimp only at h
  split at h
  · obtain rfl := Option.some.inj h
    exact setVsects (displace ..) _
  · split at h
    · obtain rfl := Option.some.inj h
      exact of_eq rfl rfl rfl
    · cases h

theorem needSnapshot (s : State) (part d k : Nat) (not : List Nat) : s.SameBeside (s.needSnapshot part d k not).1 := by
  unfold State.needSnapshot
  split
  · exact refl s
  · split
    · next h => exact addSector h
    · refine foldl _ (fun s t => ?_) s
      split
      · exact (modPart s part _).trans (raise ..)
      · exact modTask ..

theorem needSnapshots (s : State) (part d : Nat) (pas not : List Nat) : s.SameBeside (s.needSnapshots part d pas not).1 :=
  List.foldlRecOn (motive := fun x : State × Bool => s.SameBeside x.1) _ _ (refl s) fun _ h x _ => h.trans (needSnapshot _ part d x not)

theorem tamper (s : State) (d : Nat) (pas : List Nat) : s.SameBeside (s.tamper d pas) := by
  unfold State.tamper
  split
  · exact of_eq rfl rfl rfl
  · exact refl s

theorem mend (s : State) (d : Nat) (bs : List (Nat × Byte)) : s.SameBeside (s.mend d bs) := by
  unfold State.mend
  split
  · exact refl s
  · exact of_eq rfl rfl rfl

/-- The bytes of HBM are no part of it. -/
theorem setHbm {s t : State} (h : s.SameBeside t) (m : List Host.Cell) : s.SameBeside { t with hbm := m } := h.trans (of_eq rfl rfl rfl)

theorem putCmpLine (s : State) (d i : Nat) (r : BitVec 320) (line : Nat) (bs : List Byte) : s.SameBeside (s.putCmpLine d i r line bs) := by
  unfold State.putCmpLine
  refine trans ?_ (modDie _ d fun _ => rfl)
  exact of_eq rfl rfl rfl

theorem putBytes (s : State) (d : Nat) (bs : List (Nat × Byte)) : s.SameBeside (s.putBytes d bs) := by
  unfold State.putBytes
  refine trans ?_ (foldl _ (fun s x => ?_) _)
  · exact of_eq rfl rfl rfl
  · exact putCmpLine s d x.1 x.2.1 x.2.2 _

theorem unveil (s : State) (d : Nat) (pas : List Nat) : s.SameBeside (s.unveil d pas) := by
  unfold State.unveil
  refine foldl _ (fun s x => ?_) s
  obtain ⟨key, tid, i, gen⟩ := x
  unfold State.unveilPage
  refine trans ?_ (putBytes _ d _)
  exact of_eq rfl rfl rfl

theorem store (s : State) (d : Nat) (bs : List (Nat × Byte)) : s.SameBeside (s.store d bs) :=
  ((mend s d bs).trans (unveil _ d _)).trans (putBytes _ d bs)

theorem logDirty (s : State) (part d page : Nat) (ks : List Nat) : s.SameBeside (s.logDirty part d page ks) := by
  unfold State.logDirty
  dsimp only
  split
  · refine trans (setHbm (trans ?_ (unveil _ _ _)) _) (modPart _ _ _)
    split
    · exact refl s
    · exact setHbm (unveil s _ _) _
  · exact refl s

theorem snapshot (s : State) (part d : Nat) (pas not : List Nat) : s.SameBeside (s.snapshot part d pas not) := of_eq rfl rfl rfl

theorem markMig (s : State) (d page : Nat) (ks : List Nat) : s.SameBeside (s.markMig d page ks) := modDie s d fun _ => rfl

theorem commitBytes (s : State) (part d : Nat) (bs : List (Nat × Byte)) : s.SameBeside (s.commitBytes part d bs) := by
  unfold State.commitBytes
  dsimp only
  refine trans ?_ (foldl _ (fun s pg => (logDirty s part d pg _).trans (markMig _ d pg _)) _)
  exact (((needSnapshots s part d _ _).trans (snapshot ..)).trans (tamper ..)).trans (store ..)

theorem noteWalk (s : State) (w : Who) (va : W64) : s.SameBeside (s.noteWalk w va).1 := by
  unfold State.noteWalk
  dsimp only
  split
  · split
    · exact refl s
    · split
      · exact refl s
      · exact modDie s _ fun _ => rfl
  · exact refl s

theorem noteWalks (s : State) (w : Who) (va : W64) (n : Nat) : s.SameBeside (s.noteWalks w va n).1 :=
  List.foldlRecOn (motive := fun x : State × Nat => s.SameBeside x.1) _ _ (refl s) fun _ h x _ => h.trans (noteWalk _ w x.1)

theorem inst {s t : State} (h : s.SameBeside t) (d k : Nat) : t.inst d k = s.inst d k := by
  have stands (u : State) : u.inst d k = ((u.dies.map Die.insts).getD d ({} : Die).insts).getD k {} := by
    have graphs : (u.dies.map Die.insts).getD d ({} : Die).insts = (u.die d).insts := by
      rw [List.getD_eq_getElem?_getD, List.getElem?_map, Option.getD_map, ← List.getD_eq_getElem?_getD]
      rfl
    rw [graphs]
    rfl
  rw [stands, stands, h.graphs]

end State.SameBeside

/-- The walks of a store leave the graph in focus alone. -/
theorem State.finst_gSend {s : State} (va : W64) (l : Loc) (n : Nat) : (s.gSend va l n).1.finst = s.finst := by
  change (s.noteWalks (pintleWho s.finst.part s.finst.tenant s.focus.die) va n).1.finst = _
  rw [State.finst, State.noteWalks_focus]
  exact (State.SameBeside.noteWalks ..).inst ..

/-! GLD, GST and GCELL at their issue (R253, R254, R260). -/

section
variable {s : State} (w : GWord) (ready : s.finst.phase = .ready)
include ready

theorem exec_gld_of_refused {c : Nat} (refused : s.gAccess false (s.gAddr w) 8 8 = .error c) : exec (.gGld w) s = .next (s.gbad c) := by
  change execGGld w s = _
  simp only [execGGld, ready, refused]

theorem exec_gld_of_placed {l : Loc} (placed : s.gAccess false (s.gAddr w) 8 8 = .ok l) :
    exec (.gGld w) s = .next ((s.gTouch (s.gAddr w) l 8).1.onInst fun g =>
      { g with phase := .mem (s.cycle + (s.gTouch (s.gAddr w) l 8).2) (some (w.gd, BitVec.ofNat 64 (leNat (s.committedLoc l 8)))) }) := by
  change execGGld w s = _
  simp only [execGGld, ready, placed]

theorem exec_gst_of_refused {c : Nat} (refused : s.gAccess true (s.gAddr w) 8 8 = .error c) : exec (.gGst w) s = .next (s.gbad c) := by
  change execGGst w s = _
  simp only [execGGst, ready, refused]

theorem exec_gst_of_placed {l : Loc} (placed : s.gAccess true (s.gAddr w) 8 8 = .ok l) :
    exec (.gGst w) s = .next ((s.gSend (s.gAddr w) l 8).1.onInst fun g =>
      { g with phase := .store (s.cycle + (s.gSend (s.gAddr w) l 8).2) l (leBytes 8 (s.finst.gr w.gb).toNat) }) := by
  have issued : exec (.gGst w) s = .next ((s.gSend (s.gAddr w) l 8).1.onInst fun g =>
      { g with phase := .store (s.cycle + (s.gSend (s.gAddr w) l 8).2) l (leBytes 8 (g.gr w.gb).toNat) }) := by
    change execGGst w s = _
    simp only [execGGst, ready, placed]
  rw [issued, ← State.finst_gSend (s.gAddr w) l 8]
  exact congrArg Host.Outcome.next (State.modInst_congr rfl)

theorem exec_gcell_of_refused {c : Nat} (refused : s.gAccess (w.mod.getLsbD 1) (s.gAddr w) 16 16 = .error c) :
    exec (.gGcell w) s = .next (s.gbad c) := by
  change execGGcell w s = _
  simp only [execGGcell, ready, refused]

theorem exec_gcell_of_unread {l : Loc} {c : Nat} (placed : s.gAccess (w.mod.getLsbD 1) (s.gAddr w) 16 16 = .ok l)
    (unread : s.gAccess false (s.gAddr w) 16 16 = .error c) : exec (.gGcell w) s = .next (s.gbad c) := by
  change execGGcell w s = _
  simp only [execGGcell, ready, placed, unread]

end

/-! The values of a cell (R57, R260). -/

/-- The cell at a location. -/
def State.cellAt (s : State) (l : Loc) : BitVec 128 := BitVec.ofNat 128 (leNat (s.committedLoc l 16))

/-- The bytes of a cell with its scale kept and everything else zero (R260). -/
def clearedCell (c : BitVec 128) : List Byte := leBytes 16 (c.toNat / 2 ^ 112 % 2 ^ 13 * 2 ^ 112)

/-- What GCELL reads of a cell: I saturated, or the rounded value with its sticky bits (R260). -/
def cellResult (w : GWord) (c : BitVec 128) : W64 :=
  if w.mod.getLsbD 0 then BitVec.ofInt 64 (max (-(2 : Int) ^ 63) (min ((2 : Int) ^ 63 - 1) (c.extractLsb' 0 112).toInt)) else cellRead c

theorem cellI_eq (c : BitVec 128) : cellI c = (c.extractLsb' 0 112).toInt := by
  rw [← sx_toNat, BitVec.extractLsb'_toNat, Nat.shiftRight_zero]
  simp only [cellI, sx, Nat.mod_mod]
  split <;> omega

theorem sat64_eq (x : Int) : sat64 x = BitVec.ofInt 64 (max (-(2 : Int) ^ 63) (min ((2 : Int) ^ 63 - 1) x)) := by
  unfold sat64 satInt
  split
  · exact congrArg _ (by omega)
  · split <;> exact congrArg _ (by omega)

theorem leBytes_cellNew (c : BitVec 128) : leBytes 16 (cellNew (c.extractLsb' 112 13)).toNat = clearedCell c := by
  have scale : c.toNat / 2 ^ 112 % 2 ^ 13 < 2 ^ 13 := Nat.mod_lt _ (by decide)
  rw [cellNew, BitVec.extractLsb'_toNat, Nat.shiftRight_eq_div_pow, BitVec.toNat_ofNat, Nat.mod_eq_of_lt (by omega), clearedCell]

section
variable {s : State} (w : GWord) (ready : s.finst.phase = .ready) {l : Loc} (placed : s.gAccess (w.mod.getLsbD 1) (s.gAddr w) 16 16 = .ok l)
  (read : s.gAccess false (s.gAddr w) 16 16 = .ok l)
include ready placed read

/-- GCELL of a cell that it reaches: a change that is held holds the word; else the cell is cleared where the word says so, and its value returns. -/
theorem exec_gcell_of_placed :
    exec (.gGcell w) s =
      match if w.mod.getLsbD 1 then s.changeHeld s.finst.part l (clearedCell (s.cellAt l)) else none with
      | some s1 => .next s1
      | none =>
        let x := s.gTouch (s.gAddr w) l 16
        .next ((if w.mod.getLsbD 1 then x.1.commitLoc s.finst.part l (clearedCell (s.cellAt l)) else x.1).onInst fun g =>
          { g with phase := .mem (s.cycle + x.2) (some (w.gd, cellResult w (s.cellAt l))) }) := by
  change execGGcell w s = _
  simp only [execGGcell, ready, placed, read, leBytes_cellNew, cellI_eq, sat64_eq]
  rfl

theorem exec_gcell_of_read (reads : w.mod.getLsbD 1 = false) :
    exec (.gGcell w) s = .next ((s.gTouch (s.gAddr w) l 16).1.onInst fun g =>
      { g with phase := .mem (s.cycle + (s.gTouch (s.gAddr w) l 16).2) (some (w.gd, cellResult w (s.cellAt l))) }) := by
  rw [exec_gcell_of_placed w ready placed read]
  simp only [reads, Bool.false_eq_true, if_false]

variable (clears : w.mod.getLsbD 1 = true)
include clears

theorem exec_gcell_of_held {s1 : State} (held : s.changeHeld s.finst.part l (clearedCell (s.cellAt l)) = some s1) : exec (.gGcell w) s = .next s1 := by
  rw [exec_gcell_of_placed w ready placed read]
  simp only [clears, held, if_true]

theorem exec_gcell_of_clear (free : s.changeHeld s.finst.part l (clearedCell (s.cellAt l)) = none) :
    exec (.gGcell w) s = .next (((s.gTouch (s.gAddr w) l 16).1.commitLoc s.finst.part l (clearedCell (s.cellAt l))).onInst fun g =>
      { g with phase := .mem (s.cycle + (s.gTouch (s.gAddr w) l 16).2) (some (w.gd, cellResult w (s.cellAt l))) }) := by
  rw [exec_gcell_of_placed w ready placed read]
  simp only [clears, free, if_true]

end

/-! The return of data (R254, R331). -/

section
variable {s : State} {d k due : Nat} (ev : s.focus.ev = .dataReturn (.graph d k))
include ev

theorem exec_dataReturn_of_load_early {gd : Option (BitVec 4 × W64)} (phase : (s.inst d k).phase = .mem due gd) (early : s.cycle < due) :
    exec .vDataReturn s = .next s := by
  change execVDataReturn s = _
  simp only [execVDataReturn, ev, phase, early, if_true]

theorem exec_dataReturn_of_load {r : BitVec 4} {v : W64} (phase : (s.inst d k).phase = .mem due (some (r, v))) (come : due ≤ s.cycle) :
    exec .vDataReturn s = .next (s.modInst d k fun g => gResult g r v) := by
  change execVDataReturn s = _
  simp only [execVDataReturn, ev, phase, Nat.not_lt.mpr come, if_false]
  rfl

variable {l : Loc} {bs : List Byte} (phase : (s.inst d k).phase = .store due l bs)
include phase

theorem exec_dataReturn_of_store_early (early : s.cycle < due) : exec .vDataReturn s = .next s := by
  change execVDataReturn s = _
  simp only [execVDataReturn, ev, phase, early, if_true]

variable (come : due ≤ s.cycle)
include come

theorem exec_dataReturn_of_held {s1 : State} (held : s.changeHeld (s.inst d k).part l bs = some s1) : exec .vDataReturn s = .next s1 := by
  change execVDataReturn s = _
  simp only [execVDataReturn, ev, phase, Nat.not_lt.mpr come, held, if_false]

theorem exec_dataReturn_of_store (free : s.changeHeld (s.inst d k).part l bs = none) : exec .vDataReturn s =
    .next ((s.commitLoc (s.inst d k).part l bs).modInst d k fun g => { g with phase := .ready, pc := g.pc + 1 }) := by
  change execVDataReturn s = _
  simp only [execVDataReturn, ev, phase, Nat.not_lt.mpr come, free, if_false]

end

/-- A store of a graph to HBM without compression, save slots and dirty log writes its bytes and no other, and its graph goes on (R254). -/
theorem State.stored_of_plain {s : State} {d k due x pa : Nat} {bs : List Byte} (phase : (s.inst d k).phase = .store due (.hbm x pa) bs)
    (w : Memory.wf s.hbm = true) (plain : s.Uncompressed x) (slots : s.slotImg = []) (off : (s.part (s.inst d k).part).lm.getLsbD 176 = false) :
    let u := (s.commitLoc (s.inst d k).part (.hbm x pa) bs).modInst d k fun g => { g with phase := .ready, pc := g.pc + 1 }
    (∀ i < bs.length, cellGet u.hbm (hbmKey x (pa + i)) = bs.getD i 0)
    ∧ KeepsBytesBut s u (fun a => ∃ e b i, a = .hbm e b ∧ i < bs.length ∧ hbmKey e b = hbmKey x (pa + i))
    ∧ (u.inst d k).g = (s.inst d k).g ∧ (u.inst d k).pc = (s.inst d k).pc + 1 ∧ (u.inst d k).phase = .ready := by
  intro u
  have written := State.cellGet_commitLoc_of_no_slot (part := (s.inst d k).part) (pa := pa) (bs := bs) w plain off (by rw [slots]; rfl)
  have beside : s.SameBeside (s.commitLoc (s.inst d k).part (.hbm x pa) bs) := State.SameBeside.commitBytes ..
  have key (i : Nat) : hbmKey x (pa + i) = hbmKey x pa + i := (Nat.add_assoc ..).symm
  have goes : u.inst d k = { s.inst d k with phase := .ready, pc := (s.inst d k).pc + 1 } := by
    have same := beside.inst d k
    obtain ⟨die, slot⟩ := State.inst_in_slot (d := d) (k := k) (s := s.commitLoc (s.inst d k).part (.hbm x pa) bs) (by rw [same, phase]; nofun)
    exact (State.inst_modInst_self _ _ die slot).trans (by rw [same])
  refine ⟨fun i lt => ?_, fun a outside => ?_, by rw [goes], by rw [goes], by rw [goes]⟩
  · refine (written _).trans ?_
    rw [key, if_pos (by omega), Nat.add_sub_cancel_left]
  · cases a with
    | hbm e b =>
      refine (written _).trans (if_neg fun ⟨low, high⟩ => outside ⟨e, b, hbmKey e b - hbmKey x pa, rfl, by omega, ?_⟩)
      rw [key]
      omega
    | scratch p c o => exact congrArg (fun l => cellGet (((assocGet l p).getD {}).core c).sp o) beside.pages
    | constant p c o => exact congrArg (fun l => cellGet (((assocGet l p).getD {}).core c).cc o) beside.pages
    | device g a => exact congrArg (fun l => cellGet ((assocGet l g).getD []) a) beside.peer

/-- Settles O41: the words at their issue, the checks of an access, and the return of data, each by the branches of its definition; the bytes of a
store by what a commit writes (`State.cellGet_commitLoc_of_no_slot`) and leaves alone (`State.SameBeside.commitBytes`). -/
theorem graphMemoryWords : Obligations.GraphMemoryWords := by
  refine ⟨?issue, ?access, ?returns⟩
  case issue =>
    intro w s ready
    refine ⟨fun c refused => faults_of_gbad (exec_gld_of_refused w ready refused), fun c refused => faults_of_gbad (exec_gst_of_refused w ready refused),
      fun c refused => faults_of_gbad (exec_gcell_of_refused w ready refused),
      fun l c placed unread => faults_of_gbad (exec_gcell_of_unread w ready placed unread), fun l placed => exec_gld_of_placed w ready placed,
      fun l placed => exec_gst_of_placed w ready placed, fun l placed read => ⟨exec_gcell_of_read w ready placed read,
        fun clears => ⟨exec_gcell_of_clear w ready placed read clears, fun s1 held => exec_gcell_of_held w ready placed read clears held⟩⟩⟩
  case access =>
    intro s write va n al
    refine ⟨State.gAccess_of_misaligned, State.gAccess_of_untranslated, fun aligned translated =>
      ⟨fun e denied => State.gAccess_of_denied aligned translated denied, fun e pa x placed => ⟨fun writes held => ?_, fun writes free => ?_, fun reads => ?_⟩⟩⟩
    · rw [State.gAccess_of_hbm aligned translated placed, writes, held]
      rfl
    · rw [State.gAccess_of_hbm aligned translated placed, writes, free]
      rfl
    · rw [State.gAccess_of_hbm aligned translated placed, reads]
      rfl
  case returns =>
    intro s d k due ev
    refine ⟨fun gd => exec_dataReturn_of_load_early ev, fun r v => exec_dataReturn_of_load ev, fun l bs phase =>
      ⟨exec_dataReturn_of_store_early ev phase, fun come => ⟨fun s1 => exec_dataReturn_of_held ev phase come, exec_dataReturn_of_store ev phase come,
        fun x pa hbm free kept plain slots off => ?_⟩⟩⟩
    subst hbm
    exact ⟨_, exec_dataReturn_of_store ev phase come free,
      State.stored_of_plain phase (Bool.and_eq_true_iff.mp kept).1 plain slots off⟩

end Sys2Proof.Machine
end

section
/-! PROOF. Graphs that wait, signal, call and end (R249, R250, R259, R263, R268). -/
namespace Sys2Proof.Machine
open Sys2Proof.Claims

/-! WAIT and SIG (R259). -/

theorem GInst.grants_iff (g : GInst) (n : Nat) : g.grants n = true ↔ g.evbase ≤ n ∧ n < g.evbase + g.evcount := decide_eq_true_iff

section
variable {s : State} (w : GWord)

theorem exec_sig_of_foreign (foreign : s.finst.grants (fld w.imm 7 0) = false) : exec (.gSig w) s = .next (s.gbad 3) :=
  congrArg Host.Outcome.next (if_neg (Bool.eq_false_iff.mp foreign))

theorem exec_sig_of_granted (granted : s.finst.grants (fld w.imm 7 0) = true) :
    exec (.gSig w) s = .next (s.gdone.signal s.finst.part (fld w.imm 7 0) (fld w.imm 31 16)) :=
  congrArg Host.Outcome.next (if_pos granted)

/-- The count that an event WAIT needs: a register or an immediate (R259). -/
def State.waitNeed (s : State) (w : GWord) : Nat := if w.mod.getLsbD 1 then (gOf s w.ga).toNat % 2 ^ 32 else fld w.imm 31 16

variable (ready : s.finst.phase = .ready)
include ready

theorem exec_waitEvent_of_foreign (foreign : s.finst.grants (fld w.imm 7 0) = false) : exec (.gWaitEvent w) s = .next (s.gbad 3) := by
  change execGWaitEvent w s = _
  simp only [execGWaitEvent, ready, foreign, Bool.not_false, if_true]

variable (granted : s.finst.grants (fld w.imm 7 0) = true)
include granted

/-- An event WAIT on an event of its graph goes on at once for a need of 0 and else joins the event's queue (R259, R319). -/
theorem exec_waitEvent_of_granted :
    exec (.gWaitEvent w) s = .next (if s.waitNeed w = 0 then s.gdone.graphNonIdem s.focus.die s.focus.inst s.finst.gen
      else (s.onInst fun g => { g with phase := .queued }).queueWait s.finst.part (fld w.imm 7 0) (.graph s.focus.die s.focus.inst) (s.waitNeed w)) := by
  change execGWaitEvent w s = _
  simp only [execGWaitEvent, ready, granted, Bool.not_true, Bool.false_eq_true, if_false]
  exact (apply_ite Host.Outcome.next ..).symm

end

/-- The launch that the handle in ga names (R259). -/
def State.awaited (s : State) (w : GWord) : Option Launch :=
  s.finst.launches.find? fun l => decide (launchHandle l.num l.shown = s.finst.gr w.ga)

theorem exec_waitLaunch_of_unknown {s : State} (w : GWord) (unknown : s.awaited w = none) : exec (.gWaitLaunch w) s = .next (s.gbad 6) := by
  change execGWaitLaunch w s = _
  unfold State.awaited at unknown
  simp only [execGWaitLaunch, unknown]

/-- A launch WAIT faults on a launch of the open step, fails with a refused launch's status, holds until the launch has ended and then writes how many
of its instances trapped (R259). -/
theorem exec_waitLaunch_of_found {s : State} (w : GWord) {l : Launch} (found : s.awaited w = some l) :
    exec (.gWaitLaunch w) s = .next (
      if l.inStep then s.gbad 4 else if l.status ≠ 0 then s.gwrite w.gd (failed l.status)
      else if l.left ≠ 0 then s.onInst fun g => { g with phase := .hold } else s.gwrite w.gd (BitVec.ofNat 64 l.bad)) := by
  change execGWaitLaunch w s = _
  unfold State.awaited at found
  simp only [execGWaitLaunch, found, apply_ite Host.Outcome.next]

/-! CALLG and the start of a graph (R249, R250, R263). -/

section
variable {s : State} (w : GWord) (ready : s.finst.phase = .ready)
include ready

theorem exec_callg_of_deep (deep : 4 ≤ s.finst.depth) : exec (.gCallg w) s = .next (s.gbad 5) := by
  change execGCallg w s = _
  simp only [execGCallg, ready, deep, if_true]

/-- What CALLG starts: the object that its immediate names, under the context of the graph in focus (R263). -/
def State.callStart (s : State) (w : GWord) : Start :=
  { part := s.finst.part, tenant := s.finst.tenant, chan := s.finst.chan, die := s.focus.die, obj := fld w.imm 7 0, evbase := s.finst.evbase
    evcount := s.finst.evcount, cookie := s.finst.cookie, depth := s.finst.depth + 1, parent := some s.focus.inst }

variable (shallow : s.finst.depth < 4)
include shallow

theorem exec_callg_of_refused {st : Nat} (refused : s.startInst (s.callStart w) = .error st) :
    exec (.gCallg w) s = .next (s.gwrite w.gd (failed st)) := by
  change execGCallg w s = _
  unfold State.callStart at refused
  simp only [execGCallg, ready, Nat.not_le.mpr shallow, if_false, refused]

theorem exec_callg_of_started {k : Nat} {s1 : State} (started : s.startInst (s.callStart w) = .ok (k, s1)) :
    exec (.gCallg w) s = .next ((s1.modInst s.focus.die k fun c => { c with g := c.g.take 2 ++ s.finst.g.drop 2 }).onInst fun g =>
      { g with phase := .child k }) := by
  change execGCallg w s = _
  unfold State.callStart at started
  simp only [execGCallg, ready, Nat.not_le.mpr shallow, if_false, started]

end

section
variable {s : State} {x : Start}

/-- No object, or an emptied one, starts nothing (R248, R270). -/
theorem State.startInst_of_empty (empty : ∀ o, s.obj x.part x.die x.obj = some o → o.words = []) : s.startInst x = .error 0x40 := by
  unfold State.startInst
  split
  · rfl
  · next o found => simp only [empty o found, List.isEmpty_nil, if_true]

variable {o : GObj} (found : s.obj x.part x.die x.obj = some o)
include found

theorem State.startInst_of_full (words : o.words ≠ []) (full : ∀ k < 64, (s.inst x.die k).live = true) : s.startInst x = .error 0x41 := by
  have none_free : ((List.range 64).find? fun k => !(s.inst x.die k).live) = none :=
    List.find?_range_eq_none.mpr fun k lt => (Bool.not_eq_true' _).mpr (by rw [full k lt]; rfl)
  simp only [State.startInst, found, none_free, List.isEmpty_iff, words, if_false]

/-- The graph that a start puts into slot k under index j at a block (R249, R250). -/
def Start.graph (x : Start) (o : GObj) (k j gen : Nat) (block : W64) : GInst :=
  { gen := gen, live := true, part := x.part, tenant := x.tenant, chan := x.chan, obj := x.obj, ver := o.ver, idx := j, code := o.words
    block := block, bsize := o.bsize, g := [block, BitVec.ofNat 64 (handleOf x.die k gen)] ++ List.replicate 14 0, evbase := x.evbase
    evcount := x.evcount, cookie := x.cookie, depth := x.depth, parent := x.parent }

/-- A start takes the lowest free slot and a free index of its object, and puts a new graph of the next generation there (R249, R250). -/
theorem State.startInst_eq_ok {k : Nat} {s1 : State} (started : s.startInst x = .ok (k, s1)) :
    ((List.range 64).find? fun k => !(s.inst x.die k).live) = some k
    ∧ ∃ j < 8, ∃ block s0, s1 = State.modInst s0 x.die k fun _ => x.graph o k j (((s.inst x.die k).gen + 1) % 2 ^ 24) block := by
  unfold State.startInst at started
  simp only [found] at started
  split at started
  · cases started
  · split at started
    · next k' j slot index =>
      split at started
      · cases started
      · cases started
      · split at started
        · cases started
        · next s0 _ =>
          cases started
          exact ⟨slot, j, List.mem_range.mp (List.mem_of_find?_eq_some index), _, s0, rfl⟩
    · cases started

theorem State.startInst_slot {k : Nat} {s1 : State} (started : s.startInst x = .ok (k, s1)) :
    k < 64 ∧ (s.inst x.die k).live = false ∧ ∀ j < k, (s.inst x.die j).live = true := by
  obtain ⟨slot, -⟩ := State.startInst_eq_ok found started
  obtain ⟨free, bound, below⟩ := List.find?_range_eq_some.mp slot
  exact ⟨List.mem_range.mp bound, (Bool.not_eq_true' _).mp free, fun j lt => by simpa using below j lt⟩

theorem State.startInst_graph {k : Nat} {s1 : State} (started : s.startInst x = .ok (k, s1)) (slot : k < (s1.die x.die).insts.length)
    (die : x.die < s1.dies.length) :
    ∃ j < 8, ∃ block, s1.inst x.die k = x.graph o k j (((s.inst x.die k).gen + 1) % 2 ^ 24) block := by
  obtain ⟨-, j, index, block, s0, rfl⟩ := State.startInst_eq_ok found started
  refine ⟨j, index, block, ?_⟩
  unfold State.modInst at slot die
  rw [State.length_dies_modDie] at die
  rw [State.die_modDie_self _ _ die, length_modAt] at slot
  exact State.inst_modInst_self _ _ die slot

end

/-! END (R268). -/

theorem exec_end_of_ready {s : State} (w : GWord) (ready : s.finst.phase = .ready) :
    exec (.gEnd w) s = .next ((s.finst.faults.foldl State.endTask (s.onInst fun g =>
      { g.fault 0 with phase := .closing (fld w.imm 15 0) 0 })).closeInst s.focus.die s.focus.inst) := by
  change execGEnd w s = _
  simp only [execGEnd, ready]

theorem exec_end_of_closing {s : State} (w : GWord) (closing : s.finst.phase ≠ .ready) :
    exec (.gEnd w) s = .next (s.closeInst s.focus.die s.focus.inst) := by
  change execGEnd w s = _
  unfold execGEnd
  dsimp only
  split
  · next ready => exact absurd ready closing
  · rfl

theorem GInst.drained_iff (g : GInst) : g.drained = true ↔ ∀ l ∈ g.launches, l.left = 0 := by
  simp [GInst.drained]

/-- The translations that the leases of a graph pin (R266). -/
def State.leaseKeys (s : State) (d : Nat) (g : GInst) : List Nat :=
  g.leases.flatMap fun (_, b, z) => match s.owning d (b.toNat / 2 ^ 48) with
    | .ok (.inl e) => (List.range (z.toNat / 65536)).map fun i => pinKey e g.part g.tenant ((b.toNat / 65536 + i) % 2 ^ 32)
    | _ => []

/-- A closing graph's slot is free, its leases and patches gone (R268 step 3). -/
def State.vacated (s : State) (d k : Nat) : State := (s.modInst d k fun g => { gen := g.gen }).dropPins (s.leaseKeys d (s.inst d k)) 0

section
variable {s : State} {d k code fault : Nat} (closing : (s.inst d k).phase = .closing code fault)
include closing

theorem State.closeInst_of_running (running : ∃ l ∈ (s.inst d k).launches, l.left ≠ 0) : s.closeInst d k = s := by
  have runs : (s.inst d k).drained = false := Bool.eq_false_iff.mpr fun drained => by
    obtain ⟨l, mem, left⟩ := running
    exact left ((GInst.drained_iff _).mp drained l mem)
  simp only [State.closeInst, closing, runs, Bool.not_false, Bool.or_true, Bool.true_or, if_true]

variable (live : (s.inst d k).live = true) (ended : ∀ l ∈ (s.inst d k).launches, l.left = 0)
include live ended

/-- A called graph gives its end code to the caller that waits for it (R263, R268). -/
theorem State.closeInst_of_called {p j : Nat} (called : (s.inst d k).parent = some p) (waits : ((s.vacated d k).inst d p).phase = .child j) :
    s.closeInst d k = (s.vacated d k).modInst d p fun x => gResult x (graphFields (x.code.getD x.pc 0)).gd (BitVec.ofNat 64 code) := by
  have done : (s.vacated d k).modInst d p (fun x => match x.phase with
      | .child _ => x.wrote ((graphFields (x.code.getD x.pc 0)).gd) (BitVec.ofNat 64 code)
      | _ => x) = (s.vacated d k).modInst d p fun x => gResult x (graphFields (x.code.getD x.pc 0)).gd (BitVec.ofNat 64 code) :=
    State.modInst_congr (by simp only [waits]; rfl)
  rw [← done]
  simp only [State.closeInst, closing, live, (GInst.drained_iff _).mpr ended, called, Option.isNone_some, Bool.false_and, Bool.not_true,
    Bool.or_false, Bool.false_eq_true, if_false]
  rfl

/-- A launched graph sends its completion packet when its channel's ring has room (R268). -/
theorem State.closeInst_of_launched (launched : (s.inst d k).parent = none) (room : (s.chan (s.inst d k).part (s.inst d k).chan).full = false)
    (clear : (s.chan (s.inst d k).part (s.inst d k).chan).pending = []) :
    s.closeInst d k = (s.vacated d k).chanSend (s.inst d k).part (s.inst d k).chan 0x82
      (leBytes 4 (s.inst d k).cookie.toNat ++ leBytes 4 (handleOf d k (s.inst d k).gen) ++ leBytes 2 code ++ leBytes 1 fault ++ leBytes 1 0
        ++ leBytes 2 ((s.inst d k).patches.map fun x => x.2.length).sum) := by
  simp only [State.closeInst, closing, live, (GInst.drained_iff _).mpr ended, launched, room, clear, List.isEmpty_nil, Bool.not_true,
    Bool.or_false, Bool.and_false, Bool.false_eq_true, if_false]
  rfl

end

/-- Settles O43: each word by the branches of its definition, the start and the close of a graph by what they put into its slot. -/
theorem graphInstancesWaitAndCall : Obligations.GraphInstancesWaitAndCall := by
  refine ⟨?events, ?launches, ?calls, ?starts, fun w s => ⟨exec_end_of_ready w, exec_end_of_closing w⟩, ?closes⟩
  case events =>
    intro w s ready
    refine ⟨fun foreign => ?_, fun own zero => ?_, fun own need => ?_, fun own => ?_⟩
    · have foreign := Bool.eq_false_iff.mpr fun own => foreign ((GInst.grants_iff _ _).mp own)
      exact ⟨faults_of_gbad (exec_waitEvent_of_foreign w ready foreign), faults_of_gbad (exec_sig_of_foreign w foreign)⟩
    · exact (exec_waitEvent_of_granted w ready ((GInst.grants_iff _ _).mpr own)).trans (congrArg _ (if_pos zero))
    · exact (exec_waitEvent_of_granted w ready ((GInst.grants_iff _ _).mpr own)).trans (congrArg _ (if_neg need))
    · exact exec_sig_of_granted w ((GInst.grants_iff _ _).mpr own)
  case launches =>
    intro w s
    refine ⟨fun unknown => faults_of_gbad (exec_waitLaunch_of_unknown w unknown), fun l found => ?_⟩
    have outcome := exec_waitLaunch_of_found w (s := s) found
    refine ⟨fun inStep => faults_of_gbad ?_, fun closed refused => ?_, fun closed passed left => ?_, fun closed passed ended => ?_⟩
    · rw [outcome, if_pos inStep]
    · rw [outcome, closed, if_neg Bool.false_ne_true, if_pos refused]
      rfl
    · rw [outcome, closed, if_neg Bool.false_ne_true, if_neg (not_not_intro passed), if_pos left]
      rfl
    · rw [outcome, closed, if_neg Bool.false_ne_true, if_neg (not_not_intro passed), if_neg (not_not_intro ended)]
      rfl
  case calls =>
    intro w s ready
    exact ⟨fun deep => faults_of_gbad (exec_callg_of_deep w ready deep), fun shallow st => exec_callg_of_refused w ready shallow,
      fun shallow k s1 => exec_callg_of_started w ready shallow⟩
  case starts =>
    intro s x
    refine ⟨State.startInst_of_empty, fun ⟨o, found, words⟩ => State.startInst_of_full found words, fun k s1 o started found => ?_⟩
    obtain ⟨bound, free, lowest⟩ := State.startInst_slot found started
    refine ⟨bound, free, lowest, fun slot die => ?_⟩
    obtain ⟨j, index, block, graph⟩ := State.startInst_graph found started slot die
    simp only [graph]
    exact ⟨rfl, rfl, rfl, rfl, rfl, index, rfl, rfl⟩
  case closes =>
    intro s d k code fault live closing
    refine ⟨State.closeInst_of_running closing, fun ended => ⟨s.leaseKeys d (s.inst d k), fun none_leased => ?_,
      fun p called j waits => State.closeInst_of_called closing live ended called waits,
      fun launched _ room clear => State.closeInst_of_launched closing live ended launched room clear⟩⟩
    rw [State.leaseKeys, none_leased]
    rfl

end Sys2Proof.Machine
end

section
/-! PROOF. Packets of the host (R248, R249, R264, R265, R272 to R274, R425). -/
namespace Sys2Proof.Machine
open Sys2Proof.Claims

/-! Channels. -/

/-- Changes that agree on the channel that stands at the place give the same state. -/
theorem State.modChan_congr {s : State} {part k : Nat} {f g : Chan → Chan} (same : f (s.chan part k) = g (s.chan part k)) :
    s.modChan part k f = s.modChan part k g :=
  congrArg (fun l => ({ s with parts := l } : State))
    (modAt_congr (congrArg (fun l => { s.part part with chans := l }) (modAt_congr same)))

/-- What a change keeps of a channel, whether the channel is there or not. -/
theorem State.chan_modChan_of_keeps {α : Type} (g : Chan → α) {f : Chan → Chan} (keeps : ∀ c, g (f c) = g c) (s : State) (part k : Nat) :
    g ((s.modChan part k f).chan part k) = g (s.chan part k) :=
  getD_modAt_of_keeps (fun p : Part => g (p.chans.getD k {})) (fun p => getD_modAt_of_keeps g keeps p.chans k k {}) s.parts part part {}

/-! Acceptance (R272, R273, R425). -/

section
variable {p : HostPacket} {s : State}

/-- A packet of a wrong revision or seq leaves its ring, and the first for its expected seq is answered (R273). -/
theorem State.takePacket_of_stray (stray : ¬ inOrder p s) :
    let s0 := s.modChan p.part p.chan fun c => { c with hhead := (c.hhead + 1) % 65536 }
    s.takePacket p.part p.chan (packetBytes p) =
      (if (s.chan p.part p.chan).faulted then s0
        else (s0.modChan p.part p.chan fun c => { c with faulted := true }).answerPacket p.part p.chan
          { cookie := 0, status := if leAt (packetBytes p) 0 2 ≠ 1 then 0x43 else 0x44, handle := (s.chan p.part p.chan).hexp }, false) :=
  if_pos (Classical.not_and_iff_not_or_not.mp stray)

theorem State.takePacket_of_inOrder (ordered : inOrder p s) (none_queued : (s.chan p.part p.chan).queued = []) :
    s.takePacket p.part p.chan (packetBytes p) = (taken p s, true) := by
  obtain ⟨revision, seq⟩ := ordered
  have accepted : ¬ (leAt (packetBytes p) 0 2 ≠ 1 ∨ leAt (packetBytes p) 4 4 ≠ (s.chan p.part p.chan).hexp) := by
    rintro (other | other)
    · exact other revision
    · exact other seq
  have same := State.chan_modChan_of_keeps Chan.reg (f := fun c => { c with hhead := (c.hhead + 1) % 65536 }) (fun _ => rfl) s p.part p.chan
  refine (if_neg accepted).trans (congrArg (·, true) ?_)
  rw [taken, if_neg (not_not_intro none_queued)]
  refine State.modChan_congr ?_
  rw [← same]
  rfl

/-- A packet acts in the state in which it is taken, and is answered (R273, R274, R425). -/
theorem State.hostPacket_of_expected (f : State → Chan → List Byte → State × Answer) (act : expected p s) :
    s.hostPacket p f = (f (taken p s) (s.chan p.part p.chan) (packetBytes p)).1.answerPacket p.part p.chan
      (f (taken p s) (s.chan p.part p.chan) (packetBytes p)).2 := by
  obtain ⟨opened, ordered⟩ := act
  unfold State.hostPacket
  simp only [opened, Bool.not_true, Bool.false_eq_true, if_false]
  split
  · next q rest queue =>
    have in_turn : taken p s = s.modChan p.part p.chan fun c => { c with queued := rest } := by
      rw [taken, if_pos (by rw [queue]; nofun), queue, List.tail_cons]
    rw [in_turn]
    rfl
  · next queue =>
    have accepted := State.takePacket_of_inOrder (ordered queue) queue
    unfold packetBytes at accepted
    rw [accepted]
    rfl

theorem State.hostPacket_of_closed (f : State → Chan → List Byte → State × Answer) (closed : (s.chan p.part p.chan).on = false) :
    s.hostPacket p f = s := by
  simp only [State.hostPacket, closed, Bool.not_false, if_true]

/-- A packet that is not expected acts on nothing but its ring (R273). -/
theorem State.hostPacket_of_stray (f : State → Chan → List Byte → State × Answer) (opened : (s.chan p.part p.chan).on = true)
    (unexpected : ¬ expected p s) :
    s.hostPacket p f = (s.takePacket p.part p.chan (packetBytes p)).1 ∧ ¬ inOrder p s := by
  have queue : (s.chan p.part p.chan).queued = [] :=
    Classical.byContradiction fun queue => unexpected ⟨opened, fun empty => absurd empty queue⟩
  have stray : ¬ inOrder p s := fun ordered => unexpected ⟨opened, fun _ => ordered⟩
  refine ⟨?_, stray⟩
  have dropped := State.takePacket_of_stray stray
  unfold packetBytes at dropped ⊢
  simp only [State.hostPacket, opened, queue, dropped, Bool.not_true, Bool.false_eq_true, if_false]

end

/-- Each kind of packet is one effect behind the acceptance. -/
theorem exec_packets : ∀ c ∈ packets, ∀ (p : HostPacket) (s : State), ∃ f, exec (c p) s = .next (s.hostPacket p f) := by
  simp only [packets, List.forall_mem_cons]
  exact ⟨fun _ _ => ⟨_, rfl⟩, fun _ _ => ⟨_, rfl⟩, fun _ _ => ⟨_, rfl⟩, fun _ _ => ⟨_, rfl⟩, fun _ _ => ⟨_, rfl⟩, nofun⟩

/-- An expected packet is answered with what its effect gives. -/
theorem answersWith_of_effect {p : HostPacket} {s s1 : State} {f : State → Chan → List Byte → State × Answer} {cookie status handle : Nat}
    {refusal : BitVec 128} (act : expected p s)
    (effect : f (taken p s) (s.chan p.part p.chan) (packetBytes p) = (s1, ⟨cookie, status, handle, refusal⟩)) :
    AnswersWith (.next (s.hostPacket p f)) p s1 cookie status handle refusal := by
  rw [State.hostPacket_of_expected f act, effect]
  rfl

/-! Installs (R248, R270). -/

theorem State.packetDie_iff (s : State) (bs : List Byte) :
    s.packetDie bs = true ↔ leAt bs 16 2 < 256 ∧ leAt bs 18 1 < 4 ∧ s.dev.ident.getLsbD (24 + leAt bs 18 1) = true := by
  simp [State.packetDie, and_assoc]

/-- Taking a packet leaves the device and the time alone. -/
theorem taken_dev (p : HostPacket) (s : State) : (taken p s).dev = s.dev := by
  unfold taken
  split <;> rfl

theorem taken_cycle (p : HostPacket) (s : State) : (taken p s).cycle = s.cycle := by
  unfold taken
  split <;> rfl

/-- An address that a packet holds. -/
def vaAt (bs : List Byte) (off : Nat) : W64 := BitVec.ofNat 64 (leAt bs off 8)

/-- An object put in the place that an install names. -/
def State.putObj (s : State) (part : Nat) (bs : List Byte) (o : GObj) : State :=
  s.modPart part fun q => { q with objs := assocSet q.objs (objKey (leAt bs 18 1) (leAt bs 16 2)) o }

/-- The object that an install replaces. -/
def State.oldObj (s : State) (part : Nat) (bs : List Byte) : GObj := (s.obj part (leAt bs 18 1) (leAt bs 16 2)).getD {}

/-- The addresses and the block size of an install (R248). -/
def State.placedObj (s : State) (part tenant : Nat) (bs : List Byte) : Prop :=
  leAt bs 40 4 % 64 = 0 ∧ leAt bs 40 4 ≤ 65536 ∧ leAt bs 32 8 % 64 = 0 ∧ leAt bs 48 8 % 64 = 0
    ∧ s.inGeneric (packetWho part tenant (leAt bs 18 1)) (vaAt bs 32) (leAt bs 40 4) = true
    ∧ s.inGeneric (packetWho part tenant (leAt bs 18 1)) (vaAt bs 48) (8 * leAt bs 40 4) = true

/-- Room for an image, and no graph of an earlier version (R248, R270). -/
def State.roomFor (s : State) (part : Nat) (bs : List Byte) (ws : List W64) : Prop :=
  (∀ g ∈ s.liveOf part (leAt bs 18 1) (leAt bs 16 2), g.ver = (s.oldObj part bs).ver)
    ∧ s.graphWords (leAt bs 18 1) part (leAt bs 16 2) + ws.length ≤ 65536

theorem State.not_placedObj_iff (s : State) (part tenant : Nat) (bs : List Byte) : ¬ s.placedObj part tenant bs ↔
    leAt bs 40 4 % 64 ≠ 0 ∨ 65536 < leAt bs 40 4 ∨ leAt bs 32 8 % 64 ≠ 0 ∨ leAt bs 48 8 % 64 ≠ 0
      ∨ s.inGeneric (packetWho part tenant (leAt bs 18 1)) (vaAt bs 32) (leAt bs 40 4) = false
      ∨ s.inGeneric (packetWho part tenant (leAt bs 18 1)) (vaAt bs 48) (8 * leAt bs 40 4) = false := by
  simp only [State.placedObj, Classical.not_and_iff_not_or_not, Nat.not_le, Bool.not_eq_true, ne_eq]

theorem State.not_roomFor_iff (s : State) (part : Nat) (bs : List Byte) (ws : List W64) : ¬ s.roomFor part bs ws ↔
    ((s.liveOf part (leAt bs 18 1) (leAt bs 16 2)).any (fun g => decide (g.ver ≠ (s.oldObj part bs).ver))
      || decide (65536 < s.graphWords (leAt bs 18 1) part (leAt bs 16 2) + ws.length)) = true := by
  simp only [State.roomFor, Bool.or_eq_true, List.any_eq_true, decide_eq_true_eq, Classical.not_and_iff_not_or_not, Classical.not_forall, Nat.not_le, exists_prop, ne_eq]

section
variable {s : State} {part tenant : Nat} {bs : List Byte}

theorem State.install_of_unusable (unusable : s.packetDie bs = false) :
    s.install part tenant bs = (s, { cookie := leAt bs 20 4, status := 0x4B }) := by
  simp only [State.install, unusable, Bool.not_false, if_true]

variable (usable : s.packetDie bs = true)
include usable

theorem State.install_of_null (null : vaAt bs 24 = 0) :
    s.install part tenant bs = (s.putObj part bs { s.oldObj part bs with words := [] }, { cookie := leAt bs 20 4, status := 0 }) := by
  unfold vaAt at null
  simp only [State.install, usable, null, Bool.not_true, Bool.false_eq_true, if_false, if_true]
  rfl

variable (image : vaAt bs 24 ≠ 0)
include image

theorem State.install_of_bad_image {r : Refuse} (bad : s.graphImage (packetWho part tenant (leAt bs 18 1)) (vaAt bs 24) = .error r) :
    s.install part tenant bs = (s, { cookie := leAt bs 20 4, status := 0x46, refusal := r.bits }) := by
  unfold vaAt at image bad
  simp only [State.install, usable, image, bad, Bool.not_true, Bool.false_eq_true, if_false]

variable {ws : Option (List W64)} (read : s.graphImage (packetWho part tenant (leAt bs 18 1)) (vaAt bs 24) = .ok ws)
include read

theorem State.install_of_misplaced (misplaced : ¬ s.placedObj part tenant bs) : s.install part tenant bs =
    (s, { cookie := leAt bs 20 4, status := 0x46, refusal := ({ reason := 0x22, plane := 2 } : Refuse).bits }) := by
  rw [State.not_placedObj_iff] at misplaced
  unfold vaAt at image read misplaced
  simp only [State.install, usable, image, read, misplaced, Bool.not_true, Bool.false_eq_true, if_false, if_true]

variable (placed : s.placedObj part tenant bs)
include placed

/-- An image that is too long, or for which the graph memory has no room, is refused (R248, R270). -/
theorem State.install_of_crowded (crowded : ∀ x, ws = some x → ¬ s.roomFor part bs x) :
    s.install part tenant bs = (s, { cookie := leAt bs 20 4, status := 0x47 }) := by
  have placed := not_not_intro placed
  rw [State.not_placedObj_iff] at placed
  unfold vaAt at image read placed
  simp only [State.install, usable, image, read, placed, Bool.not_true, Bool.false_eq_true, if_false]
  cases ws with
  | none => rfl
  | some x => exact if_pos ((s.not_roomFor_iff part bs x).mp (crowded x rfl))

theorem State.install_of_placed {x : List W64} (found : ws = some x) (room : s.roomFor part bs x) : s.install part tenant bs =
    (s.putObj part bs { words := x, block := vaAt bs 32, bsize := leAt bs 40 4, area := vaAt bs 48, ver := (s.oldObj part bs).ver + 1 },
      { cookie := leAt bs 20 4, status := 0 }) := by
  have placed := not_not_intro placed
  rw [State.not_placedObj_iff] at placed
  unfold vaAt at image read placed
  simp only [State.install, usable, image, read, placed, found, Bool.not_true, Bool.false_eq_true, if_false]
  exact if_neg fun crowded => (s.not_roomFor_iff part bs x).mpr crowded room

end

/-! Patch entries (R273). -/

theorem mapM_eq_some_iff {α β : Type} (f : α → Option β) (l : List α) (r : List β) : l.mapM f = some r ↔ l.map f = r.map some := by
  induction l generalizing r with
  | nil => cases r <;> simp
  | cons a l ih =>
    rw [List.mapM_cons, List.map_cons]
    cases r with
    | nil => cases f a <;> cases l.mapM f <;> simp
    | cons b r =>
      rw [List.map_cons, List.cons.injEq, ← ih]
      cases f a <;> cases l.mapM f <;> simp

theorem range_map_eq_iff {β : Type} (f : Nat → Option β) (n : Nat) (r : List β) :
    (List.range n).map f = r.map some ↔ r.length = n ∧ ∀ i < n, r[i]?.map some = some (f i) := by
  constructor
  · intro same
    have length : n = r.length := by simpa using congrArg List.length same
    refine ⟨length.symm, fun i lt => ?_⟩
    rw [← List.getElem?_map, ← same, List.getElem?_map, List.getElem?_range lt, Option.map_some]
  · rintro ⟨rfl, same⟩
    refine List.ext_getElem? fun i => ?_
    rw [List.getElem?_map, List.getElem?_map]
    by_cases lt : i < r.length
    · rw [List.getElem?_range lt, Option.map_some, same i lt]
    · rw [List.getElem?_eq_none (by simpa using lt), List.getElem?_eq_none (Nat.le_of_not_lt lt)]
      rfl

/-- A field inside a slice of bytes. -/
theorem leAt_slice (bs : List Byte) (i n off m : Nat) (inside : off + m ≤ n) : leAt ((bs.drop i).take n) off m = leAt bs (i + off) m := by
  rw [leAt, leAt, List.drop_take, List.take_take, List.drop_drop, Nat.min_eq_left (by omega)]

/-- Patch entry i of some bytes, for a block of a size; none when it is malformed (R273). -/
def patchEntry (bs : List Byte) (size i : Nat) : Option (Nat × W64) :=
  if leAt bs (16 * i) 4 % 8 ≠ 0 ∨ size ≤ leAt bs (16 * i) 4 ∨ leAt bs (16 * i + 4) 4 ≠ 0 then none
  else some (leAt bs (16 * i) 4, BitVec.ofNat 64 (leAt bs (16 * i + 8) 8))

theorem map_some_eq_patchEntry_iff (bs : List Byte) (size i : Nat) (e : Option (Nat × W64)) :
    e.map some = some (patchEntry bs size i) ↔ leAt bs (16 * i) 4 % 8 = 0 ∧ leAt bs (16 * i) 4 < size ∧ leAt bs (16 * i + 4) 4 = 0
      ∧ e = some (leAt bs (16 * i) 4, BitVec.ofNat 64 (leAt bs (16 * i + 8) 8)) := by
  unfold patchEntry
  split
  · next bad =>
    refine ⟨fun same => ?_, fun ⟨aligned, inside, zero, _⟩ => by omega⟩
    cases e <;> cases same
  · next good =>
    rw [not_or, not_or, Classical.not_not, Nat.not_le, Classical.not_not] at good
    obtain ⟨aligned, inside, zero⟩ := good
    cases e <;> simp [aligned, inside, zero]

/-- The entries that a packet names are read as a list exactly when each is well formed (R273). -/
theorem State.patchEntries_eq_some_iff (s : State) (w : Who) (a : W64) (n size : Nat) (l : List (Nat × W64)) :
    s.patchEntries w a n size = some l ↔ entriesAt s w a n size l := by
  have entry (bs : List Byte) : (fun i => let e := (bs.drop (16 * i)).take 16
      if leAt e 0 4 % 8 ≠ 0 ∨ size ≤ leAt e 0 4 ∨ leAt e 4 4 ≠ 0 then none else some (leAt e 0 4, BitVec.ofNat 64 (leAt e 8 8)))
      = patchEntry bs size := funext fun i => by
    simp only [patchEntry, leAt_slice bs (16 * i) 16 _ _ (by decide : 0 + 4 ≤ 16), leAt_slice bs (16 * i) 16 _ _ (by decide : 4 + 4 ≤ 16),
      leAt_slice bs (16 * i) 16 _ _ (by decide : 8 + 8 ≤ 16), Nat.add_zero]
  unfold State.patchEntries entriesAt
  split
  · next bad => exact ⟨nofun, fun ⟨aligned, few, _⟩ => by omega⟩
  · next good =>
    rw [not_or, Classical.not_not, Nat.not_lt] at good
    obtain ⟨aligned, few⟩ := good
    cases s.ctxRead w .read a (16 * n) with
    | error e => exact ⟨nofun, fun ⟨_, _, _, _, read, _⟩ => nomatch read⟩
    | ok bs =>
      dsimp only
      rw [entry, mapM_eq_some_iff, range_map_eq_iff]
      simp only [map_some_eq_patchEntry_iff, aligned, few, true_and, Except.ok.injEq, exists_eq_left']

theorem State.patchEntries_eq_none {s : State} {w : Who} {a : W64} {n size : Nat} (none_there : ∀ l, ¬ entriesAt s w a n size l) :
    s.patchEntries w a n size = none :=
  Option.eq_none_iff_forall_ne_some.mpr fun l some_there => none_there l ((s.patchEntries_eq_some_iff w a n size l).mp some_there)

/-! Launches (R249 to R251, R273). -/

/-- The patch of a launch packet. -/
def State.launchPatch (s : State) (part tenant : Nat) (bs : List Byte) : Option (List (Nat × W64)) :=
  if leAt bs 24 8 = 0 then some []
  else s.patchEntries (packetWho part tenant (leAt bs 18 1)) (vaAt bs 24) (leAt bs 32 2) (((s.obj part (leAt bs 18 1) (leAt bs 16 2)).map (·.bsize)).getD 0)

/-- What a launch packet starts. -/
def packetStart (part k tenant : Nat) (bs : List Byte) (patch : Option (List (Nat × W64))) : Start :=
  { part := part, tenant := tenant, chan := k, die := leAt bs 18 1, obj := leAt bs 16 2, evbase := leAt bs 34 1, evcount := leAt bs 36 2
    cookie := BitVec.ofNat 32 (leAt bs 20 4), patch := patch }

section
variable {s : State} {part k tenant : Nat} {bs : List Byte}

theorem State.launchPacket_of_unusable (unusable : s.packetDie bs = false) :
    s.launchPacket part k tenant bs = (s, { cookie := leAt bs 20 4, status := 0x4B }) := by
  simp only [State.launchPacket, unusable, Bool.not_false, if_true]

variable (usable : s.packetDie bs = true)
include usable

theorem State.launchPacket_of_refused {st : Nat} (refused : s.startInst (packetStart part k tenant bs (s.launchPatch part tenant bs)) = .error st) :
    s.launchPacket part k tenant bs = (s, { cookie := leAt bs 20 4, status := st }) := by
  unfold packetStart State.launchPatch vaAt at refused
  simp only [State.launchPacket, usable, refused, Bool.not_true, Bool.false_eq_true, if_false]

theorem State.launchPacket_of_started {slot : Nat} {s1 : State}
    (started : s.startInst (packetStart part k tenant bs (s.launchPatch part tenant bs)) = .ok (slot, s1)) :
    s.launchPacket part k tenant bs =
      (s1, { cookie := leAt bs 20 4, status := 0, handle := handleOf (leAt bs 18 1) slot (s1.inst (leAt bs 18 1) slot).gen }) := by
  unfold packetStart State.launchPatch vaAt at started
  simp only [State.launchPacket, usable, started, Bool.not_true, Bool.false_eq_true, if_false]

end

/-! Patch and data packets (R264, R265, R273). -/

/-- Does the handle of a packet name a live graph of its tenant (R249, R273)? -/
def State.ownsHandle (s : State) (part tenant h : Nat) : Prop :=
  (s.inst (h % 4) (h / 4 % 64)).live = true ∧ (s.inst (h % 4) (h / 4 % 64)).gen = h / 256 % 2 ^ 24
    ∧ (s.inst (h % 4) (h / 4 % 64)).part = part ∧ (s.inst (h % 4) (h / 4 % 64)).tenant = tenant

section
variable {s : State} {part tenant : Nat} {bs : List Byte}

theorem State.packetInst_of_own (own : s.ownsHandle part tenant (leAt bs 16 4)) :
    s.packetInst part tenant bs = some (leAt bs 16 4 % 4, leAt bs 16 4 / 4 % 64) := by
  obtain ⟨live, gen, rest⟩ := own
  have named : s.instOf (leAt bs 16 4) = some (leAt bs 16 4 % 4, leAt bs 16 4 / 4 % 64) := if_pos ⟨live, gen⟩
  rw [State.packetInst, named]
  exact if_pos rest

theorem State.packetInst_of_foreign (foreign : ¬ s.ownsHandle part tenant (leAt bs 16 4)) : s.packetInst part tenant bs = none := by
  unfold State.packetInst State.instOf
  by_cases named : (s.inst (leAt bs 16 4 % 4) (leAt bs 16 4 / 4 % 64)).live = true
      ∧ (s.inst (leAt bs 16 4 % 4) (leAt bs 16 4 / 4 % 64)).gen = leAt bs 16 4 / 256 % 2 ^ 24
  · simp only [named, and_self, if_true]
    exact if_neg fun rest => foreign ⟨named.1, named.2, rest⟩
  · dsimp only
    rw [if_neg named]

end

section
variable {p : HostPacket} {s : State}

/-- A packet that is not expected leaves its ring and is answered once per expected seq (R272, R273). -/
theorem packets_stray {c : HostPacket → Instr} (mem : c ∈ packets) (opened : (s.chan p.part p.chan).on = true) (unexpected : ¬ expected p s) :
    let s0 := s.modChan p.part p.chan fun c => { c with hhead := (c.hhead + 1) % 65536 }
    ((s.chan p.part p.chan).faulted = true → exec (c p) s = .next s0)
    ∧ ((s.chan p.part p.chan).faulted = false →
        AnswersWith (exec (c p) s) p (s0.modChan p.part p.chan fun c => { c with faulted := true }) 0
          (if leAt (packetBytes p) 0 2 ≠ 1 then 0x43 else 0x44) (fld (s.chan p.part p.chan).reg 287 256) 0) := by
  obtain ⟨f, runs⟩ := exec_packets c mem p s
  obtain ⟨dropped, stray⟩ := State.hostPacket_of_stray f opened unexpected
  rw [runs, dropped, State.takePacket_of_stray stray]
  refine ⟨fun faulted => ?_, fun faulted => ?_⟩
  · rw [faulted]
    rfl
  · rw [faulted]
    rfl

variable (act : expected p s) {s1 : State} {cookie status handle : Nat} {refusal : BitVec 128}
include act

/-- An expected install acts as its object, image and addresses say (R248, R270). -/
theorem exec_install
    (effect : (taken p s).install p.part (s.chan p.part p.chan).tenant (packetBytes p) = (s1, ⟨cookie, status, handle, refusal⟩)) :
    AnswersWith (exec (.hHostInstallPacket p) s) p s1 cookie status handle refusal :=
  answersWith_of_effect (f := fun s c bs => s.install p.part c.tenant bs) act effect

theorem exec_launch
    (effect : (taken p s).launchPacket p.part p.chan (s.chan p.part p.chan).tenant (packetBytes p) = (s1, ⟨cookie, status, handle, refusal⟩)) :
    AnswersWith (exec (.hHostLaunchPacket p) s) p s1 cookie status handle refusal :=
  answersWith_of_effect (f := fun s c bs => s.launchPacket p.part p.chan c.tenant bs) act effect

/-- A packet for a graph that its tenant does not have is answered 0x45 (R273). -/
theorem exec_messages_of_foreign
    (foreign : ¬ (taken p s).ownsHandle p.part (s.chan p.part p.chan).tenant (leAt (packetBytes p) 16 4)) :
    AnswersWith (exec (.hHostPatchPacket p) s) p (taken p s) (leAt (packetBytes p) 20 4) 0x45 0 0
    ∧ AnswersWith (exec (.hHostDataPacket p) s) p (taken p s) 0 0x45 0 0 := by
  have unnamed := State.packetInst_of_foreign foreign
  refine ⟨answersWith_of_effect act ?_,
    answersWith_of_effect act ?_⟩ <;>
  simp only [unnamed]

variable {d k : Nat} (named : (taken p s).packetInst p.part (s.chan p.part p.chan).tenant (packetBytes p) = some (d, k))
include named

/-- A data packet queues behind at most 15 others (R265). -/
theorem exec_data_of_named :
    (16 ≤ ((taken p s).inst d k).data.length → AnswersWith (exec (.hHostDataPacket p) s) p (taken p s) 0 0x45 0 0)
    ∧ (((taken p s).inst d k).data.length < 16 →
        AnswersWith (exec (.hHostDataPacket p) s) p ((taken p s).modInst d k fun g => { g with data := g.data ++
          [(BitVec.ofNat 16 (leAt (packetBytes p) 20 2), BitVec.ofNat 320 (leAt (packetBytes p) 24 40))] }) 0 0 0 0) := by
  refine ⟨fun full => answersWith_of_effect act ?_,
    fun room => answersWith_of_effect act ?_⟩
  · simp only [named, full, if_true]
  · simp only [named, Nat.not_le.mpr room, if_false]

/-- The entries of a patch packet (R264). -/
def State.patchList (s : State) (p : HostPacket) (tenant d k : Nat) : Option (List (Nat × W64)) :=
  if leAt (packetBytes p) 32 2 = 0 then none
  else s.patchEntries (packetWho p.part tenant d) (vaAt (packetBytes p) 24) (leAt (packetBytes p) 32 2) (s.inst d k).bsize

theorem exec_patch_of_malformed (malformed : (taken p s).patchList p (s.chan p.part p.chan).tenant d k = none) :
    AnswersWith (exec (.hHostPatchPacket p) s) p (taken p s) (leAt (packetBytes p) 20 4) 0x42 0 0 := by
  refine answersWith_of_effect act ?_
  unfold State.patchList vaAt at malformed
  simp only [named, malformed]

/-- A well-formed patch packet queues behind at most 15 others (R264). -/
theorem exec_patch_of_entries {l : List (Nat × W64)} (entries : (taken p s).patchList p (s.chan p.part p.chan).tenant d k = some l) :
    (16 ≤ ((taken p s).inst d k).patches.length →
        AnswersWith (exec (.hHostPatchPacket p) s) p (taken p s) (leAt (packetBytes p) 20 4) 0x45 0 0)
    ∧ (((taken p s).inst d k).patches.length < 16 →
        AnswersWith (exec (.hHostPatchPacket p) s) p ((taken p s).modInst d k fun g => { g with patches := g.patches ++ [(s.cycle, l)] })
          (leAt (packetBytes p) 20 4) 0 0 0) := by
  unfold State.patchList vaAt at entries
  refine ⟨fun full => answersWith_of_effect act ?_,
    fun room => answersWith_of_effect act ?_⟩
  · simp only [named, entries, full, if_true]
  · simp only [named, entries, Nat.not_le.mpr room, if_false, taken_cycle]

end

/-- Settles O47: acceptance once for all packets, then the effect of each by the branches of its definition. -/
theorem hostPacketsActOnce : Obligations.HostPacketsActOnce := by
  refine ⟨fun c mem p s => ?strays, fun p s act => ?acts⟩
  case strays =>
    refine ⟨fun closed => ?_, fun opened unexpected => (packets_stray mem opened unexpected).1,
      fun opened unexpected => (packets_stray mem opened unexpected).2⟩
    obtain ⟨f, runs⟩ := exec_packets c mem p s
    rw [runs, State.hostPacket_of_closed f closed]
  case acts =>
    have usable_iff := State.packetDie_iff (taken p s) (packetBytes p)
    rw [taken_dev] at usable_iff
    refine ⟨answersWith_of_effect act rfl, fun unusable => ?_, fun usable null => ?_,
      fun usable image => ⟨fun r bad => ?_, fun ws read => ?_⟩, fun usable es patch => ?_, ?messages⟩
    · have unusable := Bool.eq_false_iff.mpr fun usable => unusable (usable_iff.mp usable)
      exact ⟨exec_install act (State.install_of_unusable unusable), exec_launch act (State.launchPacket_of_unusable unusable)⟩
    · exact exec_install act (State.install_of_null (usable_iff.mpr usable) null)
    · exact exec_install act (State.install_of_bad_image (usable_iff.mpr usable) image bad)
    · have usable := usable_iff.mpr usable
      exact ⟨fun misplaced => exec_install act (State.install_of_misplaced usable image read misplaced),
        fun placed crowded => exec_install act (State.install_of_crowded usable image read placed crowded),
        fun placed x found room => exec_install act (State.install_of_placed usable image read placed found room)⟩
    · have named : (taken p s).launchPatch p.part (s.chan p.part p.chan).tenant (packetBytes p) = es := by
        rcases patch with ⟨none_given, rfl⟩ | ⟨given, l, ⟨rfl, entries⟩ | ⟨-, rfl, malformed⟩⟩
        · exact if_pos none_given
        · exact (if_neg given).trans ((State.patchEntries_eq_some_iff ..).mpr entries)
        · exact (if_neg given).trans (State.patchEntries_eq_none malformed)
      subst named
      exact ⟨fun st refused => exec_launch act (State.launchPacket_of_refused (usable_iff.mpr usable) refused),
        fun k s2 started => exec_launch act (State.launchPacket_of_started (usable_iff.mpr usable) started)⟩
    case messages =>
      refine ⟨exec_messages_of_foreign act, fun own => (exec_data_of_named act (State.packetInst_of_own own)).1,
        fun own => (exec_data_of_named act (State.packetInst_of_own own)).2, fun own malformed => ?_, fun own some_given l entries => ?_⟩
      · refine exec_patch_of_malformed act (State.packetInst_of_own own) ?_
        rcases malformed with none_given | malformed
        · exact if_pos none_given
        · exact (congrArg (ite _ none) (State.patchEntries_eq_none malformed)).trans (ite_self _)
      · exact exec_patch_of_entries act (State.packetInst_of_own own)
          ((if_neg some_given).trans ((State.patchEntries_eq_some_iff ..).mpr entries))

end Sys2Proof.Machine
end
